-- ==== Sys2Proof/Word.lean ====
section
/-! DEFINITION. Widths of the values the manual treats as bits, and the six-channel record. -/

namespace Sys2Proof

/-- One byte of a frame, a request, a reply or the configuration image. -/
abbrev Byte := BitVec 8

/-- A 16-bit value: round numbers (mod 65536, R13), digests (R21, R148, R191), piece ids (R131). -/
abbrev Word16 := BitVec 16

/-- A gauge book sequence or book count, wrapping at 2^24 (R148, R152). -/
abbrev Seq := BitVec 24

/-- Six like things, one per channel 0 to 5 (03_channels_and_phases.md). -/
structure Six (α : Type) where
  c0 : α
  c1 : α
  c2 : α
  c3 : α
  c4 : α
  c5 : α
  deriving DecidableEq, Repr

/-- The thing of channel `i`. -/
def Six.get {α : Type} (v : Six α) (i : Fin 6) : α :=
  match i with
  | 0 => v.c0
  | 1 => v.c1
  | 2 => v.c2
  | 3 => v.c3
  | 4 => v.c4
  | 5 => v.c5

/-- The six things with the one of channel `i` replaced. -/
def Six.set {α : Type} (v : Six α) (i : Fin 6) (x : α) : Six α :=
  match i with
  | 0 => { v with c0 := x }
  | 1 => { v with c1 := x }
  | 2 => { v with c2 := x }
  | 3 => { v with c3 := x }
  | 4 => { v with c4 := x }
  | 5 => { v with c5 := x }

/-- The same thing six times. -/
def Six.all {α : Type} (x : α) : Six α := ⟨x, x, x, x, x, x⟩

/-- The six channel numbers in ascending order. -/
def channels : List (Fin 6) := [0, 1, 2, 3, 4, 5]

end Sys2Proof
end

