-- ==== Sys2Proof/Config.lean ====
section
/-! DEFINITION. The free values: what the manual leaves open and the part goes on with. None has a body, so no proof
can see a value of it. -/

namespace Sys2Proof.Config

/-- R71 gives the mean of MA "rounded to the nearest 0.1 °C" and no rule for a half: whether a half rounds up, by the
sum and the count. DESIGN CHOICE, log entry 9. -/
opaque meanTieUp : Int → Nat → Bool

/-- R168 converts an input its channel kind does not use "with a step of one unit of the entry"; whether such an
entry's two bytes are signed is not stated. DESIGN CHOICE, log entry 9. -/
opaque unusedEntrySigned : Bool

/-- R179 names in each reply the kind of request it answers; for a request cut short before its kind byte was whole no
kind is known. One value per such request, by the counter `State.free`. DESIGN CHOICE, log entry 9. -/
opaque cutShortCode : Nat → Byte

end Sys2Proof.Config
end

