-- ==== Sys2Proof/Syntax.lean ====
section
/-! DEFINITION. The commands: one constructor per row of spec/opcode_table.json, with the types of their operands and of
what the line and the panel carry. -/

namespace Sys2Proof

/-- Channel kinds (R51). -/
inductive Kind where
  | unused | steep | box | kiln | turner
  deriving DecidableEq, Repr

/-- Phase kinds, in the order of R64's table. -/
inductive PhaseKind where
  | wet | air | gauge | cast | couch | grow | turn | loadout | load | dry | peat | cure | sample | strip
  deriving DecidableEq, Repr

/-- Start modes (R67). -/
inductive StartMode where
  | fresh | cont
  deriving DecidableEq, Repr

/-- End modes (R68). -/
inductive EndMode where
  | hold | blend
  deriving DecidableEq, Repr

/-- A station and channel pair (chapter 12: station in bits 7 to 3, channel in bits 2 to 0). -/
structure Pair where
  station : Nat
  channel : Nat
  deriving DecidableEq, Repr

/-- A phase record: the common fields in the order of section 3.3's table, then the kind fields in the order of
section 12.2. An absent optional field is its own value. Temperatures are in 0.1 °C, fan gain in 0.1 % per °C. -/
structure PhaseRecord where
  kind : PhaseKind
  duration : Nat
  target : Option Int := none
  ramp : Nat := 0
  startMode : StartMode := .fresh
  endMode : EndMode := .hold
  priority : Nat := 0
  sheddable : Bool := false
  water : Option Nat := none
  power : Option Nat := none
  band : Nat := 1
  fillLevel : Option Nat := none
  fillLimit : Option Nat := none
  blowerOn : Option Nat := none
  blowerOff : Option Nat := none
  lot : Option Nat := none
  dest : Option Pair := none
  settle : Option Nat := none
  fanBase : Option Nat := none
  fanGain : Option Nat := none
  sprayOn : Option Nat := none
  turnLimit : Option Nat := none
  fanPercent : Option Nat := none
  burnerMax : Option Nat := none
  breakDelta : Option Nat := none
  deriving DecidableEq, Repr

/-- The five resources, in the order of R25's table. -/
inductive Resource where
  | water | power | turner | castway | loader
  deriving DecidableEq, Repr

/-- What an exclusive resource is doing (R25): the bay, or the destination. -/
inductive Detail where
  | bay (n : Nat)
  | dest (p : Pair)
  deriving DecidableEq, Repr

/-- A claim item of a TURN frame (R31, section 12.1). `merged` is the slot of the top-up merged into it. -/
structure ClaimItem where
  channel : Nat
  slot : Nat
  hold : Bool
  resource : Resource
  amount : Nat
  priority : Nat
  age : Nat
  sheddable : Bool
  shed : Bool
  detail : Option Detail
  merged : Option Nat
  deriving DecidableEq, Repr

/-- Stages of a piece (R131). -/
inductive Stage where
  | steep | box | kiln
  deriving DecidableEq, Repr

/-- A piece record (R131). Gauges in 0.1 gu, moisture in 0.1 %. -/
structure Piece where
  id : Word16
  lot : Nat
  stage : Stage
  steepGauge : Option Nat := none
  couchGauge : Option Nat := none
  sample : Option Nat := none
  moisture : Option Nat := none
  duty : Option Nat := none
  phases : Nat := 0
  orphan : Bool := false
  deficient : Bool := false
  handGauged : Bool := false
  castInterrupted : Bool := false
  unconfirmedOut : Bool := false
  deriving DecidableEq, Repr

/-- An OFFER item (section 7.2). -/
structure OfferItem where
  source : Nat
  dest : Pair
  loadout : Bool
  content : Piece
  deriving DecidableEq, Repr

/-- Reasons of a DECLINE, in the order of their codes (section 12.1). -/
inductive DeclineReason where
  | notReady | wrongKind | hasPiece | halted
  deriving DecidableEq, Repr

/-- An ACCEPT (no reason) or a DECLINE (a reason) of the replying destination channel (section 7.2). -/
structure ReplyItem where
  channel : Nat
  source : Pair
  id : Word16
  decline : Option DeclineReason
  deriving DecidableEq, Repr

/-- Outcome of a CASTEND: COMPLETE with the piece content, or CANCELLED with the piece id (section 7.2). -/
inductive CastOutcome where
  | complete (content : Piece)
  | cancelled (id : Word16)
  deriving DecidableEq, Repr

/-- A CASTEND item (section 7.2). -/
structure CastendItem where
  source : Nat
  dest : Pair
  outcome : CastOutcome
  deriving DecidableEq, Repr

/-- Outcomes of a turn (R100). -/
inductive TurnOutcome where
  | ok | abandoned | fault
  deriving DecidableEq, Repr

/-- A TURNEND item (R100). -/
structure TurnendItem where
  box : Pair
  outcome : TurnOutcome
  round : Word16
  deriving DecidableEq, Repr

/-- Kinds of gauge book entries, in the order of R148. -/
inductive EntryKind where
  | start | steepGauge | couchGauge | kilnSample | duty | discard | gap
  deriving DecidableEq, Repr

/-- Values of gauge book entries by kind (R148). -/
inductive EntryValue where
  | digest (d : Word16)
  | gauge (g : Nat)
  | sample (number moisture : Nat)
  | none
  deriving DecidableEq, Repr

/-- What an ENTRY item carries: every field of an entry except sequence, span, round and station (R150, R154). -/
structure EntryItem where
  kind : EntryKind
  channel : Option Nat
  piece : Option Word16
  value : EntryValue
  hand : Bool := false
  replaced : Bool := false
  deficient : Bool := false
  deriving DecidableEq, Repr

/-- A TURN frame: the header of R3 and the body in its order. -/
structure TurnFrame where
  sender : Nat
  opening : Bool
  home : Bool
  available : Bool
  round : Word16
  digest : Word16
  count : Seq
  claims : List ClaimItem := []
  offers : List OfferItem := []
  replies : List ReplyItem := []
  castends : List CastendItem := []
  turnends : List TurnendItem := []
  entries : List EntryItem := []
  deriving DecidableEq, Repr

/-- A JOIN frame (R3). -/
structure JoinFrame where
  sender : Nat
  round : Word16
  digest : Word16
  deriving DecidableEq, Repr

/-- The raw readings of one arrival (R166 to R168): MA to MD from 0 to 4095, and the logic level of MD. -/
structure RawArrival where
  ma : Nat
  mb : Nat
  mc : Nat
  md : Nat := 0
  active : Bool := false
  deriving DecidableEq, Repr

/-- Analogue inputs that a sensor fault can name (R170). -/
inductive Input where
  | ma | mb | mc
  deriving DecidableEq, Repr

/-- Places of the phase queue (R65). -/
inductive Place where
  | current | next
  deriving DecidableEq, Repr

/-- Gauge kinds of HAND_GAUGE (R163). -/
inductive HandKind where
  | steep | couch
  deriving DecidableEq, Repr

/-- The configuration settings, as the image gives them (section 12.3). Kept in `State.cfg` after a good load. -/
structure ChannelCal where
  maLow : Nat
  maHigh : Nat
  mbLow : Nat
  mbHigh : Nat
  mcLow : Nat
  mcHigh : Nat
  deriving DecidableEq, Repr

/-- Settings of the configuration image (section 12.3, R191 step 1). Scales in 0.001 gu/mm, offsets in 0.1 gu,
calibration entries as the two-byte numbers stand. -/
structure Settings where
  address : Nat
  homeTurner : Bool
  bays : Six Nat
  ratings : Six Nat
  water : Nat
  power : Nat
  roundPeriod : Nat
  travel : Nat
  turnTime : Nat
  turnerPower : Nat
  scales : Six Nat
  offsets : Six Int
  cal : Six ChannelCal
  settingsDigest : Word16
  calibrationDigest : Word16
  deriving DecidableEq, Repr

/-- The commands, one constructor per row of the table. Channels inside the station are `Fin 6`; the channel of a
panel request is the byte the panel controller sends, which R198 judges. -/
inductive Instr where
  -- reset and load (chapter 11)
  | powerUpReset (resetLow : Bool)
  | pinReset
  | resetEnd
  | configLoadGood (image : List Byte)
  | configLoadBad
  -- Timebase (section 9.4)
  | stabilizationRestart
  | crystalReady
  | crystalLost
  -- line (chapter 1)
  | coldWaitExpiry
  | joinColdWaitExpiry
  | joinDelayExpiry
  | openingInstantReached
  | turnSlotReached
  | ownFrameAborted (otherOnLine : Bool)
  | muteEntry
  | ownTurnReadBack
  | ownJoinReadBack
  | coldOpeningReadBack
  | validTurnFrameHeard (frame : List Byte)
  | validJoinFrameHeard (frame : List Byte)
  | garbledFrame
  | joinWindowOpens
  | joinWindowCloses
  | joiningEntry
  | muteTimerExpiry
  | muteEnd
  | isolationTimerExpiry
  | peerLost (station : Nat)
  -- transfers (chapter 7)
  | orphanAcceptLimit (channel : Fin 6)
  | offerUnanswered (channel : Fin 6)
  -- arrivals and their judgments
  | measurementArrival (channel : Fin 6) (raw : RawArrival)
  | sensorFault (channel : Fin 6) (input : Input)
  | levelSteady (channel : Fin 6) (level : Nat)
  | moistureMade (channel : Fin 6) (reading : Nat)
  | breakthrough (channel : Fin 6)
  | flameFail (channel : Fin 6)
  | powerLimitedTopUp (channel : Fin 6)
  | turnerOverloadFault (channel : Fin 6)
  -- process timers
  | phaseDurationReached (channel : Fin 6)
  | standTimeReached (channel : Fin 6)
  | fillLimitReached (channel : Fin 6)
  | settleEnd (channel : Fin 6)
  | turnLimitReached (channel : Fin 6)
  | blendWindowBegins (channel : Fin 6)
  | blowerOnEdge (channel : Fin 6)
  | blowerOffEdge (channel : Fin 6)
  | airRestEdge (channel : Fin 6)
  | sprayIntervalEdge (channel : Fin 6)
  | gatePulseEnd (channel : Fin 6)
  | travelEnd
  | turnerTurnDone
  -- panel requests (chapter 10)
  | loadPhase (channel : Nat) (record : PhaseRecord)
  | hold (channel : Nat)
  | release (channel : Nat)
  | setStep (channel : Nat) (value : Bool)
  | clearHalt (channel : Nat)
  | channelReset (channel : Nat)
  | withdrawOffer (channel : Nat)
  | discard (channel : Nat) (elockLow : Bool)
  | handGauge (channel : Nat) (kind : HandKind) (gauge : Nat) (elockLow : Bool)
  | takeBook (sequence : Seq)
  | setRestartHold (value : Bool)
  | readStationStatus (elockLow : Bool)
  | readChannelStatus (channel : Nat)
  | readPhaseRecord (channel : Nat) (place : Place)
  | readPieceRecord (channel : Nat)
  | readCompletionRecord (channel : Nat) (index : Nat)
  | readClaimTableEntry (index : Nat)
  | readPeerTable
  | readBookEntry (index : Nat)
  | readLineCounters
  | readPieceCounters
  | clearChanges (mask : Byte)
  | setAttentionMask (mask : Byte)
  | popEvent
  | readFault
  | badRequest (bytes : List Byte)
  | lineFrameStart
  deriving DecidableEq, Repr

end Sys2Proof
end

