-- ==== Sys2Proof/Decode.lean ====
section
/-! DEFINITION. Chapter 12: the frame check, frames, requests and the configuration image as bytes, each with its
reader; and `decodeTableWord`, which answers none, since no row of the table has bits. -/

namespace Sys2Proof

/-! ## Numbers, high byte first -/

/-- The two bytes of a 16-bit number, high byte first. -/
def bytes2 (n : Nat) : List Nat := [n / 256 % 256, n % 256]

/-- The three bytes of a 24-bit number, high byte first. -/
def bytes3 (n : Nat) : List Nat := [n / 65536 % 256, n / 256 % 256, n % 256]

/-- The four bytes of a 32-bit number, high byte first. -/
def bytes4 (n : Nat) : List Nat := [n / 16777216 % 256, n / 65536 % 256, n / 256 % 256, n % 256]

/-- A flag as a number. -/
def bit (b : Bool) : Nat := if b then 1 else 0

/-- Bit `i` of a byte. -/
def bitAt (n i : Nat) : Bool := n / 2 ^ i % 2 == 1

/-- A station and channel pair in one byte (chapter 12, opening). -/
def pairByte (p : Pair) : Nat := p.station * 8 + p.channel

/-- The pair a byte holds. -/
def pairOf (b : Nat) : Pair := ⟨b / 8, b % 8⟩

/-- A pair names station 1 to 24 and channel 0 to 5 (R197). -/
def pairValid (p : Pair) : Bool := 1 ≤ p.station && p.station ≤ 24 && p.channel ≤ 5

/-- A two-byte number read as two's complement. -/
def signed16 (n : Nat) : Int := if n < 32768 then (n : Int) else (n : Int) - 65536

/-- A signed number in two's complement, as a 16-bit number. -/
def unsigned16 (i : Int) : Nat := (i % 65536).toNat

/-! ## The 16-bit cyclic check (section 12.1) -/

/-- One bit of the check: shift out the high bit, and add the generator x^16 + x^12 + x^5 + 1 where it was set. -/
def crcBit (c : Word16) : Word16 := if c.msb then (c <<< 1) ^^^ 0x1021#16 else c <<< 1

/-- One byte of the check, from bit 7 down. -/
def crcByte (c : Word16) (b : Byte) : Word16 :=
  crcBit (crcBit (crcBit (crcBit (crcBit (crcBit (crcBit (crcBit
    (c ^^^ ((b.setWidth 16) <<< 8)))))))))

/-- The check of a run of bytes: starting value FFFFh, no final inversion. -/
def crc (bs : List Byte) : Word16 := bs.foldl crcByte 0xFFFF#16

/-! ## Piece content and items: sizes, writing, reading -/

/-- Three bytes of an optional gauge, none when absent. -/
def optBytes3 : Option Nat → List Nat
  | some n => bytes3 n
  | none => []

/-- Two bytes of an optional number, none when absent. -/
def optBytes2 : Option Nat → List Nat
  | some n => bytes2 n
  | none => []

/-- Stage codes (section 12.1). -/
def Stage.code : Stage → Nat
  | .steep => 1
  | .box => 2
  | .kiln => 3

/-- The stage of a code. -/
def stageOf : Nat → Option Stage
  | 1 => some .steep
  | 2 => some .box
  | 3 => some .kiln
  | _ => none

/-- Piece content as bytes (section 12.1): 8 to 21 of them. -/
def encodeContent (p : Piece) : List Nat :=
  bytes2 p.id.toNat ++ bytes2 p.lot ++ [p.stage.code, p.phases,
    bit p.orphan * 16 + bit p.deficient * 8 + bit p.handGauged * 4 + bit p.castInterrupted * 2
      + bit p.unconfirmedOut,
    bit p.steepGauge.isSome * 16 + bit p.couchGauge.isSome * 8 + bit p.sample.isSome * 4
      + bit p.moisture.isSome * 2 + bit p.duty.isSome]
  ++ optBytes3 p.steepGauge ++ optBytes3 p.couchGauge ++ optBytes2 p.sample ++ optBytes2 p.moisture
  ++ optBytes3 p.duty

/-- Reads an optional three-byte field, present when `here`. -/
def take3 (here : Bool) (l : List Nat) : Option (Option Nat × List Nat) :=
  if here then
    match l with
    | a :: b :: c :: r => some (some (a * 65536 + b * 256 + c), r)
    | _ => none
  else some (none, l)

/-- Reads an optional two-byte field, present when `here`. -/
def take2 (here : Bool) (l : List Nat) : Option (Option Nat × List Nat) :=
  if here then
    match l with
    | a :: b :: r => some (some (a * 256 + b), r)
    | _ => none
  else some (none, l)

/-- An optional number of at least 1, where present. -/
def atLeastOne : Option Nat → Bool
  | some n => 1 ≤ n
  | none => true

/-- Piece content read from exactly the bytes given (section 12.1, R197). Any two bytes are a moisture (DESIGN CHOICE,
log entry 79). -/
def decodeContent (l : List Nat) : Option Piece :=
  match l with
  | i0 :: i1 :: l0 :: l1 :: st :: ph :: fl :: pr :: rest =>
    (stageOf st).bind fun stage =>
    (take3 (bitAt pr 4) rest).bind fun (steepGauge, r1) =>
    (take3 (bitAt pr 3) r1).bind fun (couchGauge, r2) =>
    (take2 (bitAt pr 2) r2).bind fun (sample, r3) =>
    (take2 (bitAt pr 1) r3).bind fun (moisture, r4) =>
    (take3 (bitAt pr 0) r4).bind fun (duty, r5) =>
    if r5 = [] && (bitAt pr 2 == bitAt pr 1) && 1 ≤ l0 * 256 + l1 && atLeastOne sample then
      some { id := BitVec.ofNat 16 (i0 * 256 + i1), lot := l0 * 256 + l1, stage := stage,
             steepGauge := steepGauge, couchGauge := couchGauge, sample := sample,
             moisture := moisture, duty := duty, phases := ph,
             orphan := bitAt fl 4, deficient := bitAt fl 3, handGauged := bitAt fl 2,
             castInterrupted := bitAt fl 1, unconfirmedOut := bitAt fl 0 }
    else none
  | _ => none

/-- Resource codes in a CLAIM item (section 12.1). -/
def Resource.code : Resource → Nat
  | .water => 0
  | .power => 1
  | .turner => 2
  | .castway => 3
  | .loader => 4

/-- The resource of a code. -/
def resourceOf : Nat → Option Resource
  | 0 => some .water
  | 1 => some .power
  | 2 => some .turner
  | 3 => some .castway
  | 4 => some .loader
  | _ => none

/-- WATER and POWER are divisible, the others exclusive (R25). -/
def Resource.exclusive : Resource → Bool
  | .water => false
  | .power => false
  | .turner => true
  | .castway => true
  | .loader => true

/-- The detail byte of a claim (section 12.1). -/
def detailByte : Option Detail → List Nat
  | some (.bay n) => [n]
  | some (.dest p) => [pairByte p]
  | none => []

/-- The body of a CLAIM item. -/
def encodeClaim (c : ClaimItem) : List Nat :=
  [c.channel * 32 + c.slot * 8 + bit c.hold * 4 + bit c.sheddable * 2 + bit c.shed,
   c.resource.code * 32 + c.priority * 4 + bit c.merged.isSome * 2, c.amount]
  ++ bytes2 (c.merged.getD 0 * 16384 + c.age) ++ detailByte c.detail

/-- A detail byte read by its resource: a bay of 1 to 32, or a destination pair (R197). -/
def detailOf (r : Resource) (l : List Nat) : Option (Option Detail) :=
  match r.exclusive, l with
  | false, [] => some none
  | true, [b] =>
    if r = .turner then
      if 1 ≤ b && b ≤ 32 then some (some (.bay b)) else none
    else if pairValid (pairOf b) then some (some (.dest (pairOf b))) else none
  | _, _ => none

/-- The body of a CLAIM item read (R197). -/
def decodeClaim (l : List Nat) : Option ClaimItem :=
  match l with
  | b0 :: b1 :: amount :: b3 :: b4 :: rest =>
    (resourceOf (b1 / 32)).bind fun res =>
    (detailOf res rest).bind fun detail =>
    let channel := b0 / 32
    let slot := b0 / 8 % 4
    let merge := bitAt b1 1
    let mslot := b3 / 64
    if channel ≤ 5 && slot ≤ 2 && !bitAt b1 0 && 1 ≤ amount && (!res.exclusive || amount == 1)
        && (b3 / 16 % 4 == 0) && (!merge || bitAt b0 2 && mslot ≤ 2 && mslot != slot)
        && (merge || mslot == 0) then
      some { channel := channel, slot := slot, hold := bitAt b0 2, resource := res,
             amount := amount, priority := b1 / 4 % 8, age := b3 % 16 * 256 + b4,
             sheddable := bitAt b0 1, shed := bitAt b0 0, detail := detail,
             merged := if merge then some mslot else none }
    else none
  | _ => none

/-- An item of a frame's body. -/
inductive Item where
  | claim (i : ClaimItem)
  | offer (i : OfferItem)
  | reply (i : ReplyItem)
  | castend (i : CastendItem)
  | turnend (i : TurnendItem)
  | entry (i : EntryItem)
  deriving DecidableEq, Repr

/-- DECLINE reason codes (section 12.1). -/
def DeclineReason.code : DeclineReason → Nat
  | .notReady => 1
  | .wrongKind => 2
  | .hasPiece => 3
  | .halted => 4

/-- The DECLINE reason of a code. -/
def declineOf : Nat → Option DeclineReason
  | 1 => some .notReady
  | 2 => some .wrongKind
  | 3 => some .hasPiece
  | 4 => some .halted
  | _ => none

/-- TURNEND outcome codes (section 12.1). -/
def TurnOutcome.code : TurnOutcome → Nat
  | .ok => 0
  | .abandoned => 1
  | .fault => 2

/-- The TURNEND outcome of a code. -/
def turnOutcomeOf : Nat → Option TurnOutcome
  | 0 => some .ok
  | 1 => some .abandoned
  | 2 => some .fault
  | _ => none

/-- Entry kind codes (section 12.1 for 1 to 6; 7 is GAP, by R148's order, on the panel alone). -/
def EntryKind.code : EntryKind → Nat
  | .start => 1
  | .steepGauge => 2
  | .couchGauge => 3
  | .kilnSample => 4
  | .duty => 5
  | .discard => 6
  | .gap => 7

/-- The entry kind of a code an ENTRY item may carry. -/
def entryKindOf : Nat → Option EntryKind
  | 1 => some .start
  | 2 => some .steepGauge
  | 3 => some .couchGauge
  | 4 => some .kilnSample
  | 5 => some .duty
  | 6 => some .discard
  | _ => none

/-- The flags an entry kind may carry: HAND and REPLACED, DEFICIENT (R148). -/
def entryFlagsValid (k : EntryKind) (hand replaced deficient : Bool) : Bool :=
  match k with
  | .steepGauge => !deficient
  | .couchGauge => !deficient
  | .duty => !hand && !replaced
  | .start => !hand && !replaced && !deficient
  | .kilnSample => !hand && !replaced && !deficient
  | .discard => !hand && !replaced && !deficient
  | .gap => !hand && !replaced && !deficient

/-- The value bytes of an entry. -/
def valueBytes : EntryValue → List Nat
  | .digest d => bytes2 d.toNat
  | .gauge g => bytes3 g
  | .sample n m => bytes2 n ++ bytes2 m
  | .none => []

/-- The body of an ENTRY item. -/
def encodeEntry (e : EntryItem) : List Nat :=
  [e.kind.code * 16 + bit e.hand * 4 + bit e.replaced * 2 + bit e.deficient]
  ++ (match e.channel, e.piece with
      | some c, some p => c :: bytes2 p.toNat
      | _, _ => [])
  ++ valueBytes e.value

/-- The body of an ENTRY item read (R197). Any two bytes are a moisture (DESIGN CHOICE, log entry 79). -/
def decodeEntry (l : List Nat) : Option EntryItem :=
  match l with
  | b0 :: rest =>
    (entryKindOf (b0 / 16)).bind fun kind =>
    let hand := bitAt b0 2
    let replaced := bitAt b0 1
    let deficient := bitAt b0 0
    if !entryFlagsValid kind hand replaced deficient then none
    else
      match kind, rest with
      | .start, [d0, d1] =>
        some { kind := kind, channel := none, piece := none,
               value := .digest (BitVec.ofNat 16 (d0 * 256 + d1)) }
      | .start, _ => none
      | .kilnSample, [c, p0, p1, s0, s1, m0, m1] =>
        if c ≤ 5 && 1 ≤ s0 * 256 + s1 then
          some { kind := kind, channel := some c, piece := some (BitVec.ofNat 16 (p0 * 256 + p1)),
                 value := .sample (s0 * 256 + s1) (m0 * 256 + m1) }
        else none
      | .kilnSample, _ => none
      | k, [c, p0, p1, g0, g1, g2] =>
        if c ≤ 5 then
          some { kind := k, channel := some c, piece := some (BitVec.ofNat 16 (p0 * 256 + p1)),
                 value := .gauge (g0 * 65536 + g1 * 256 + g2),
                 hand := hand, replaced := replaced, deficient := deficient }
        else none
      | _, _ => none
  | [] => none

/-- An item's code and body (section 12.1). -/
def encodeItemBody : Item → Nat × List Nat
  | .claim c => (0x10, encodeClaim c)
  | .offer o => (0x20, [bit o.loadout * 8 + o.source, pairByte o.dest] ++ encodeContent o.content)
  | .reply r =>
    match r.decline with
    | none => (0x21, [r.channel, pairByte r.source] ++ bytes2 r.id.toNat)
    | some d => (0x22, [r.channel, pairByte r.source] ++ bytes2 r.id.toNat ++ [d.code])
  | .castend c =>
    match c.outcome with
    | .complete p => (0x23, [8 + c.source, pairByte c.dest] ++ encodeContent p)
    | .cancelled id => (0x23, [c.source, pairByte c.dest] ++ bytes2 id.toNat)
  | .turnend t => (0x30, [pairByte t.box, t.outcome.code] ++ bytes2 t.round.toNat)
  | .entry e => (0x40, encodeEntry e)

/-- An item as it stands in a frame: code, length, body. -/
def encodeItem (i : Item) : List Nat :=
  (encodeItemBody i).1 :: (encodeItemBody i).2.length :: (encodeItemBody i).2

/-- The item of a code and a body (R197). -/
def decodeItem (code : Nat) (body : List Nat) : Option Item :=
  match code with
  | 0x10 => (decodeClaim body).map .claim
  | 0x20 =>
    match body with
    | b0 :: b1 :: content =>
      if b0 % 8 ≤ 5 && pairValid (pairOf b1) then
        (decodeContent content).map fun p =>
          .offer { source := b0 % 8, dest := pairOf b1, loadout := bitAt b0 3, content := p }
      else none
    | _ => none
  | 0x21 =>
    match body with
    | [c, s, i0, i1] =>
      if c ≤ 5 && pairValid (pairOf s) then
        some (.reply { channel := c, source := pairOf s, id := BitVec.ofNat 16 (i0 * 256 + i1),
                       decline := none })
      else none
    | _ => none
  | 0x22 =>
    match body with
    | [c, s, i0, i1, d] =>
      if c ≤ 5 && pairValid (pairOf s) then
        (declineOf d).map fun reason =>
          .reply { channel := c, source := pairOf s, id := BitVec.ofNat 16 (i0 * 256 + i1),
                   decline := some reason }
      else none
    | _ => none
  | 0x23 =>
    match body with
    | b0 :: b1 :: rest =>
      if b0 % 8 ≤ 5 && pairValid (pairOf b1) then
        if bitAt b0 3 then
          (decodeContent rest).map fun p =>
            .castend { source := b0 % 8, dest := pairOf b1, outcome := .complete p }
        else
          match rest with
          | [i0, i1] =>
            some (.castend { source := b0 % 8, dest := pairOf b1,
                             outcome := .cancelled (BitVec.ofNat 16 (i0 * 256 + i1)) })
          | _ => none
      else none
    | _ => none
  | 0x30 =>
    match body with
    | [b, o, r0, r1] =>
      if pairValid (pairOf b) then
        (turnOutcomeOf o).map fun outcome =>
          .turnend { box := pairOf b, outcome := outcome, round := BitVec.ofNat 16 (r0 * 256 + r1) }
      else none
    | _ => none
  | 0x40 => (decodeEntry body).map .entry
  | _ => none

/-- The items that fill a run of bytes exactly; `fuel` bounds their number. -/
def decodeItems : Nat → List Nat → Option (List Item)
  | _, [] => some []
  | 0, _ :: _ => none
  | fuel + 1, code :: rest =>
    match rest with
    | [] => none
    | len :: body =>
      if body.length < len then none
      else
        (decodeItem code (body.take len)).bind fun i =>
        (decodeItems fuel (body.drop len)).map (i :: ·)

/-- Place of an item's kind in the order of R3. -/
def Item.rank : Item → Nat
  | .claim _ => 0
  | .offer _ => 1
  | .reply _ => 2
  | .castend _ => 3
  | .turnend _ => 4
  | .entry _ => 5

/-- The place of an item in R197's order, with the order of claims and of offers inside their kind. -/
def Item.order : Item → Nat
  | .claim c => c.channel * 4 + c.slot
  | .offer o => o.source
  | .reply _ => 0
  | .castend _ => 0
  | .turnend _ => 0
  | .entry _ => 0

/-- One item may stand before another (R197): an earlier kind, or the same kind in its order. -/
def Item.before (a b : Item) : Bool :=
  a.rank < b.rank
    || (a.rank == b.rank && (a.rank ≥ 2 || a.order < b.order))

/-- Items stand in R3's order, claims ascending with no identity twice, offers in ascending source (R197). -/
def itemsOrdered : List Item → Bool
  | [] => true
  | [_] => true
  | a :: b :: rest => a.before b && itemsOrdered (b :: rest)

/-- The claims among items. -/
def claimsOf : List Item → List ClaimItem
  | [] => []
  | .claim c :: r => c :: claimsOf r
  | _ :: r => claimsOf r

/-- The offers among items. -/
def offersOf : List Item → List OfferItem
  | [] => []
  | .offer c :: r => c :: offersOf r
  | _ :: r => offersOf r

/-- The replies among items. -/
def repliesOf : List Item → List ReplyItem
  | [] => []
  | .reply c :: r => c :: repliesOf r
  | _ :: r => repliesOf r

/-- The cast-ends among items. -/
def castendsOf : List Item → List CastendItem
  | [] => []
  | .castend c :: r => c :: castendsOf r
  | _ :: r => castendsOf r

/-- The turn ends among items. -/
def turnendsOf : List Item → List TurnendItem
  | [] => []
  | .turnend c :: r => c :: turnendsOf r
  | _ :: r => turnendsOf r

/-- The entries among items. -/
def entriesOf : List Item → List EntryItem
  | [] => []
  | .entry c :: r => c :: entriesOf r
  | _ :: r => entriesOf r

/-- The body of a TURN frame as items, in the order of R3. -/
def TurnFrame.items (f : TurnFrame) : List Item :=
  f.claims.map .claim ++ f.offers.map .offer ++ f.replies.map .reply ++ f.castends.map .castend
    ++ f.turnends.map .turnend ++ f.entries.map .entry

/-- Bytes 0 and 1 of a TURN frame and its header to byte 9. -/
def turnHeader (f : TurnFrame) (n : Nat) : List Nat :=
  [64 + bit f.opening * 4 + bit f.home * 2 + bit f.available, n, f.sender]
    ++ bytes2 f.round.toNat ++ bytes2 f.digest.toNat ++ bytes3 f.count.toNat

/-- The bytes of a number list. -/
def toBytes (l : List Nat) : List Byte := l.map (BitVec.ofNat 8)

/-- A run of bytes with its check after it. -/
def withCheck (l : List Byte) : List Byte := l ++ toBytes (bytes2 (crc l).toNat)

/-- A TURN frame on the wire (section 12.1). -/
def encodeTurn (f : TurnFrame) : List Byte :=
  let body := (f.items.map encodeItem).flatten
  withCheck (toBytes (turnHeader f (12 + body.length) ++ body))

/-- A JOIN frame on the wire (section 12.1). -/
def encodeJoin (f : JoinFrame) : List Byte :=
  withCheck (toBytes ([128, 9, f.sender] ++ bytes2 f.round.toNat ++ bytes2 f.digest.toNat))

/-- The last two bytes of a frame agree with the check of the bytes before them. -/
def checkAgrees (bs : List Byte) : Bool :=
  2 ≤ bs.length && bs.drop (bs.length - 2) == toBytes (bytes2 (crc (bs.take (bs.length - 2))).toNat)

/-- A valid TURN frame read from its bytes (R2, R197); none for anything that is a check failure. -/
def decodeTurn (bs : List Byte) : Option TurnFrame :=
  if !checkAgrees bs then none
  else
    match (bs.take (bs.length - 2)).map BitVec.toNat with
    | b0 :: n :: sender :: r0 :: r1 :: d0 :: d1 :: k0 :: k1 :: k2 :: body =>
      if b0 / 64 == 1 && (b0 / 8 % 8 == 0) && n == bs.length && 12 ≤ n && n ≤ 255
          && 1 ≤ sender && sender ≤ 24 then
        (decodeItems body.length body).bind fun items =>
        if itemsOrdered items && (claimsOf items).length ≤ 18 then
          some { sender := sender, opening := bitAt b0 2, home := bitAt b0 1,
                 available := bitAt b0 0, round := BitVec.ofNat 16 (r0 * 256 + r1),
                 digest := BitVec.ofNat 16 (d0 * 256 + d1),
                 count := BitVec.ofNat 24 (k0 * 65536 + k1 * 256 + k2),
                 claims := claimsOf items, offers := offersOf items, replies := repliesOf items,
                 castends := castendsOf items, turnends := turnendsOf items,
                 entries := entriesOf items }
        else none
      else none
    | _ => none

/-- A valid JOIN frame read from its bytes (R2, R197). -/
def decodeJoin (bs : List Byte) : Option JoinFrame :=
  if !checkAgrees bs then none
  else
    match (bs.take (bs.length - 2)).map BitVec.toNat with
    | [b0, n, sender, r0, r1, d0, d1] =>
      if b0 == 128 && n == 9 && 1 ≤ sender && sender ≤ 24 then
        some { sender := sender, round := BitVec.ofNat 16 (r0 * 256 + r1),
               digest := BitVec.ofNat 16 (d0 * 256 + d1) }
      else none
    | _ => none

/-! ## The configuration image (section 12.3) -/

/-- Byte `i` of the image, as a number. -/
def imgByte (img : List Byte) (i : Nat) : Nat := (img.getD i 0).toNat

/-- The two-byte number at `i`. -/
def img2 (img : List Byte) (i : Nat) : Nat := imgByte img i * 256 + imgByte img (i + 1)

/-- Channel kind codes (section 12.3). -/
def kindOf : Nat → Option Kind
  | 0 => some .unused
  | 1 => some .steep
  | 2 => some .box
  | 3 => some .kiln
  | 4 => some .turner
  | _ => none

/-- Channel kind codes (section 12.3). -/
def Kind.code : Kind → Nat
  | .unused => 0
  | .steep => 1
  | .box => 2
  | .kiln => 3
  | .turner => 4

/-- Six things by channel number. -/
def sixOf {α : Type} (f : Nat → α) : Six α := ⟨f 0, f 1, f 2, f 3, f 4, f 5⟩

/-- The kinds an image gives (an unlisted code reads as UNUSED here and fails test 3). -/
def imageKinds (img : List Byte) : Six Kind := sixOf fun c => (kindOf (imgByte img (1 + c))).getD .unused

/-- The measurement calibration of a channel (bytes 51 to 122). -/
def imageCal (img : List Byte) (c : Nat) : ChannelCal :=
  { maLow := img2 img (51 + 12 * c), maHigh := img2 img (53 + 12 * c),
    mbLow := img2 img (55 + 12 * c), mbHigh := img2 img (57 + 12 * c),
    mcLow := img2 img (59 + 12 * c), mcHigh := img2 img (61 + 12 * c) }

/-- The image digest, over bytes 0 to 126 (R200). -/
def imageDigest (img : List Byte) : Word16 := crc (img.take 127)

/-- The settings of an image (section 12.3), with the settings digest over bytes 19 to 26 and the calibration digest
over bytes 27 to 50 (R200). -/
def imageSettings (img : List Byte) : Settings :=
  { address := imgByte img 0 % 32, homeTurner := bitAt (imgByte img 0) 7,
    bays := sixOf fun c => imgByte img (7 + c), ratings := sixOf fun c => imgByte img (13 + c),
    water := imgByte img 19, power := imgByte img 20, roundPeriod := img2 img 21,
    travel := imgByte img 23, turnTime := img2 img 24, turnerPower := imgByte img 26,
    scales := sixOf fun c => img2 img (27 + 4 * c),
    offsets := sixOf fun c => signed16 (img2 img (29 + 4 * c)),
    cal := sixOf (imageCal img),
    settingsDigest := crc ((img.take 27).drop 19),
    calibrationDigest := crc ((img.take 51).drop 27) }

/-- A two-byte temperature entry lies in −50.0 to 200.0 °C. -/
def tempEntry (n : Nat) : Bool := -500 ≤ signed16 n && signed16 n ≤ 2000

/-- A two-byte level entry lies in 0 to 4000 mm. -/
def levelEntry (n : Nat) : Bool := n ≤ 4000

/-- A two-byte moisture entry lies in 0.0 to 100.0 %. -/
def moistureEntry (n : Nat) : Bool := n ≤ 1000

/-- The range test of one channel's entries, where its kind uses them (R167, R190, R200). -/
def channelInRange (k : Kind) (bay rating : Nat) (cal : ChannelCal) : Bool :=
  match k with
  | .unused => true
  | .turner => true
  | .steep => tempEntry cal.maLow && tempEntry cal.maHigh && levelEntry cal.mbLow && levelEntry cal.mbHigh
  | .box =>
    1 ≤ bay && bay ≤ 32 && 1 ≤ rating && rating ≤ 60 && tempEntry cal.maLow && tempEntry cal.maHigh
      && levelEntry cal.mbLow && levelEntry cal.mbHigh && tempEntry cal.mcLow && tempEntry cal.mcHigh
  | .kiln =>
    1 ≤ rating && rating ≤ 60 && tempEntry cal.maLow && tempEntry cal.maHigh && tempEntry cal.mbLow
      && tempEntry cal.mbHigh && moistureEntry cal.mcLow && moistureEntry cal.mcHigh

/-- The number of TURNER channels an image names. -/
def turnerCount (k : Six Kind) : Nat :=
  (channels.filter fun c => k.get c = .turner).length

/-- The sum of the image's bytes. -/
def imageSum (img : List Byte) : Nat := img.foldl (fun n b => n + b.toNat) 0

/-- Tests 1 to 5 of R190 on an image (an image of another length was not answered whole). -/
def goodImage (img : List Byte) : Bool :=
  let s := imageSettings img
  let k := imageKinds img
  img.length == 128
    && imageSum img % 256 == 0
    && (1 ≤ s.address && s.address ≤ 24 && (imgByte img 0 / 32 % 4 == 0)
        && channels.all fun c => (kindOf (imgByte img (1 + c.val))).isSome)
    && (500 ≤ s.roundPeriod && s.roundPeriod ≤ 5000 && 1 ≤ s.water && 1 ≤ s.power
        && 5 ≤ s.travel && s.travel ≤ 120 && 60 ≤ s.turnTime && s.turnTime ≤ 3600
        && 1 ≤ s.turnerPower && s.turnerPower ≤ 60
        && channels.all fun c => channelInRange (k.get c) (s.bays.get c) (s.ratings.get c) (s.cal.get c))
    && (turnerCount k ≤ 1 && (s.homeTurner == (turnerCount k == 1)))

/-! ## Requests (section 12.2, R198) -/

/-- Phase kind codes 1 to 14, in the order of R64's table. -/
def PhaseKind.code : PhaseKind → Nat
  | .wet => 1
  | .air => 2
  | .gauge => 3
  | .cast => 4
  | .couch => 5
  | .grow => 6
  | .turn => 7
  | .loadout => 8
  | .load => 9
  | .dry => 10
  | .peat => 11
  | .cure => 12
  | .sample => 13
  | .strip => 14

/-- The phase kind of a code. -/
def phaseKindOf (n : Nat) : Option PhaseKind :=
  [PhaseKind.wet, .air, .gauge, .cast, .couch, .grow, .turn, .loadout, .load, .dry, .peat, .cure,
    .sample, .strip].find? fun k => k.code == n

/-- A flag byte: 00h or 01h. -/
def flagOf : Nat → Option Bool
  | 0 => some false
  | 1 => some true
  | _ => none

/-- An optional one-byte field behind its presence byte. -/
def opt1 (p v : Nat) : Option (Option Nat) := (flagOf p).map fun b => if b then some v else none

/-- An optional one-byte field at `i` of a record: its presence byte and its value. -/
def optAt1 (l : List Nat) (i : Nat) : Option (Option Nat) := opt1 (l.getD i 0) (l.getD (i + 1) 0)

/-- The two-byte number at `i` of a record. -/
def at2 (l : List Nat) (i : Nat) : Nat := l.getD i 0 * 256 + l.getD (i + 1) 0

/-- An optional two-byte field at `i` of a record: its presence byte and its value. -/
def optAt2 (l : List Nat) (i : Nat) : Option (Option Nat) := opt1 (l.getD i 0) (at2 l (i + 1))

/-- The start mode of a code. -/
def startModeOf (n : Nat) : Option StartMode :=
  if n = 1 then some .fresh else if n = 2 then some .cont else none

/-- The end mode of a code. -/
def endModeOf (n : Nat) : Option EndMode :=
  if n = 1 then some .hold else if n = 2 then some .blend else none

/-- The 46 bytes of a phase record read (section 12.2). -/
def decodeRecord (l : List Nat) : Option PhaseRecord :=
  if l.length ≠ 46 then none
  else
    (phaseKindOf (l.getD 0 0)).bind fun kind =>
    (optAt2 l 3).bind fun target =>
    (startModeOf (l.getD 7 0)).bind fun startMode =>
    (endModeOf (l.getD 8 0)).bind fun endMode =>
    (flagOf (l.getD 10 0)).bind fun sheddable =>
    (optAt1 l 11).bind fun water =>
    (optAt1 l 13).bind fun power =>
    (optAt2 l 16).bind fun fillLevel =>
    (optAt1 l 19).bind fun fillLimit =>
    (optAt1 l 21).bind fun blowerOn =>
    (optAt1 l 23).bind fun blowerOff =>
    (optAt2 l 25).bind fun lot =>
    (optAt1 l 28).bind fun dest =>
    (optAt1 l 30).bind fun settle =>
    (optAt1 l 32).bind fun fanBase =>
    (optAt1 l 34).bind fun fanGain =>
    (optAt1 l 36).bind fun sprayOn =>
    (optAt1 l 38).bind fun turnLimit =>
    (optAt1 l 40).bind fun fanPercent =>
    (optAt1 l 42).bind fun burnerMax =>
    (optAt1 l 44).map fun breakDelta =>
    { kind := kind, duration := at2 l 1, target := target.map signed16,
      ramp := l.getD 6 0, startMode := startMode, endMode := endMode, priority := l.getD 9 0,
      sheddable := sheddable, water := water, power := power, band := l.getD 15 0,
      fillLevel := fillLevel, fillLimit := fillLimit, blowerOn := blowerOn, blowerOff := blowerOff,
      lot := lot, dest := dest.map pairOf, settle := settle, fanBase := fanBase, fanGain := fanGain,
      sprayOn := sprayOn, turnLimit := turnLimit, fanPercent := fanPercent, burnerMax := burnerMax,
      breakDelta := breakDelta }

/-- A request whose only field is a channel of 0 to 5. -/
def channelRequest (f : Nat → Instr) (fields : List Nat) : Option Instr :=
  match fields with
  | [c] => if c ≤ 5 then some (f c) else none
  | _ => none

/-- A request whose only field is a 00h or 01h value. -/
def flagRequest (f : Bool → Instr) (fields : List Nat) : Option Instr :=
  match fields with
  | [v] => (flagOf v).map f
  | _ => none

/-- READ's object and selectors (R181, section 12.2). -/
def decodeRead (elockLow : Bool) (fields : List Nat) : Option Instr :=
  match fields with
  | [1] => some (.readStationStatus elockLow)
  | [2, c] => if c ≤ 5 then some (.readChannelStatus c) else none
  | [3, c, p] =>
    if c ≤ 5 then
      if p == 1 then some (.readPhaseRecord c .current)
      else if p == 2 then some (.readPhaseRecord c .next) else none
    else none
  | [4, c] => if c ≤ 5 then some (.readPieceRecord c) else none
  | [5, c, n] => if c ≤ 5 && n ≤ 3 then some (.readCompletionRecord c n) else none
  | [6, n] => if n ≤ 127 then some (.readClaimTableEntry n) else none
  | [7] => some .readPeerTable
  | [8, n] => if n ≤ 127 then some (.readBookEntry n) else none
  | [9] => some .readLineCounters
  | [10] => some .readPieceCounters
  | _ => none

/-- The command of a request's kind code and exactly its fields. -/
def decodeFields (elockLow : Bool) (code : Nat) (fields : List Nat) : Option Instr :=
  match code with
  | 0x01 =>
    match fields with
    | c :: r => if c ≤ 5 then (decodeRecord r).map (.loadPhase c) else none
    | [] => none
  | 0x02 => channelRequest .hold fields
  | 0x03 => channelRequest .release fields
  | 0x04 =>
    match fields with
    | [c, v] => if c ≤ 5 then (flagOf v).map (.setStep c) else none
    | _ => none
  | 0x05 => channelRequest .clearHalt fields
  | 0x06 => channelRequest .channelReset fields
  | 0x07 => channelRequest .withdrawOffer fields
  | 0x08 => channelRequest (fun c => .discard c elockLow) fields
  | 0x09 =>
    match fields with
    | [c, k, g0, g1, g2] =>
      if c ≤ 5 then
        if k == 1 then some (.handGauge c .steep (g0 * 65536 + g1 * 256 + g2) elockLow)
        else if k == 2 then some (.handGauge c .couch (g0 * 65536 + g1 * 256 + g2) elockLow)
        else none
      else none
    | _ => none
  | 0x0A =>
    match fields with
    | [a, b, c] => some (.takeBook (BitVec.ofNat 24 (a * 65536 + b * 256 + c)))
    | _ => none
  | 0x0B => flagRequest .setRestartHold fields
  | 0x0C => decodeRead elockLow fields
  | 0x0D =>
    match fields with
    | [m] => some (.clearChanges (BitVec.ofNat 8 m))
    | _ => none
  | 0x0E =>
    match fields with
    | [m] => some (.setAttentionMask (BitVec.ofNat 8 m))
    | _ => none
  | 0x0F => if fields = [] then some .popEvent else none
  | 0x10 => if fields = [] then some .readFault else none
  | _ => none

/-- The command that the bytes of a transaction spell (R178, R198), none where R198 answers BAD_REQUEST. ELOCK's level
at the request comes beside the bytes (R162). Bytes after the last field are ignored. -/
def decodeRequest (elockLow : Bool) (bs : List Byte) : Option Instr :=
  match bs.map BitVec.toNat with
  | code :: len :: rest =>
    if rest.length < len then none else decodeFields elockLow code (rest.take len)
  | _ => none

/-! ## The table's words -/

/-- No row of spec/opcode_table.json gives bits, so no word spells a command. -/
def decodeTableWord (_nbits _w : Nat) : Option Instr := none

end Sys2Proof
end

