-- ==== Sys2Proof/WellFormed.lean ====
section
/-! DEFINITION. What a command's operands must satisfy to be ones the block can be given. The meanings are total: an
operand that fails here is handled as the manual handles such bytes (a check failure, a bad load, BAD_REQUEST). -/

namespace Sys2Proof

/-- A number fits in one byte. -/
def fits1 (n : Nat) : Bool := n < 256

/-- An optional number fits in one byte. -/
def optFits1 : Option Nat → Bool
  | some n => n < 256
  | none => true

/-- An optional number fits in two bytes. -/
def optFits2 : Option Nat → Bool
  | some n => n < 65536
  | none => true

/-- A phase record's fields fit the bytes section 12.2 gives them (their ranges are R63's matter). -/
def PhaseRecord.fits (r : PhaseRecord) : Bool :=
  r.duration < 65536
    && (match r.target with
        | some t => -32768 ≤ t && t ≤ 32767
        | none => true)
    && fits1 r.ramp && fits1 r.priority && optFits1 r.water && optFits1 r.power && fits1 r.band
    && optFits2 r.fillLevel && optFits1 r.fillLimit && optFits1 r.blowerOn && optFits1 r.blowerOff
    && optFits2 r.lot
    && (match r.dest with
        | some p => p.station < 32 && p.channel < 8
        | none => true)
    && optFits1 r.settle && optFits1 r.fanBase && optFits1 r.fanGain && optFits1 r.sprayOn
    && optFits1 r.turnLimit && optFits1 r.fanPercent && optFits1 r.burnerMax && optFits1 r.breakDelta

/-- A reading of the 12-bit front end (R167). -/
def rawFits (n : Nat) : Bool := n ≤ 4095

/-- The operands of a command are ones it can be given. -/
def Instr.WellFormed (i : Instr) : Bool :=
  match i with
  | .powerUpReset _ => true
  | .pinReset => true
  | .resetEnd => true
  | .configLoadGood image => goodImage image
  | .configLoadBad => true
  | .stabilizationRestart => true
  | .crystalReady => true
  | .crystalLost => true
  | .coldWaitExpiry => true
  | .joinColdWaitExpiry => true
  | .joinDelayExpiry => true
  | .openingInstantReached => true
  | .turnSlotReached => true
  | .ownFrameAborted _ => true
  | .muteEntry => true
  | .ownTurnReadBack => true
  | .ownJoinReadBack => true
  | .coldOpeningReadBack => true
  | .validTurnFrameHeard frame => (decodeTurn frame).isSome
  | .validJoinFrameHeard frame => (decodeJoin frame).isSome
  | .garbledFrame => true
  | .joinWindowOpens => true
  | .joinWindowCloses => true
  | .joiningEntry => true
  | .muteTimerExpiry => true
  | .muteEnd => true
  | .isolationTimerExpiry => true
  | .peerLost station => 1 ≤ station && station ≤ 24
  | .orphanAcceptLimit _ => true
  | .offerUnanswered _ => true
  | .measurementArrival _ raw => rawFits raw.ma && rawFits raw.mb && rawFits raw.mc && rawFits raw.md
  | .sensorFault _ _ => true
  | .levelSteady _ level => level ≤ 4000
  | .moistureMade _ reading => reading ≤ 1000
  | .breakthrough _ => true
  | .flameFail _ => true
  | .powerLimitedTopUp _ => true
  | .turnerOverloadFault _ => true
  | .phaseDurationReached _ => true
  | .standTimeReached _ => true
  | .fillLimitReached _ => true
  | .settleEnd _ => true
  | .turnLimitReached _ => true
  | .blendWindowBegins _ => true
  | .blowerOnEdge _ => true
  | .blowerOffEdge _ => true
  | .airRestEdge _ => true
  | .sprayIntervalEdge _ => true
  | .gatePulseEnd _ => true
  | .travelEnd => true
  | .turnerTurnDone => true
  | .loadPhase channel record => channel ≤ 5 && record.fits
  | .hold channel => channel ≤ 5
  | .release channel => channel ≤ 5
  | .setStep channel _ => channel ≤ 5
  | .clearHalt channel => channel ≤ 5
  | .channelReset channel => channel ≤ 5
  | .withdrawOffer channel => channel ≤ 5
  | .discard channel _ => channel ≤ 5
  | .handGauge channel _ gauge _ => channel ≤ 5 && gauge < 16777216
  | .takeBook _ => true
  | .setRestartHold _ => true
  | .readStationStatus _ => true
  | .readChannelStatus channel => channel ≤ 5
  | .readPhaseRecord channel _ => channel ≤ 5
  | .readPieceRecord channel => channel ≤ 5
  | .readCompletionRecord channel index => channel ≤ 5 && index ≤ 3
  | .readClaimTableEntry index => index ≤ 127
  | .readPeerTable => true
  | .readBookEntry index => index ≤ 127
  | .readLineCounters => true
  | .readPieceCounters => true
  | .clearChanges _ => true
  | .setAttentionMask _ => true
  | .popEvent => true
  | .readFault => true
  | .badRequest bytes => (decodeRequest false bytes).isNone
  | .lineFrameStart => true

end Sys2Proof
end

