-- ==== Sys2Proof/Machine/State.lean ====
section
/-! DEFINITION. The state of the station, as plain data, and State.reset: the station right after a POWER_UP reset has
ended. Times are counts of ticks of 0.5 ms (log entry 1). -/

namespace Sys2Proof.Machine

/-! ## Timebase and Start-up Loader -/

/-- Timebase (R174): crystal-ready flag, the stabilization timer where it runs, and whether the crystal oscillator has
been started. Process time is taken from the crystal exactly while `ready` (R176). -/
structure Timebase where
  ready : Bool
  stab : Option Nat
  crystal : Bool
  deriving DecidableEq, Repr

/-- The two reset kinds (R189). -/
inductive ResetKind where
  | powerUp | pin
  deriving DecidableEq, Repr

/-- Start-up Loader (R189 to R192). -/
structure Loader where
  held : Bool
  loading : Bool
  loaded : Bool
  kind : ResetKind
  supply : Bool
  lastDigest : Option Word16
  image : List Byte
  hold : Bool
  deriving DecidableEq, Repr

/-! ## Line Controller and Peer Table -/

/-- Line states, in the order of section 1.2's table (R5). -/
inductive LineState where
  | unconfigured | clocking | listening | joining | member | mute
  deriving DecidableEq, Repr

/-- The seven marks of the round record (R11). -/
structure RoundRecord where
  notMember : Bool := false
  checkFailure : Bool := false
  adoption : Bool := false
  overflow : Bool := false
  dissent : Bool := false
  crystal : Bool := false
  isolation : Bool := false
  deriving DecidableEq, Repr

/-- The part of the round in progress: its turns, its join window with the time since it opened, or the time since the
window closed (R12, R15, R17). -/
inductive RoundPart where
  | turns
  | window (elapsed : Nat)
  | closed (since : Nat)
  deriving DecidableEq, Repr

/-- Where a frame on the line began (R16): within the round, in the join window, or in the opening position with the
time after the opening instant O (none before it). -/
inductive Position where
  | inRound
  | inWindow
  | opening (afterO : Option Nat)
  deriving DecidableEq, Repr

/-- A frame in progress on the line: the silence before it, where it began, and the last sender then. -/
structure FrameStart where
  silence : Nat
  position : Position
  lastSender : Option Nat
  deriving DecidableEq, Repr

/-- An own frame being sent, as it was built (R3). `turnerOk` is R40's TURNER condition when it was built. -/
inductive OwnFrame where
  | turn (frame : TurnFrame) (cold turnerOk : Bool)
  | join (frame : JoinFrame)
  deriving DecidableEq, Repr

/-- Line Controller (chapter 1). `turnTaken`: the own turn of the round has been taken or has passed (R15). `newcomers`:
the stations whose JOIN was heard in the round, which stand in no ladder of it (R17). -/
structure Line where
  state : LineState
  round : Word16
  clean : Bool
  record : RoundRecord
  dissenting : Bool
  aborts : Nat
  rounds : Nat
  openingHeard : Bool
  muteCount : Nat
  muteTimer : Option Nat
  coldWait : Option Nat
  coldDue : Bool
  isolation : Option Nat
  isolated : Bool
  sinceOpening : Option Nat
  roundPart : RoundPart
  lastSender : Option Nat
  silence : Nat
  onLine : Option FrameStart
  sending : Option OwnFrame
  overridden : Bool
  turnTaken : Bool
  newcomers : List Nat
  joinBlocked : Bool
  checkFailures : Nat
  ownAborted : Nat
  missedTurns : Nat
  deriving DecidableEq, Repr

/-- A Peer Table entry (R18). -/
structure Peer where
  present : Bool := false
  missed : Nat := 0
  home : Bool := false
  available : Bool := false
  change : Bool := false
  deriving DecidableEq, Repr

/-! ## Claims -/

/-- States of a Claim Table entry (R26). -/
inductive ClaimState where
  | waiting | holding | conflict
  deriving DecidableEq, Repr

/-- A Claim Table entry (R26). -/
structure ClaimEntry where
  station : Nat
  channel : Nat
  slot : Nat
  resource : Resource
  amount : Nat
  priority : Nat
  age : Nat
  state : ClaimState
  shed : Bool
  sheddable : Bool
  detail : Option Detail
  posted : Bool
  deriving DecidableEq, Repr

/-- Local states of an own claim (R28). -/
inductive LocalState where
  | asked | waiting | held
  deriving DecidableEq, Repr

/-- How the own frame in progress carries a claim (R32): not at all because it was asked or voided after the build,
left out by a DISSENTING frame, as WAIT, as HOLD of a held claim, as a take, as the base of a merge with the top-up in a
slot, or merged into its base. -/
inductive SentMark where
  | fresh
  | omitted
  | wait
  | hold
  | take
  | base (topUp : Nat)
  | merged
  deriving DecidableEq, Repr

/-- A claim of the Own Claim List (R28). `voided` is the channel's voided mark (R54); `restartAsk` marks a claim asked
from a restart list and not yet GRANTED (R194). -/
structure OwnClaim where
  channel : Fin 6
  slot : Nat
  resource : Resource
  amount : Nat
  priority : Nat
  sheddable : Bool
  shed : Bool
  age : Nat
  detail : Option Detail
  base : Option Nat
  state : LocalState
  voided : Bool
  restartAsk : Bool
  sent : SentMark
  deriving DecidableEq, Repr

/-- What a channel gives to ask a claim (R29). -/
structure Ask where
  resource : Resource
  amount : Nat
  priority : Nat
  sheddable : Bool
  detail : Option Detail
  base : Option Nat
  deriving DecidableEq, Repr

/-- A saved claim of a restart list (R189). -/
structure Saved where
  slot : Nat
  ask : Ask
  deriving DecidableEq, Repr

/-! ## Channels -/

/-- Channel states, in the order of section 3.2's table. -/
inductive ChState where
  | unused | idle | ready | running | paused | starved | halted
  deriving DecidableEq, Repr

/-- Pause reasons, in the order of R199. -/
inductive PauseReason where
  | panel | step | cleared | restart | offerUnanswered | offerDeclined | destLost | orphan
  deriving DecidableEq, Repr

/-- Resume states (R57, R193). -/
inductive Resume where
  | running | starved
  deriving DecidableEq, Repr

/-- Check reasons, in the order of R199. -/
inductive CheckReason where
  | afterFinal | firstPhase | noLot | noPrevious
  deriving DecidableEq, Repr

/-- Halt reasons of a channel, with the check reason or the input (R60). -/
inductive HaltReason where
  | inconsistent (c : CheckReason)
  | flameFail
  | sensor (i : Input)
  deriving DecidableEq, Repr

/-- End reasons, in the order of R199. -/
inductive EndReason where
  | time | breakthrough | gauged | turned | turnMissed | cast | sampled | stripped
  deriving DecidableEq, Repr

/-- The wait set (R54). -/
structure WaitSet where
  claim : Bool := false
  line : Bool := false
  gauge : Bool := false
  offer : Bool := false
  turn : Bool := false
  deriving DecidableEq, Repr

/-- Statistics of a phase (R71). Times in seconds, held amounts in unit-seconds. -/
structure Stats where
  minMA : Option Int := none
  maxMA : Option Int := none
  sumMA : Int := 0
  count : Nat := 0
  outside : Nat := 0
  waterHeld : Nat := 0
  powerHeld : Nat := 0
  waiting : Nat := 0
  sheds : Nat := 0
  deriving DecidableEq, Repr

/-- Completion flags (R72). -/
structure Flags where
  blendMissed : Bool := false
  noBreak : Bool := false
  fillLate : Bool := false
  orphanStart : Bool := false
  deriving DecidableEq, Repr

/-- A completion record (R72). -/
structure Completion where
  kind : PhaseKind
  reason : EndReason
  flags : Flags
  stats : Stats
  endSetpoint : Option Int
  piece : Option Word16
  round : Word16
  deriving DecidableEq, Repr

/-- The blend of a setpoint (R68): not begun, missed with no NEXT target, or moving since a phase time toward a target. -/
inductive Blend where
  | no
  | missed
  | moving (since : Nat) (target : Int)
  deriving DecidableEq, Repr

/-- Steps of the phases: a steep's (R77), a box's (R92) and a SAMPLE's (R115). -/
inductive Step where
  | filling | standing | draining | resting | steadying | captured | offering | casting | castEnded
  | settling | growing | asking | held | loading | loadEnded
  | gating | reading
  deriving DecidableEq, Repr

/-- A steady run (R84). -/
structure SteadyRun where
  first : Int := 0
  count : Nat := 0
  sum : Int := 0
  deriving DecidableEq, Repr

/-- One analogue input of the front end: its last good value, out-of-range count and faulted mark, and what the most
recent arrival delivered (R166, R169, R170). -/
structure InputState where
  lastGood : Option Int := none
  outCount : Nat := 0
  faulted : Bool := false
  value : Option Int := none
  replaced : Bool := false
  deriving DecidableEq, Repr

/-- Transfer states, in the order of section 7.2's table. -/
inductive XferState where
  | none | offering | suspended | accepted | ended | awaiting
  deriving DecidableEq, Repr

/-- A Transfer Unit (section 7.2). -/
structure Xfer where
  state : XferState := .none
  partner : Option Pair := none
  piece : Option Word16 := none
  loadout : Bool := false
  count : Nat := 0
  driveStarted : Bool := false
  acceptedOnce : Bool := false
  copy : Option Piece := none
  limit : Nat := 0
  deriving DecidableEq, Repr

/-- A Channel Controller with its Transfer Unit, its share of the front end and its kind's state. `restartKept` marks a
restart list whose own reset ended in an abandoned load or a bad image, which later resets keep (R189). -/
structure Channel where
  kind : Kind := .unused
  state : ChState := .unused
  pause : Option PauseReason := none
  resume : Option Resume := none
  halt : Option HaltReason := none
  wait : WaitSet := {}
  current : Option PhaseRecord := none
  started : Bool := false
  next : Option PhaseRecord := none
  timer : Nat := 0
  rampStart : Option Int := none
  rampDue : Bool := false
  setpoint : Option Int := none
  lastEnd : Option Int := none
  blend : Blend := .no
  due : Option EndReason := none
  stats : Stats := {}
  shedsAside : Nat := 0
  flags : Flags := {}
  records : List Completion := []
  stepFlag : Bool := false
  piece : Option Piece := none
  completedHere : Bool := false
  completed : Option PhaseRecord := none
  leftPiece : Option Word16 := none
  asksDue : List Ask := []
  discardPending : Bool := false
  restart : Option (List Saved) := none
  restartKept : Bool := false
  step : Option Step := none
  standMark : Option Nat := none
  blower : Option Nat := none
  blowerOn : Bool := false
  restEdges : Nat := 0
  steady : SteadyRun := {}
  captures : List EntryItem := []
  spray : Option Nat := none
  sprayOn : Bool := false
  limited : Nat := 0
  fanCommand : Nat := 0
  turnRound : Option Word16 := none
  lastAirOn : Option Int := none
  firing : Nat := 0
  peat : Bool := false
  flame : Nat := 0
  breakCount : Nat := 0
  gate : Nat := 0
  readings : List Int := []
  clock : Option Nat := none
  ma : InputState := {}
  mb : InputState := {}
  mc : InputState := {}
  mdValue : Option Int := none
  mdActive : Bool := false
  xfer : Xfer := {}
  deriving DecidableEq, Repr

/-! ## Turner Control -/

/-- Turner states (R105). -/
inductive TurnerState where
  | parked | powerWait | travelling | turning | faulted
  deriving DecidableEq, Repr

/-- A turn order (R105). -/
structure Order where
  box : Pair
  bay : Nat
  round : Word16
  deriving DecidableEq, Repr

/-- An item of one of the lists the own frame carries, with the mark that the frame in progress carries it. -/
structure Listed (α : Type) where
  item : α
  inFrame : Bool
  deriving DecidableEq, Repr

/-- Turner Control (R105). -/
structure Turner where
  state : TurnerState
  position : Option Nat
  order : Option Order
  timer : Nat
  overload : Nat
  turnends : List (Listed TurnendItem)
  available : Bool
  deriving DecidableEq, Repr

/-! ## Gauge Book -/

/-- An entry of the book (R148). -/
structure Entry where
  sequence : Seq
  span : Nat
  item : EntryItem
  round : Word16
  station : Nat
  deriving DecidableEq, Repr

/-- A pending own entry (R150). `capture` marks the capture of a phase in progress, which its read-back completes. -/
structure PendingEntry where
  item : EntryItem
  capture : Bool
  deriving DecidableEq, Repr

/-- The missed span (R156). -/
structure Missed where
  start : Seq
  count : Nat
  deriving DecidableEq, Repr

/-- Gauge Book (chapter 8), with the piece counters (R132) and the piece serial (R79). -/
structure Book where
  entries : List Entry
  count : Seq
  numbered : Bool
  pend : List PendingEntry
  missed : Option Missed
  waiting : List (Fin 6)
  startDue : Bool
  sample : Nat
  created : Nat
  received : Nat
  handed : Nat
  finished : Nat
  discarded : Nat
  serial : Nat
  deriving DecidableEq, Repr

/-! ## Panel Port -/

/-- Result codes, in the order of their codes 0 to 3 (R179). -/
inductive Result where
  | ok | refused | acceptedPending | badRequest
  deriving DecidableEq, Repr

/-- Refusal reasons, in the order of their codes from 1 (R199). -/
inductive Reason where
  | notInUse | turnerChannel | halted | kindNotValid | fieldMissing | outOfRange | queueFull | noPiece
  | notRunning | notPaused | alreadyPaused | notHalted | hasPiece | inTransfer | noOffer
  | discardPending | running | exciseLocked | dutyFixed | wrongStage | bookBusy | bookFull
  deriving DecidableEq, Repr

/-- The reply buffer (R178): the code of the request answered (0 for the empty reply), the result, the data bytes. -/
structure Reply where
  code : Byte
  result : Result
  data : List Byte
  deriving DecidableEq, Repr

/-- Event kinds, in the order of R199. -/
inductive EventKind where
  | phaseDone | paused | starved | halted | pieceIn | pieceOut | unconfirmedOut | offerDeclined | orphan
  | turnDone | gaugeTaken | shed | sensor | overrun
  deriving DecidableEq, Repr

/-- An event queue entry (section 10.4): the four value bytes as R199 lays them out. -/
structure Event where
  kind : EventKind
  channel : Option (Fin 6)
  piece : Option Word16
  round : Word16
  value : List Nat
  deriving DecidableEq, Repr

/-- Fault kinds, in the order of R186's table. -/
inductive FaultKind where
  | duplicateAddress | duplicateJoin | configDissent | claimConflict | tableOverflow | twoTurners | bookSkew
  | xtalLost | restart | configChanged
  deriving DecidableEq, Repr

/-- A held fault (R186). -/
structure FaultRecord where
  kind : FaultKind
  station : Option Nat
  channel : Option Nat
  round : Word16
  more : Bool
  deriving DecidableEq, Repr

/-- The attention mask (R183): a mark for each change flag. -/
structure Mask where
  peer : Bool := false
  lineState : Bool := false
  xtal : Bool := false
  bookFull : Bool := false
  fault : Bool := false
  event : Bool := false
  deriving DecidableEq, Repr

/-- Panel Port (chapter 10). PEER and EVENT follow the Peer Table and the queue and are not stored (R182). -/
structure Panel where
  reply : Reply
  lineState : Bool
  xtal : Bool
  bookFull : Bool
  fault : Bool
  mask : Mask
  events : List Event
  overflow : Nat
  record : Option FaultRecord
  deriving DecidableEq, Repr

/-! ## The station -/

/-- The whole state of the station. `free` counts the free values read (log entry 9); `pending` is the queue of waiting
commands. -/
structure State where
  tb : Timebase
  loader : Loader
  cfg : Settings
  line : Line
  peers : List Peer
  claims : List ClaimEntry
  own : List OwnClaim
  chans : Six Channel
  turner : Turner
  replies : List (Listed ReplyItem)
  castends : List (Listed CastendItem)
  book : Book
  panel : Panel
  elock : Bool
  free : Nat
  pending : List Instr
  deriving DecidableEq, Repr

/-- No event of the manual stops the station: there is no fault (safe: nothing is left out by it). -/
inductive Fault where
  deriving DecidableEq, Repr

/-- Reasons to give a command no meaning. -/
inductive Refusal where
  /-- Raised by an arm of exec whose command has no meaning yet; safe. No arm raises it. -/
  | notModelled (mnemonic : String)
  deriving DecidableEq, Repr

/-- The settings before the first good load. DESIGN CHOICE, log entry 6: the manual gives none. -/
def noSettings : Settings :=
  { address := 0, homeTurner := false, bays := Six.all 0, ratings := Six.all 0, water := 0, power := 0,
    roundPeriod := 0, travel := 0, turnTime := 0, turnerPower := 0, scales := Six.all 0,
    offsets := Six.all 0, cal := Six.all ⟨0, 0, 0, 0, 0, 0⟩, settingsDigest := 0#16,
    calibrationDigest := 0#16 }

/-- The Line Controller after either reset, but for the line counters (R24). -/
def Line.start : Line :=
  { state := .clocking, round := 0#16, clean := false, record := { notMember := true },
    dissenting := false, aborts := 0, rounds := 0, openingHeard := false, muteCount := 0,
    muteTimer := none, coldWait := none, coldDue := false, isolation := none, isolated := false,
    sinceOpening := none, roundPart := .turns, lastSender := none, silence := 0, onLine := none,
    sending := none, overridden := false, turnTaken := false, newcomers := [], joinBlocked := false,
    checkFailures := 0, ownAborted := 0, missedTurns := 0 }

/-- Turner Control after either reset (R113). -/
def Turner.start : Turner :=
  { state := .parked, position := none, order := none, timer := 0, overload := 0, turnends := [],
    available := true }

/-- The Gauge Book after a POWER_UP reset (R165, R132, R90). -/
def Book.start : Book :=
  { entries := [], count := 0#24, numbered := false, pend := [], missed := none, waiting := [],
    startDue := true, sample := 0, created := 0, received := 0, handed := 0, finished := 0,
    discarded := 0, serial := 0 }

/-- The empty reply (R178). -/
def Reply.empty : Reply := ⟨0#8, .ok, []⟩

/-- The Panel Port after either reset (R188), the fault record empty. -/
def Panel.start : Panel :=
  { reply := Reply.empty, lineState := false, xtal := false, bookFull := false, fault := false,
    mask := {}, events := [], overflow := 0, record := none }

/-- The Peer Table after either reset: 24 ABSENT entries (R24). -/
def noPeers : List Peer :=
  [{}, {}, {}, {}, {}, {}, {}, {}, {}, {}, {}, {}, {}, {}, {}, {}, {}, {}, {}, {}, {}, {}, {}, {}]

/-- The station right after a POWER_UP reset has ended: crystal started, load in progress (R189). -/
def State.reset : State :=
  { tb := { ready := false, stab := some 0, crystal := true },
    loader := { held := false, loading := true, loaded := false, kind := .powerUp, supply := true,
                lastDigest := none, image := [], hold := false },
    cfg := noSettings, line := Line.start, peers := noPeers, claims := [], own := [],
    chans := Six.all {}, turner := Turner.start, replies := [], castends := [], book := Book.start,
    panel := Panel.start, elock := false, free := 0, pending := [] }

end Sys2Proof.Machine
end

