-- ==== Sys2Proof/Machine/Ops.lean ====
section
/-! DEFINITION. The named operations shared by every block: ticks, channels, the event queue (R184), the fault record
(R186), line state (R23) and the Peer Table (R18). -/

namespace Sys2Proof.Machine

/-! ## Time -/

/-- Milliseconds in ticks of 0.5 ms. -/
def ms (n : Nat) : Nat := 2 * n

/-- Seconds in ticks. -/
def seconds (n : Nat) : Nat := 2000 * n

/-- Minutes in ticks. -/
def minutes (n : Nat) : Nat := 120000 * n

/-- The top of the phase timer, 245,700 s (R53). -/
def timerTop : Nat := seconds 245700

/-! ## Lists of the station -/

/-- The list with its element at `i` changed. -/
def modifyAt {α : Type} (f : α → α) : Nat → List α → List α
  | _, [] => []
  | 0, a :: r => f a :: r
  | n + 1, a :: r => a :: modifyAt f n r

/-- The sum of a list of numbers. -/
def total : List Nat → Nat
  | [] => 0
  | a :: r => a + total r

/-- A count raised by one and stopping at its top. -/
def raise (top n : Nat) : Nat := if n < top then n + 1 else n

/-! ## Channels -/

/-- The channel a byte names, if it is 0 to 5. -/
def chOf (n : Nat) : Option (Fin 6) := if h : n < 6 then some ⟨n, h⟩ else none

/-- The Channel Controller of channel `c`. -/
def State.ch (s : State) (c : Fin 6) : Channel := s.chans.get c

/-- The state with channel `c` replaced. -/
def State.setCh (s : State) (c : Fin 6) (x : Channel) : State := { s with chans := s.chans.set c x }

/-- The state with channel `c` changed. -/
def State.modCh (s : State) (c : Fin 6) (f : Channel → Channel) : State := s.setCh c (f (s.ch c))

/-- A reset is held or its configuration load has not ended (R189, R190). -/
def State.busy (s : State) : Bool := s.loader.held || s.loader.loading

/-- The channels run: no reset and no load in progress, and the image was good (R51, R166, R190). -/
def State.live (s : State) : Bool := !s.busy && (s.line.state != .unconfigured)

/-- The kind a channel shows: UNUSED while the station is UNCONFIGURED (R51, R190). -/
def State.kindOf (s : State) (c : Fin 6) : Kind :=
  if s.line.state = .unconfigured then .unused else (s.ch c).kind

/-- A kind whose channel follows the states of chapter 3. -/
def isVessel : Kind → Bool
  | .steep => true
  | .box => true
  | .kiln => true
  | .unused => false
  | .turner => false

/-- The channel has a running vessel: the station runs it and its kind is steep, box or kiln. -/
def State.vessel (s : State) (c : Fin 6) : Bool := s.live && isVessel (s.ch c).kind

/-- The phase kind of the started phase in CURRENT. -/
def Channel.phase (c : Channel) : Option PhaseKind :=
  if c.started then c.current.map (·.kind) else none

/-- The started phase in CURRENT is of kind `k`. -/
def Channel.inPhase (c : Channel) (k : PhaseKind) : Bool := c.phase == some k

/-- The TURNER channel of the station, if the image names one. -/
def State.turnerCh (s : State) : Option (Fin 6) :=
  channels.find? fun c => (s.ch c).kind == .turner

/-! ## Events and faults -/

/-- An event is queued (R184): stored, stored behind an OVERRUN entry, or counted as lost. -/
def Panel.queue (p : Panel) (round : Word16) (e : Event) : Panel :=
  if p.overflow = 0 then
    if p.events.length < 16 then { p with events := p.events ++ [e] }
    else { p with overflow := 1 }
  else if p.events.length + 2 ≤ 16 then
    { p with
      events := p.events
        ++ [{ kind := .overrun, channel := none, piece := none, round := round,
              value := [0, 0, 0, p.overflow] }, e]
      overflow := 0 }
  else { p with overflow := raise 255 p.overflow }

/-- Queues an event with the station's round number at the event (R73, R184). -/
def State.event (s : State) (kind : EventKind) (channel : Option (Fin 6)) (piece : Option Word16)
    (value : List Nat) : State :=
  let e : Event :=
    { kind := kind, channel := channel, piece := piece, round := s.line.round, value := value }
  { s with panel := s.panel.queue s.line.round e }

/-- Queues an event of channel `c`, which carries the id of the piece it holds or none (R73). -/
def State.chEvent (s : State) (c : Fin 6) (kind : EventKind) (value : List Nat) : State :=
  s.event kind (some c) ((s.ch c).piece.map (·.id)) value

/-- Records a fault with the round given (R186): MORE is set when one was held, and FAULT is set. -/
def State.faultAt (s : State) (kind : FaultKind) (station channel : Option Nat) (round : Word16) :
    State :=
  { s with panel :=
      { s.panel with
        record := some { kind := kind, station := station, channel := channel, round := round,
                         more := s.panel.record.isSome }
        fault := true } }

/-- Records a fault with the current round (R186). -/
def State.recordFault (s : State) (kind : FaultKind) (station channel : Option Nat) : State :=
  s.faultAt kind station channel s.line.round

/-! ## Line state -/

/-- The line state changes, which sets the LINE_STATE change flag (R23). -/
def State.setLine (s : State) (st : LineState) : State :=
  if s.line.state = st then s
  else { s with line := { s.line with state := st }, panel := { s.panel with lineState := true } }

/-- The line states in which the station hears the line (section 1.2). -/
def LineState.hears : LineState → Bool
  | .unconfigured => false
  | .clocking => false
  | .listening => true
  | .joining => true
  | .member => true
  | .mute => true

/-- The line is silent: no frame, own or other, is in progress. -/
def State.lineIdle (s : State) : Bool := s.line.onLine.isNone && s.line.sending.isNone

/-- A mark is set in the round record of the round in progress (R11). -/
def State.mark (s : State) (f : RoundRecord → RoundRecord) : State :=
  { s with line := { s.line with record := f s.line.record } }

/-! ## Peer Table -/

/-- The entry of address `a`, 1 to 24 (R18). -/
def State.peer (s : State) (a : Nat) : Peer := s.peers.getD (a - 1) {}

/-- The entry of address `a` changed. -/
def State.modPeer (s : State) (a : Nat) (f : Peer → Peer) : State :=
  { s with peers := modifyAt f (a - 1) s.peers }

/-- The addresses 1 to 24 in ascending order. -/
def addresses : List Nat :=
  [1, 2, 3, 4, 5, 6, 7, 8, 9, 10, 11, 12, 13, 14, 15, 16, 17, 18, 19, 20, 21, 22, 23, 24]

/-- The PRESENT stations in ascending order (R12). -/
def State.present (s : State) : List Nat := addresses.filter fun a => (s.peer a).present

/-- Some station other than this one is PRESENT (R22). -/
def State.othersPresent (s : State) : Bool := s.present.any fun a => a != s.cfg.address

/-- The silence ladder: the PRESENT stations above the last sender (R15). A station takes its place in it from the
opening of the round after its JOIN (R17). -/
def State.ladder (s : State) (last : Nat) : List Nat :=
  s.present.filter fun a => last < a && !s.line.newcomers.contains a

/-- Place of `a` in a ladder, counted from 0. -/
def placeOf (a : Nat) (l : List Nat) : Option Nat := l.findIdx? (· == a)

/-- R40's further condition on TURNER: exactly one PRESENT station advertises home-turner, and it is available. -/
def State.turnerOk (s : State) : Bool :=
  match s.present.filter fun a => (s.peer a).home with
  | [a] => (s.peer a).available
  | _ => false

/-- A MEMBER's isolation timer follows whether another station is PRESENT: it stops, with the isolated condition, when
none is, and starts when the first one becomes so (R22). -/
def State.followPeers (s : State) : State :=
  if s.line.state = .member then
    if s.othersPresent then
      match s.line.isolation with
      | some _ => s
      | none => { s with line := { s.line with isolation := some 0 } }
    else { s with line := { s.line with isolation := none, isolated := false } }
  else s

end Sys2Proof.Machine
end

