-- ==== Sys2Proof/Machine/Operands.lean ====
section
/-! DEFINITION. The arithmetic of values: rounding, measurement conversion (R167), gauges (R149), means (R71, R84,
R125), the setpoint ramp and blend (R67, R68), the fan law's demand (R95), and the ranges of a phase record (R63, R64). -/

namespace Sys2Proof.Machine

/-! ## Rounding -/

/-- `num / den` to the nearest whole number, a half rounding up; `den` above 0. -/
def roundUp (num den : Int) : Int := (2 * num + den) / (2 * den)

/-- `num / den` to the nearest whole number, a half rounding down; `den` above 0. -/
def roundDown (num den : Int) : Int := -roundUp (-num) den

/-- A value held between two bounds. -/
def clip (lo hi v : Int) : Int := if v < lo then lo else if hi < v then hi else v

/-- ⌈a / b⌉ for `b` above 0. -/
def ceilDiv (a b : Nat) : Nat := (a + b - 1) / b

/-! ## Measurements -/

/-- The quantity of a channel's analogue input (R167's table); none for an input the kind does not use (R168). -/
inductive Quantity where
  | temperature | level | moisture
  deriving DecidableEq, Repr

/-- The quantity of an input of a kind (R167, R168). -/
def quantityOf (k : Kind) (i : Input) : Option Quantity :=
  match k, i with
  | .steep, .ma => some .temperature
  | .steep, .mb => some .level
  | .steep, .mc => none
  | .box, .ma => some .temperature
  | .box, .mb => some .level
  | .box, .mc => some .temperature
  | .kiln, .ma => some .temperature
  | .kiln, .mb => some .temperature
  | .kiln, .mc => some .moisture
  | .turner, _ => none
  | .unused, _ => none

/-- low + (high − low) × (r − 1) / 4093, a half rounding up (R167). -/
def convertLine (low high : Int) (r : Nat) : Int :=
  roundUp (low * 4093 + (high - low) * ((r : Int) - 1)) 4093

/-- A reading converted by its quantity: the entries read in its unit, the result clipped to its range (R167). -/
def convertAs (q : Quantity) (low high r : Nat) : Int :=
  match q with
  | .temperature => clip (-500) 2000 (convertLine (signed16 low) (signed16 high) r)
  | .level => clip 0 4000 (convertLine low high r)
  | .moisture => clip 0 1000 (convertLine low high r)

/-- A reading brought off the rails: 0 as 1 and 4095 as 4094. -/
def offRails (r : Nat) : Nat := max 1 (min r 4094)

/-- A reading of an input its kind does not use: the same formula, no clipping (R168). A reading at a rail is taken as the
one beside it, so that the value lies between the entry's low and high values: DEDUCED, log entry 46. Whether the entry
is signed is the free value of log entry 9. -/
def convertUnused (low high r : Nat) : Int :=
  if Config.unusedEntrySigned then convertLine (signed16 low) (signed16 high) (offRails r)
  else convertLine low high (offRails r)

/-- The calibration entries of an input. -/
def calOf (cal : ChannelCal) (i : Input) : Nat × Nat :=
  match i with
  | .ma => (cal.maLow, cal.maHigh)
  | .mb => (cal.mbLow, cal.mbHigh)
  | .mc => (cal.mcLow, cal.mcHigh)

/-- A reading at either rail is out of range (R167). -/
def inRange (r : Nat) : Bool := 1 ≤ r && r ≤ 4094

/-- One analogue input at an arrival (R167, R168, R169): an input the kind uses is converted, or replaced by its last
good value with its out-of-range count raised; an unused input is converted as read. The faulted mark is R170's. -/
def sampleInput (k : Kind) (i : Input) (cal : ChannelCal) (r : Nat) (x : InputState) : InputState :=
  match quantityOf k i with
  | some q =>
    if inRange r then
      let v := convertAs q (calOf cal i).1 (calOf cal i).2 r
      { lastGood := some v, outCount := 0, faulted := false, value := some v, replaced := false }
    else
      { x with
        outCount := raise 3 x.outCount
        faulted := x.faulted || 3 ≤ raise 3 x.outCount
        value := x.lastGood
        replaced := true }
  | none => { x with value := some (convertUnused (calOf cal i).1 (calOf cal i).2 r), replaced := false }

/-! ## Gauges and means -/

/-- A mean level in mm as a gauge in 0.1 gu: L × scale + offset, a half rounding up, at least 0 (R149). -/
def gaugeOf (level scale : Nat) (offset : Int) : Nat :=
  (roundUp ((level : Int) * scale + 100 * offset) 100).toNat

/-- The mean of 10 values, a half rounding up (R84, R125). -/
def meanOfTen (sum : Int) : Int := roundUp sum 10

/-- The mean of MA in 0.1 °C (R71): the nearest value; where a half lies between two, the free value of log entry 9
says which. -/
def meanMA (sum : Int) (count : Nat) : Int :=
  if Config.meanTieUp sum count then roundUp sum count else roundDown sum count

/-! ## Setpoint -/

/-- `a + (b − a) × num / den`, rounded to the nearest 0.1 °C with a half rounding toward `t` (R67). -/
def moveBetween (a b t : Int) (num den : Nat) : Int :=
  let exact := (b - a) * (num : Int)
  if a * (den : Int) + exact ≤ t * (den : Int) then a + roundUp exact den else a + roundDown exact den

/-- The ramp of R67 at phase time `t`: from `S` to `T` over `ramp` minutes. -/
def rampAt (S T : Int) (ramp t : Nat) : Int :=
  if t < minutes ramp then moveBetween S T T t (minutes ramp) else T

/-- The blend of R68 at phase time `t`, begun at `t₀`: from `T` toward `T'` at the duration. -/
def blendAt (T T' : Int) (t₀ durationT t : Nat) : Int :=
  if t < durationT then moveBetween T T' T (t - t₀) (durationT - t₀) else T'

/-- The minute at which the blend window begins (R68): the later of d − r and r, none when it is at or past d. -/
def blendMinute (r : PhaseRecord) : Option Nat :=
  let b := max (r.duration - r.ramp) r.ramp
  if r.duration ≤ b then none else some b

/-! ## Fan -/

/-- The fan law's demand (R95): base + gain × (MA − setpoint) in whole per cent, a half rounding up, clipped to 0 to
100. The gain is in 0.1 % per °C and the temperatures in 0.1 °C. -/
def fanDemand (base gain : Nat) (ma setpoint : Int) : Nat :=
  (clip 0 100 (roundUp (100 * (base : Int) + (gain : Int) * (ma - setpoint)) 100)).toNat

/-- The kW a fan draws at `p` per cent (R50). -/
def fanDraw (p rating : Nat) : Nat := ceilDiv (p * rating) 100

/-- The largest whole percentage, up to 100, whose draw does not exceed the amount held (R50). -/
def fanCap (rating held : Nat) : Nat := if rating = 0 then 0 else min 100 (100 * held / rating)

/-! ## Phase records -/

/-- The phase kinds a channel kind takes (R64). -/
def kindAllowed (k : Kind) (p : PhaseKind) : Bool :=
  match k, p with
  | .steep, .wet => true
  | .steep, .air => true
  | .steep, .gauge => true
  | .steep, .cast => true
  | .box, .couch => true
  | .box, .grow => true
  | .box, .turn => true
  | .box, .loadout => true
  | .kiln, .load => true
  | .kiln, .dry => true
  | .kiln, .peat => true
  | .kiln, .cure => true
  | .kiln, .sample => true
  | .kiln, .strip => true
  | _, _ => false

/-- The final kinds (R64). -/
def isFinal : PhaseKind → Bool
  | .cast => true
  | .loadout => true
  | .strip => true
  | _ => false

/-- The kinds that use a target setpoint (R64). -/
def usesTarget : PhaseKind → Bool
  | .grow => true
  | .turn => true
  | .dry => true
  | .peat => true
  | .cure => true
  | .sample => true
  | _ => false

/-- The kinds in which the burner law runs (R117). -/
def burns : PhaseKind → Bool
  | .dry => true
  | .peat => true
  | .cure => true
  | .sample => true
  | _ => false

/-- The kinds in which the fan law runs (R95). -/
def fanLawKind : PhaseKind → Bool
  | .grow => true
  | .turn => true
  | _ => false

/-- The kiln kinds that ask the fan's POWER (R116). -/
def kilnFanKind : PhaseKind → Bool
  | .strip => true
  | k => burns k

/-- Every field R64 requires of the record's kind is present (R63 check 5). -/
def fieldsPresent (r : PhaseRecord) : Bool :=
  match r.kind with
  | .wet =>
    r.water.isSome && r.fillLevel.isSome && r.fillLimit.isSome
      && (r.blowerOn.isSome == r.blowerOff.isSome) && (r.blowerOn.isNone || r.power.isSome)
  | .air => r.power.isSome
  | .gauge => true
  | .cast => r.power.isSome && r.dest.isSome
  | .couch => r.settle.isSome
  | .grow =>
    r.target.isSome && r.power.isSome && r.fanBase.isSome && r.fanGain.isSome && r.sprayOn.isSome
      && (r.sprayOn.getD 0 == 0 || r.water.isSome)
  | .turn => r.target.isSome && r.power.isSome && r.fanBase.isSome && r.fanGain.isSome && r.turnLimit.isSome
  | .loadout => r.power.isSome && r.dest.isSome
  | .load => true
  | .dry => r.target.isSome && r.power.isSome && r.fanPercent.isSome && r.burnerMax.isSome
  | .peat => r.target.isSome && r.power.isSome && r.fanPercent.isSome && r.burnerMax.isSome
  | .cure => r.target.isSome && r.power.isSome && r.fanPercent.isSome && r.burnerMax.isSome
  | .sample => r.target.isSome && r.power.isSome && r.fanPercent.isSome && r.burnerMax.isSome
  | .strip => r.power.isSome && r.fanPercent.isSome

/-- An optional field lies in its range where present. -/
def optIn (lo hi : Nat) : Option Nat → Bool
  | some n => lo ≤ n && n ≤ hi
  | none => true

/-- Every present field lies in its range (R63 check 6; section 3.3's table and the kind chapters). A destination pair whose
station is not 1 to 24 or whose channel is 6 or 7 is decoded, and refused OUT_OF_RANGE here. DEDUCED, log entry 68. -/
def fieldsInRange (r : PhaseRecord) : Bool :=
  1 ≤ r.duration && r.duration ≤ 4095
    && (match r.target with
        | some t => -500 ≤ t && t ≤ 2000
        | none => true)
    && r.ramp ≤ 255 && r.priority ≤ 7 && optIn 1 255 r.water && optIn 1 255 r.power
    && 1 ≤ r.band && r.band ≤ 255
    && optIn 11 4000 r.fillLevel && optIn 1 255 r.fillLimit && optIn 1 255 r.blowerOn
    && optIn 1 255 r.blowerOff && optIn 1 65535 r.lot
    && (match r.dest with
        | some p => pairValid p
        | none => true)
    && optIn 1 255 r.settle && optIn 0 100 r.fanBase && optIn 0 255 r.fanGain && optIn 0 10 r.sprayOn
    && optIn 1 255 r.turnLimit && optIn 1 100 r.fanPercent && optIn 0 100 r.burnerMax
    && optIn 0 255 r.breakDelta

end Sys2Proof.Machine
end

