-- ==== Sys2Proof/Machine/Flags.lean ====
section
/-! DEFINITION. The flags: the change flags and ATTN (R182, R183), their byte of marks (section 12.2), and the marks of
the round record (R11). -/

namespace Sys2Proof.Machine

/-- PEER is set while any Peer Table entry has its change flag set (R182). -/
def State.peerFlag (s : State) : Bool := s.peers.any (·.change)

/-- EVENT is set while the event queue holds an entry (R182). -/
def State.eventFlag (s : State) : Bool := !s.panel.events.isEmpty

/-- The six change flags as they stand, in the shape of the mask (R182). -/
def State.changeFlags (s : State) : Mask :=
  { peer := s.peerFlag, lineState := s.panel.lineState, xtal := s.panel.xtal,
    bookFull := s.panel.bookFull, fault := s.panel.fault, event := s.eventFlag }

/-- ATTN: inactive from a reset until its load ends, then active while a flag that is not masked is set (R183). -/
def State.attn (s : State) : Bool :=
  let f := s.changeFlags
  let m := s.panel.mask
  !s.busy && ((f.peer && !m.peer) || (f.lineState && !m.lineState) || (f.xtal && !m.xtal)
    || (f.bookFull && !m.bookFull) || (f.fault && !m.fault) || (f.event && !m.event))

/-- The marks of a mask byte: PEER 0, LINE_STATE 1, XTAL 2, BOOK_FULL 3, FAULT 4, EVENT 5; bits 6 and 7 are ignored
(R198). -/
def maskOf (b : Byte) : Mask :=
  { peer := b.getLsbD 0, lineState := b.getLsbD 1, xtal := b.getLsbD 2, bookFull := b.getLsbD 3,
    fault := b.getLsbD 4, event := b.getLsbD 5 }

/-- A mask as its byte. -/
def maskByte (m : Mask) : Nat :=
  bit m.peer + bit m.lineState * 2 + bit m.xtal * 4 + bit m.bookFull * 8 + bit m.fault * 16
    + bit m.event * 32

/-- The flags marked in the mask are cleared: PEER with the entry change flags under it; the EVENT mark has no effect
(R182). -/
def State.clearFlags (s : State) (m : Mask) : State :=
  { s with
    peers := if m.peer then s.peers.map fun p => { p with change := false } else s.peers
    panel := { s.panel with
      lineState := s.panel.lineState && !m.lineState
      xtal := s.panel.xtal && !m.xtal
      bookFull := s.panel.bookFull && !m.bookFull
      fault := s.panel.fault && !m.fault } }

/-- No mark of a round record is set (R11). -/
def RoundRecord.unmarked (r : RoundRecord) : Bool :=
  !r.notMember && !r.checkFailure && !r.adoption && !r.overflow && !r.dissent && !r.crystal && !r.isolation

end Sys2Proof.Machine
end

