-- ==== Sys2Proof/Machine/Drives.lean ====
section
/-! DEFINITION. Holdings and drives: what a channel holds (R50), which record it drives by, the drive commands of each
kind, the gate (R49), forcing off (R173) and the outputs (R172). -/

namespace Sys2Proof.Machine

/-! ## Holdings -/

/-- The claims of channel `c`, in slot order (R28). -/
def State.claimsOf (s : State) (c : Fin 6) : List OwnClaim := s.own.filter fun o => o.channel == c

/-- The claims of channel `c` on resource `r`, in slot order. -/
def State.claimsOn (s : State) (c : Fin 6) (r : Resource) : List OwnClaim :=
  s.own.filter fun o => o.channel == c && o.resource == r

/-- The claim of channel `c` in a slot. -/
def State.ownAt (s : State) (c : Fin 6) (slot : Nat) : Option OwnClaim :=
  s.own.find? fun o => o.channel == c && o.slot == slot

/-- Channel `c` has a claim HELD on `r` (R49). -/
def State.hasHeld (s : State) (c : Fin 6) (r : Resource) : Bool :=
  s.own.any fun o => o.channel == c && o.resource == r && o.state == .held

/-- The channel's held amount on `r`: the sum over all its HELD claims on it (R50). -/
def State.heldAmount (s : State) (c : Fin 6) (r : Resource) : Nat :=
  total (((s.claimsOn c r).filter fun o => o.state == .held).map (·.amount))

/-- The fan cap of channel `c` (R50). -/
def State.cap (s : State) (c : Fin 6) : Nat := fanCap (s.cfg.ratings.get c) (s.heldAmount c .power)

/-! ## The record a channel drives by -/

/-- The pause is one taken from STARVED (R57). -/
def Channel.fromStarved (c : Channel) : Bool :=
  c.pause == some .panel && c.resume == some .starved

/-- The record by which the channel drives: the phase in progress, or the completed phase in STARVED, in PAUSED(STEP)
and in a pause from STARVED (R56, R88, R89, R95, R102, R129). None in PAUSED(CLEARED) and PAUSED(RESTART), in which
every drive is off (R61, R193). -/
def Channel.drivesBy (c : Channel) : Option PhaseRecord :=
  match c.state with
  | .running => if c.started then c.current else none
  | .starved => c.completed
  | .paused =>
    match c.pause with
    | some .cleared => none
    | some .restart => none
    | some .step => c.completed
    | _ => if c.fromStarved then c.completed else if c.started then c.current else none
  | .unused => none
  | .idle => none
  | .ready => none
  | .halted => none

/-- The kind of the record the channel drives by. -/
def Channel.drivesKind (c : Channel) : Option PhaseKind := c.drivesBy.map (·.kind)

/-! ## Drive commands -/

/-- The four drive commands of a channel: 0 or 1 for an on/off drive, 0 to 100 for a proportional one. -/
structure Drives where
  d0 : Nat
  d1 : Nat
  d2 : Nat
  d3 : Nat
  deriving DecidableEq, Repr

/-- A steep's commands (R76 to R89). -/
def steepCommand (c : Channel) : Drives :=
  { d0 := bit (c.state == .running && c.inPhase .wet && c.step == some .filling)
    d1 := bit (c.drivesKind == some .air && c.step == some .draining)
    d2 := bit (c.blower.isSome
      && ((c.drivesKind == some .wet && c.blowerOn) || c.drivesKind == some .air))
    d3 := bit (c.state == .running && c.step == some .casting) }

/-- A box's commands (R91 to R102). The spray does not run in a pause taken from STARVED (R102). -/
def boxCommand (c : Channel) : Drives :=
  { d0 := if (c.drivesKind.map fanLawKind).getD false then c.fanCommand else 0
    d1 := bit (c.drivesKind == some .grow && c.spray.isSome && c.sprayOn
      && !(c.state == .paused && c.fromStarved))
    d2 := bit (c.state == .running && c.step == some .loading)
    d3 := 0 }

/-- The fan command of a kiln: the fan percentage of the phase it drives by (R115, R129). STARVED after STRIP does not
exist, and LOAD drives nothing. -/
def kilnFanCommand (c : Channel) : Nat :=
  match c.drivesBy with
  | some r => if kilnFanKind r.kind then r.fanPercent.getD 0 else 0
  | none => 0

/-- A kiln's commands (R114 to R129). -/
def kilnCommand (c : Channel) : Drives :=
  { d0 := kilnFanCommand c
    d1 := c.firing
    d2 := bit c.peat
    d3 := bit (c.state == .running && c.inPhase .sample && c.step == some .gating) }

/-- The turner's commands (R105). -/
def turnerCommand (t : Turner) : Drives :=
  { d0 := bit (t.state == .travelling), d1 := bit (t.state == .turning), d2 := 0, d3 := 0 }

/-- The drive commands of channel `c`, by its kind (R172). They are off from a reset until the end of a good load, at
which the channels set them (R177, R193). -/
def State.command (s : State) (c : Fin 6) : Drives :=
  if s.live then
    match (s.ch c).kind with
    | .steep => steepCommand (s.ch c)
    | .box => boxCommand (s.ch c)
    | .kiln => kilnCommand (s.ch c)
    | .turner => turnerCommand s.turner
    | .unused => ⟨0, 0, 0, 0⟩
  else ⟨0, 0, 0, 0⟩

/-! ## Gate, forcing off, outputs -/

/-- The TURNER entry of an order is HOLDING in the station's Claim Table (R105). -/
def State.orderHolds (s : State) (o : Order) : Bool :=
  s.claims.any fun e =>
    e.station == o.box.station && e.channel == o.box.channel && e.resource == .turner
      && e.state == .holding

/-- The gate of the turner's drives: the POWER claim HELD and the order's entry HOLDING (R105). -/
def State.turnerGate (s : State) : Bool :=
  match s.turnerCh, s.turner.order with
  | some c, some o => s.hasHeld c .power && s.orderHolds o
  | _, _ => false

/-- A drive behind an on/off gate. -/
def gated (gate : Bool) (command : Nat) : Nat := if gate then command else 0

/-- A condition of R173 holds: a reset or its load, UNCONFIGURED, UNUSED, HALTED. -/
def State.forcedOff (s : State) (c : Fin 6) : Bool :=
  !s.live || (s.ch c).kind == .unused || (s.ch c).state == .halted

/-- The outputs of channel `c` (R172): forced off, or the command through the gate of its holdings (R49, R50). -/
def State.outputs (s : State) (c : Fin 6) : Drives :=
  let k := s.command c
  if s.forcedOff c then ⟨0, 0, 0, 0⟩
  else
    match (s.ch c).kind with
    | .steep =>
      { d0 := gated (s.hasHeld c .water) k.d0
        d1 := k.d1
        d2 := gated (s.hasHeld c .power) k.d2
        d3 := gated (s.hasHeld c .castway && s.hasHeld c .power) k.d3 }
    | .box =>
      { d0 := min k.d0 (s.cap c)
        d1 := gated (s.hasHeld c .water) k.d1
        d2 := gated (s.hasHeld c .loader && s.hasHeld c .power) k.d2
        d3 := k.d3 }
    | .kiln => { k with d0 := min k.d0 (s.cap c) }
    | .turner => { k with d0 := gated s.turnerGate k.d0, d1 := gated s.turnerGate k.d1 }
    | .unused => ⟨0, 0, 0, 0⟩

/-- The fan output of a kiln (R115). -/
def State.fanOutput (s : State) (c : Fin 6) : Nat := (s.outputs c).d0

/-- The cast drive is on: D3 of a steep, D2 of a box (R137). -/
def State.castDriveOn (s : State) (c : Fin 6) : Bool :=
  match (s.ch c).kind with
  | .steep => (s.outputs c).d3 != 0
  | .box => (s.outputs c).d2 != 0
  | .kiln => false
  | .turner => false
  | .unused => false

end Sys2Proof.Machine
end

