-- ==== Sys2Proof/Machine/OwnClaims.lean ====
section
/-! DEFINITION. The Own Claim List (section 2.3): asking, lowering, dropping and voiding, the reports to the channels
that follow (R54), and the shed point (R48). -/

namespace Sys2Proof.Machine

/-! ## The list -/

/-- Place of an own claim in the list order (R28). -/
def OwnClaim.key (o : OwnClaim) : Nat := o.channel.val * 3 + o.slot

/-- A claim put in its place in the list, over one of the same identity. -/
def insertOwn (o : OwnClaim) : List OwnClaim → List OwnClaim
  | [] => [o]
  | a :: r =>
    if o.key < a.key then o :: a :: r
    else if o.channel = a.channel ∧ o.slot = a.slot then o :: r
    else a :: insertOwn o r

/-- Slot `n` of channel `c` is free. -/
def State.slotFree (s : State) (c : Fin 6) (n : Nat) : Bool := (s.ownAt c n).isNone

/-- The lowest free slot of channel `c` (R29). -/
def State.freeSlot (s : State) (c : Fin 6) : Option Nat := [0, 1, 2].find? (s.slotFree c)

/-- A claim asked in a slot: local state ASKED, age 0, shed flag clear (R29). -/
def askedClaim (c : Fin 6) (slot : Nat) (a : Ask) : OwnClaim :=
  { channel := c, slot := slot, resource := a.resource, amount := a.amount, priority := a.priority,
    sheddable := a.sheddable, shed := false, age := 0, detail := a.detail, base := a.base,
    state := .asked, voided := false, restartAsk := false, sent := .fresh }

/-- The ask is placed in a slot. -/
def State.askAt (s : State) (c : Fin 6) (slot : Nat) (a : Ask) : State :=
  { s with own := insertOwn (askedClaim c slot a) s.own }

/-- The claim of a slot is changed in place. -/
def State.modOwn (s : State) (c : Fin 6) (slot : Nat) (f : OwnClaim → OwnClaim) : State :=
  { s with own := s.own.map fun o => if o.channel == c && o.slot == slot then f o else o }

/-! ## What the channel needs -/

/-- The kind of the phase in progress, or of the one completed until the next starts, whose waits the channel keeps in
STARVED and PAUSED(STEP) (R54). -/
def Channel.actingKind (h : Channel) : Option PhaseKind :=
  match h.phase with
  | some k => some k
  | none => h.completed.map (·.kind)

/-- The claim the phase cannot go on without is not HELD (R78, R83, R86, R101, R116). Of a POWER base and its top-up
either one HELD is enough. DEDUCED, log entry 43. -/
def State.kindNeeds (s : State) (c : Fin 6) : Bool :=
  let h := s.ch c
  match h.actingKind with
  | some .wet => h.step == some .filling && !s.hasHeld c .water
  | some .air => h.step == some .resting && !s.hasHeld c .power
  | some .cast => h.step == some .casting && !(s.hasHeld c .castway && s.hasHeld c .power)
  | some .loadout => h.step == some .loading && !(s.hasHeld c .loader && s.hasHeld c .power)
  | some k => kilnFanKind k && !s.hasHeld c .power
  | none => false

/-- A claim asked from the restart list on a resource other than TURNER has not yet been GRANTED or dropped (R194). -/
def State.restartNeeds (s : State) (c : Fin 6) : Bool :=
  (s.claimsOf c).any fun o => o.restartAsk && o.resource != .turner

/-- A claim of the channel has its voided mark set (R54). -/
def State.hasVoided (s : State) (c : Fin 6) : Bool := (s.claimsOf c).any (·.voided)

/-- LINE_WAIT ends with the last voided mark, CLAIM_WAIT when every claim it stands for is HELD or gone (R54, R194). -/
def State.followWaits (s : State) (c : Fin 6) : State :=
  s.modCh c fun h =>
    { h with wait :=
        { h.wait with
          line := h.wait.line && s.hasVoided c
          claim := h.wait.claim && (s.kindNeeds c || s.restartNeeds c) } }

/-- A kiln whose fan output is below 30 % has its fire and its peat feed out (R119). -/
def State.followFan (s : State) (c : Fin 6) : State :=
  if (s.ch c).kind = .kiln && s.fanOutput c < 30 then
    s.modCh c fun h => { h with firing := 0, peat := false }
  else s

/-- The drive-started mark is set at the first event at which the cast drive is on in ACCEPTED (R137). -/
def State.followCast (s : State) (c : Fin 6) : State :=
  if (s.ch c).xfer.state = .accepted && s.castDriveOn c then
    s.modCh c fun h => { h with xfer := { h.xfer with driveStarted := true } }
  else s

/-- What follows at a channel from a change of its claims or of its state. -/
def State.follow (s : State) (c : Fin 6) : State := ((s.followWaits c).followFan c).followCast c

/-! ## Asking, lowering, dropping -/

/-- A channel asks a claim; with no free slot the ask is refused and kept, to be repeated at its arrivals (R29). -/
def State.ask (s : State) (c : Fin 6) (a : Ask) : State :=
  match s.freeSlot c with
  | some n => s.askAt c n a
  | none => s.modCh c fun h => { h with asksDue := h.asksDue ++ [a] }

/-- The asks refused earlier are repeated, in order (R29); a channel in PAUSED(RESTART) asks no claims (R193). -/
def State.repeatAsks (s : State) (c : Fin 6) : State :=
  if (s.ch c).pause = some .restart then s
  else
    let due := (s.ch c).asksDue
    due.foldl (fun t a => t.ask c a) (s.modCh c fun h => { h with asksDue := [] })

/-- A claim is dropped: removed from the list (R30), with what follows at the channel. -/
def State.dropClaim (s : State) (c : Fin 6) (slot : Nat) : State :=
  ({ s with own := s.own.filter fun o => !(o.channel == c && o.slot == slot) } : State).follow c

/-- Every claim of the channel on a resource is dropped, and no refused ask on it is kept: the phase needs it no more
(R29, R30). -/
def State.dropOn (s : State) (c : Fin 6) (r : Resource) : State :=
  (({ s with own := s.own.filter fun o => !(o.channel == c && o.resource == r) } : State).modCh c
    fun h => { h with asksDue := h.asksDue.filter fun a => a.resource != r }).follow c

/-- Every claim of the channel is dropped (R60, R55), and no refused ask is kept. -/
def State.dropAll (s : State) (c : Fin 6) : State :=
  (({ s with own := s.own.filter fun o => o.channel != c } : State).modCh c
    fun h => { h with asksDue := [] }).follow c

/-- A claim is lowered in place, to at least 1 (R30). -/
def State.lowerClaim (s : State) (c : Fin 6) (slot amount : Nat) : State :=
  (s.modOwn c slot fun o => { o with amount := max 1 (min o.amount amount) }).follow c

/-! ## Posting and shedding -/

/-- An entry of a Claim Table is that of an own claim of the station at an address (R28). -/
def OwnClaim.names (o : OwnClaim) (address : Nat) (e : ClaimEntry) : Bool :=
  e.station == address && e.channel == o.channel.val && e.slot == o.slot

/-- The posted mark of an own claim: HELD, with the posted flag of its own entry set (R28). -/
def State.postedMark (s : State) (o : OwnClaim) : Bool :=
  o.state == .held && s.claims.any fun e => o.names s.cfg.address e && e.posted

/-- One shed is counted: in the phase in progress while RUNNING, else for the phase that starts next (R48, R71). -/
def State.countShed (s : State) (c : Fin 6) : State :=
  s.modCh c fun h =>
    if h.state = .running then { h with stats := { h.stats with sheds := raise 255 h.stats.sheds } }
    else { h with shedsAside := raise 255 h.shedsAside }

/-- A shed claim is dropped and asked again in the slot just freed with age 0; one shed is counted and a SHED event
queued (R48). -/
def State.shedOne (s : State) (c : Fin 6) (o : OwnClaim) : State :=
  let again : Ask :=
    { resource := o.resource, amount := o.amount, priority := o.priority, sheddable := o.sheddable,
      detail := o.detail, base := o.base }
  (((s.askAt c o.slot again).countShed c).chEvent c .shed [0, 0, 0, o.amount]).follow c

/-- The posted HELD claims of a channel on the resources given. -/
def State.postedOf (s : State) (c : Fin 6) (rs : List Resource) : List OwnClaim :=
  (s.claimsOf c).filter fun o => rs.contains o.resource && s.postedMark o

/-- The shed point of a channel for the claims on the resources given (R48), taken in slot order (DESIGN CHOICE, log
entry 49). -/
def State.shedPoint (s : State) (c : Fin 6) (rs : List Resource) : State :=
  (s.postedOf c rs).foldl (fun t o => t.shedOne c o) s

/-! ## Voiding -/

/-- What VOIDED sets at the channel of a claim: LINE_WAIT on a vessel (R54), the TURN's step ASKING for TURNER (R99),
CLAIM_WAIT for the POWER of an AIR in RESTING (R83), with the phase in progress alone (log entry 50). -/
def voidedAt (h : Channel) (r : Resource) : Channel :=
  if isVessel h.kind then
    let h1 := { h with wait := { h.wait with line := true } }
    if r = .turner && h.inPhase .turn then { h1 with step := some .asking }
    else if r = .power && h.inPhase .air && h.step == some .resting then
      { h1 with wait := { h1.wait with claim := true } }
    else h1
  else h

/-- A claim at a voiding: a HELD claim becomes WAITING with age 0 and its voided mark set (R33). -/
def voidClaim (o : OwnClaim) : OwnClaim :=
  if o.state = .held then { o with state := .waiting, age := 0, voided := true, sent := .fresh } else o

/-- The channel of each claim that was HELD is told VOIDED, in list order. -/
def State.tellVoided (s : State) (held : List OwnClaim) : State :=
  held.foldl (fun t o => (t.modCh o.channel fun h => voidedAt h o.resource).follow o.channel) s

/-- The holdings of the Own Claim List are voided, and the posted mark of each is cleared (R33). An entry whose claim
was dropped or shed before stands as it last stood, its flag with it (R30). -/
def State.voidHoldings (s : State) : State :=
  let held := s.own.filter fun o => o.state == .held
  ({ s with
      own := s.own.map voidClaim
      claims := s.claims.map fun e =>
        if held.any fun o => o.names s.cfg.address e then { e with posted := false } else e } : State).tellVoided held

/-- At a departure every claim of the list becomes ASKED, since the Claim Table is cleared (R33). -/
def State.allAsked (s : State) : State :=
  { s with own := s.own.map fun o => { o with state := .asked, sent := .fresh } }

end Sys2Proof.Machine
end

