-- ==== Sys2Proof/Machine/GaugeBook.lean ====
section
/-! DEFINITION. The Gauge Book (chapter 8): appending and the missed span (R152 to R156), TAKE_BOOK (R157), captures and
the wait list (R159, R160), and the duty basis (R161). -/

namespace Sys2Proof.Machine

/-- The capacity of the book (R148). -/
def bookSize : Nat := 128

/-- The free places of the book (R150). -/
def Book.free (b : Book) : Nat := bookSize - b.entries.length

/-! ## Appending -/

/-- An entry or GAP of the given span is appended, or counted into the missed span where the book is full; the count
rises by the span either way (R152, R156). That a missed span's count stops at 16,777,215 is DESIGN CHOICE, log entry
72. -/
def Book.append (b : Book) (item : EntryItem) (span : Nat) (round : Word16) (station : Nat) : Book :=
  if b.entries.length < bookSize then
    { b with
      entries := b.entries
        ++ [{ sequence := b.count, span := span, item := item, round := round, station := station }]
      count := b.count + BitVec.ofNat 24 span }
  else
    { b with
      missed :=
        (match b.missed with
         | none => some { start := b.count, count := span }
         | some m => some { m with count := min 16777215 (m.count + span) })
      count := b.count + BitVec.ofNat 24 span }

/-- Appends at the station: BOOK_FULL is set when the book comes to hold its 128th entry (R156). -/
def State.append (s : State) (item : EntryItem) (span : Nat) (round : Word16) (station : Nat) : State :=
  let b := s.book.append item span round station
  { s with
    book := b
    panel := { s.panel with
      bookFull := s.panel.bookFull || (s.book.entries.length < bookSize && b.entries.length == bookSize) } }

/-- A GAP carries no piece, channel, value or flag (R148). -/
def gapItem : EntryItem := { kind := .gap, channel := none, piece := none, value := .none }

/-- The frame's book count against the own count (R153): d = (count − own count) mod 2^24. -/
def State.compareCount (s : State) (count : Seq) (hasEntries : Bool) (sender : Nat) (round : Word16) : State :=
  let d := (count - s.book.count).toNat
  if d = 0 then s
  else if d ≤ 65535 then s.append gapItem d round s.cfg.address
  else if hasEntries then s.faultAt .bookSkew (some sender) none round
  else s

/-- An unnumbered station takes the first count it hears and sets its numbered mark (R152). -/
def State.numberBook (s : State) (count : Seq) : State :=
  if s.book.numbered then s else { s with book := { s.book with count := count, numbered := true } }

/-- The entries of a heard frame, after the comparison of its count (R153, R154). -/
def State.hearEntries (s : State) (count : Seq) (entries : List EntryItem) (sender : Nat)
    (round : Word16) : State :=
  entries.foldl (fun t e => t.append e 1 round sender)
    ((s.numberBook count).compareCount count (!entries.isEmpty) sender round)

/-! ## TAKE_BOOK -/

/-- TAKE_BOOK removes an entry: its distance from the oldest `o` is at most that of `s` (R157). -/
def removed (s o : Seq) (e : Entry) : Bool := (e.sequence - o).toNat ≤ (s - o).toNat

/-- The book after the removal of TAKE_BOOK (R157): nothing where `s` lies behind the oldest entry. -/
def Book.remove (b : Book) (s : Seq) : Book :=
  match b.entries with
  | [] => b
  | e :: _ =>
    if 8388608 ≤ (s - e.sequence).toNat then b
    else { b with entries := b.entries.filter fun x => !removed s e.sequence x }

/-- The freed places filled from the missed span by GAPs of at most 65535, oldest first, up to `n` of them (R157). -/
def fillGaps (round : Word16) (station : Nat) : Nat → Book → Book
  | 0, b => b
  | n + 1, b =>
    match b.missed with
    | none => b
    | some m =>
      if b.entries.length < bookSize then
        let span := min m.count 65535
        let gap : Entry :=
          { sequence := m.start, span := span, item := gapItem, round := round, station := station }
        fillGaps round station n
          { b with
            entries := b.entries ++ [gap]
            missed :=
              if m.count - span = 0 then none
              else some { start := m.start + BitVec.ofNat 24 span, count := m.count - span } }
      else b

/-! ## Captures -/

/-- The conditions under which the book takes an offer of a size, but for the wait list (R159). -/
def State.canTake (s : State) (size : Nat) : Bool :=
  s.line.clean && s.book.missed.isNone && s.book.pend.length + size ≤ 4
    && s.book.pend.length + size ≤ s.book.free

/-- Captures become pending in the order offered (R159). -/
def State.takeCaptures (s : State) (items : List EntryItem) : State :=
  { s with book := { s.book with pend := s.book.pend ++ items.map fun i => ⟨i, true⟩ } }

/-- A channel at the end of the wait list, which holds at most one offer of each (R159). -/
def joinList (l : List (Fin 6)) (c : Fin 6) : List (Fin 6) := if l.contains c then l else l ++ [c]

/-- A channel offers its captures: taken at once, or held by the channel with GAUGE_WAIT at the end of the wait list
(R159). -/
def State.offerCaptures (s : State) (c : Fin 6) (items : List EntryItem) : State :=
  if s.book.waiting.isEmpty && s.canTake items.length then s.takeCaptures items
  else
    ({ s with book := { s.book with waiting := joinList s.book.waiting c } } : State).modCh c fun h =>
      { h with captures := items, wait := { h.wait with gauge := true } }

/-- Offers are taken from the head of the wait list while the head meets the conditions (R159). -/
def serveList : List (Fin 6) → State → State
  | [], s => { s with book := { s.book with waiting := [] } }
  | c :: r, s =>
    if s.canTake (s.ch c).captures.length then
      serveList r ((s.takeCaptures (s.ch c).captures).modCh c fun h =>
        { h with captures := [], wait := { h.wait with gauge := false } })
    else { s with book := { s.book with waiting := c :: r } }

/-- The wait list is served (R159). -/
def State.serve (s : State) : State := serveList s.book.waiting s

/-- A halt or a discard takes the channel's held capture out of the wait list; a pending one stays, but no phase
completes at its read-back (R160). -/
def State.dropCaptures (s : State) (c : Fin 6) : State :=
  ({ s with book :=
      { s.book with
        waiting := s.book.waiting.filter fun d => d != c
        pend := s.book.pend.map fun p =>
          if p.item.channel = some c.val then { p with capture := false } else p } } : State).modCh c
    fun h => { h with captures := [], wait := { h.wait with gauge := false } }

/-! ## Gauges of a piece -/

/-- A gauged piece has a steep gauge, a couch gauge or a duty basis (R146). -/
def gauged (p : Piece) : Bool := p.steepGauge.isSome || p.couchGauge.isSome || p.duty.isSome

/-- The duty basis and its DEFICIENT flag (R161). -/
def dutyBasis (p : Piece) : Nat × Bool :=
  match p.steepGauge, p.couchGauge with
  | some a, some b => (max a b, false)
  | some a, none => (a, true)
  | none, some b => (b, true)
  | none, none => (0, true)

/-- The last gauge of a piece, the value of its DISCARD entry (R164). -/
def lastGauge (p : Piece) : Nat :=
  match p.duty, p.couchGauge, p.steepGauge with
  | some d, _, _ => d
  | none, some g, _ => g
  | none, none, some g => g
  | none, none, none => 0

/-- The book refuses a requested entry: BOOK_BUSY, then BOOK_FULL (R163 checks 8 and 9, R164). -/
def State.bookRefusal (s : State) : Option Reason :=
  if s.book.pend.length ≥ 4 || !s.book.waiting.isEmpty then some .bookBusy
  else if s.book.missed.isSome || s.book.free < s.book.pend.length + 1 then some .bookFull
  else none

/-- An entry is placed in the pending list by a request (R163, R164). -/
def State.placeEntry (s : State) (item : EntryItem) : State :=
  { s with book := { s.book with pend := s.book.pend ++ [⟨item, false⟩] } }

/-! ## Piece counters (R132) -/

/-- The created counter rises (R79). -/
def State.countCreated (s : State) : State :=
  { s with book := { s.book with created := raise 65535 s.book.created } }

/-- The received counter rises (R139, R142). -/
def State.countReceived (s : State) : State :=
  { s with book := { s.book with received := raise 65535 s.book.received } }

/-- The handed counter rises (R138). -/
def State.countHanded (s : State) : State :=
  { s with book := { s.book with handed := raise 65535 s.book.handed } }

/-- The finished counter rises (R128). -/
def State.countFinished (s : State) : State :=
  { s with book := { s.book with finished := raise 65535 s.book.finished } }

/-- The discarded counter rises (R147). -/
def State.countDiscarded (s : State) : State :=
  { s with book := { s.book with discarded := raise 65535 s.book.discarded } }

end Sys2Proof.Machine
end

