-- ==== Sys2Proof/Machine/TransferUnit.lean ====
section
/-! DEFINITION. The lists a station keeps for the line (R111, R135, R137) and the Transfer Unit's own changes of state
that need no phase machinery (R133, R140, R144). -/

namespace Sys2Proof.Machine

/-! ## Lists for the line -/

/-- The marked items of a list, which the frame in progress carries, are removed (R111, R135, R137). -/
def unsent {α : Type} (l : List (Listed α)) : List (Listed α) := l.filter fun x => !x.inFrame

/-- A new item, in no frame yet. -/
def newItem {α : Type} (a : α) : Listed α := ⟨a, false⟩

/-- Two replies answer one offer: the same source channel, destination channel and piece (R135). -/
def sameReply (a b : ReplyItem) : Bool :=
  a.source == b.source && a.channel == b.channel && a.id == b.id

/-- A reply placed in the reply list: over one for the same offer, else at the end, the oldest of eight making room
(R135). -/
def placeReply (r : ReplyItem) (l : List (Listed ReplyItem)) : List (Listed ReplyItem) :=
  if l.any fun x => sameReply x.item r then
    l.map fun x => if sameReply x.item r then newItem r else x
  else (if 8 ≤ l.length then l.drop 1 else l) ++ [newItem r]

/-- A CASTEND is CANCELLED. -/
def isCancelled (c : CastendItem) : Bool :=
  match c.outcome with
  | .complete _ => false
  | .cancelled _ => true

/-- The list without its oldest CANCELLED item. -/
def dropCancelled : List (Listed CastendItem) → List (Listed CastendItem)
  | [] => []
  | x :: r => if isCancelled x.item then r else x :: dropCancelled r

/-- A CASTEND placed in the CASTEND list: where it would be the seventh, the oldest CANCELLED makes room; a COMPLETE is
not removed (R137). With six COMPLETE items no room can be made and a CANCELLED is not placed (log entry 33). -/
def placeCastend (c : CastendItem) (l : List (Listed CastendItem)) : List (Listed CastendItem) :=
  if l.length < 6 then l ++ [newItem c]
  else
    let l' := dropCancelled l
    if l'.length < 6 then l' ++ [newItem c] else l

/-- A TURNEND placed in the pending TURNEND list: a fifth item removes the oldest (R111). -/
def placeTurnend (t : TurnendItem) (l : List (Listed TurnendItem)) : List (Listed TurnendItem) :=
  (if 4 ≤ l.length then l.drop 1 else l) ++ [newItem t]

/-- A reply is decided (R135). -/
def State.reply (s : State) (r : ReplyItem) : State := { s with replies := placeReply r s.replies }

/-- A CASTEND is placed (R137, R140). -/
def State.castend (s : State) (c : CastendItem) : State := { s with castends := placeCastend c s.castends }

/-! ## The unit -/

/-- The Transfer Unit of channel `c` changed. -/
def State.modXfer (s : State) (c : Fin 6) (f : Xfer → Xfer) : State :=
  s.modCh c fun h => { h with xfer := f h.xfer }

/-- The Transfer Unit enters NONE. -/
def State.endXfer (s : State) (c : Fin 6) : State := s.modXfer c fun _ => {}

/-- OFFER_WAIT set or cleared (R54). -/
def State.offerWait (s : State) (c : Fin 6) (b : Bool) : State :=
  s.modCh c fun h => { h with wait := { h.wait with offer := b } }

/-- CASTEND CANCELLED to the unit's partner for its piece (R140). -/
def State.cancelPartner (s : State) (c : Fin 6) : State :=
  match (s.ch c).xfer.partner, (s.ch c).xfer.piece with
  | some p, some id => s.castend { source := c.val, dest := p, outcome := .cancelled id }
  | _, _ => s

/-- An offer in OFFERING or SUSPENDED ends: OFFER_WAIT is cleared, CASTEND CANCELLED is placed when the accepted-once
mark is set, and the unit enters NONE (R141, R144, R147). -/
def State.endOffer (s : State) (c : Fin 6) : State :=
  let s1 := s.offerWait c false
  (if (s.ch c).xfer.acceptedOnce then s1.cancelPartner c else s1).endXfer c

/-- The unit at the start of a CAST or LOADOUT (R133), also over a unit still ENDED (DESIGN CHOICE, log entry 71). -/
def State.startOffer (s : State) (c : Fin 6) (r : PhaseRecord) : State :=
  (s.modXfer c fun _ =>
    { state := .offering, partner := r.dest, piece := (s.ch c).piece.map (·.id),
      loadout := r.kind == .loadout }).offerWait c true

/-- What a halt does to the unit (R144). -/
def State.xferHalted (s : State) (c : Fin 6) : State :=
  match (s.ch c).xfer.state with
  | .offering => s.endOffer c
  | .suspended => s.endOffer c
  | .none => s
  | .accepted => s
  | .ended => s
  | .awaiting => s

/-- CASTEND COMPLETE is placed with the content as it stands, and the unit enters ENDED (R137, R144). -/
def State.completeCast (s : State) (c : Fin 6) : State :=
  let s1 := s.modXfer c fun x => { x with state := .ended }
  match (s.ch c).xfer.partner, (s.ch c).piece with
  | some p, some piece => s1.castend { source := c.val, dest := p, outcome := .complete piece }
  | _, _ => s1

/-- The ids of the pieces held or awaited by the channels of the station (R79, R134). -/
def State.pieceIds (s : State) : List Word16 :=
  channels.flatMap fun c =>
    (match (s.ch c).piece with
     | some p => [p.id]
     | none => [])
    ++ (if (s.ch c).xfer.state = .awaiting then
          match (s.ch c).xfer.piece with
          | some id => [id]
          | none => []
        else [])

end Sys2Proof.Machine
end

