-- ==== Sys2Proof/Machine/Phases.lean ====
section
/-! DEFINITION. The phase machinery of chapter 3: start checks (R66), phase start (R53) with each kind's start
behaviour, claims across phases (R70), completion (R55), STARVED (R56), pause (R57), halt (R60). -/

namespace Sys2Proof.Machine

/-! ## Codes of the values events carry (R199) -/

/-- End reason codes. -/
def EndReason.code : EndReason → Nat
  | .time => 1
  | .breakthrough => 2
  | .gauged => 3
  | .turned => 4
  | .turnMissed => 5
  | .cast => 6
  | .sampled => 7
  | .stripped => 8

/-- Pause reason codes. -/
def PauseReason.code : PauseReason → Nat
  | .panel => 1
  | .step => 2
  | .cleared => 3
  | .restart => 4
  | .offerUnanswered => 5
  | .offerDeclined => 6
  | .destLost => 7
  | .orphan => 8

/-- Check reason codes. -/
def CheckReason.code : CheckReason → Nat
  | .afterFinal => 1
  | .firstPhase => 2
  | .noLot => 3
  | .noPrevious => 4

/-- Input codes (MD is 4). -/
def inputCode : Input → Nat
  | .ma => 1
  | .mb => 2
  | .mc => 3

/-- Halt reason codes; OVERLOAD, of the TURNER channel, is 4. -/
def HaltReason.code : HaltReason → Nat
  | .inconsistent _ => 1
  | .flameFail => 2
  | .sensor _ => 3

/-- The second byte of a halt: the check reason or the input. -/
def HaltReason.detail : HaltReason → Nat
  | .inconsistent c => c.code
  | .flameFail => 0
  | .sensor i => inputCode i

/-! ## Halt -/

/-- What a halt leaves of the channel's own state: timer stopped, wait set and due completion gone, the reason
recorded, clocks and counts of its kind stopped (R60, R77, R89, R92, R102, R129). The step stays. -/
def haltedChannel (h : Channel) (r : HaltReason) : Channel :=
  { h with
    state := .halted, pause := none, resume := none, halt := some r, wait := {}, due := none,
    completed := none, blower := none, blowerOn := false, restEdges := 0, steady := {}, spray := none,
    sprayOn := false, fanCommand := 0, firing := 0, peat := false, flame := 0, breakCount := 0,
    readings := [] }

/-- The states a halting cause takes effect in (R60). -/
def ChState.haltable : ChState → Bool
  | .idle => true
  | .ready => true
  | .running => true
  | .paused => true
  | .starved => true
  | .unused => false
  | .halted => false

/-- A channel becomes HALTED (R60): claims dropped, reason recorded, HALTED queued, the Transfer Unit and the Gauge
Book told (R144, R160). A HALTED channel is left as it is. -/
def State.halt (s : State) (c : Fin 6) (r : HaltReason) : State :=
  if (s.ch c).state.haltable then
    let s1 := s.modCh c fun h => haltedChannel h r
    let s2 := (s1.dropAll c).chEvent c .halted [r.code, r.detail, 0, 0]
    (s2.xferHalted c).dropCaptures c
  else s

/-! ## Pause -/

/-- What an entry to PAUSED does to the judgments of a channel (R57, R84, R121, R125, R129): the steady run and the
reading set are emptied, the breakthrough count becomes 0, and, but for STEP, the fire and the peat feed go out. -/
def pausedChannel (h : Channel) (reason : PauseReason) (resume : Option Resume) : Channel :=
  { h with
    state := .paused, pause := some reason, resume := resume,
    steady := if h.step == some .steadying then {} else h.steady
    readings := if h.step == some .reading then [] else h.readings
    breakCount := 0
    firing := if reason == .step then h.firing else 0
    peat := false }

/-- A channel enters PAUSED for a reason; a PAUSED event is queued (R57, R73). -/
def State.pause (s : State) (c : Fin 6) (reason : PauseReason) (resume : Option Resume) : State :=
  (s.modCh c fun h => pausedChannel h reason resume).chEvent c .paused [reason.code, 0, 0, 0]

/-! ## STARVED and IDLE -/

/-- The kind a STARVED event names: the completed phase's, else that of the newest completion record, else none
(log entry 20). -/
def starvedKind (h : Channel) : Nat :=
  match h.completed, h.records with
  | some r, _ => r.kind.code
  | none, r :: _ => r.kind.code
  | none, [] => 0

/-- A channel enters STARVED; a STARVED event is queued (R56). -/
def State.starve (s : State) (c : Fin 6) : State :=
  (s.modCh c fun h => { h with state := .starved, pause := none, resume := none }).chEvent c .starved
    [starvedKind (s.ch c), 0, 0, 0]

/-- A channel's own state when it becomes IDLE: nothing runs (R52, R77, R92), and no step is shown (DESIGN CHOICE, log
entry 62). -/
def idleChannel (h : Channel) : Channel :=
  { h with
    state := .idle, pause := none, resume := none, halt := none, wait := {}, current := none,
    started := false, next := none, due := none, completed := none, setpoint := none, step := none,
    standMark := none, blower := none, blowerOn := false, restEdges := 0, steady := {}, spray := none,
    sprayOn := false, limited := 0, fanCommand := 0, turnRound := none, firing := 0, peat := false,
    flame := 0, breakCount := 0, gate := 0, readings := [], asksDue := [] }

/-! ## Start checks (R66) -/

/-- The kinds that fit each piece state (R66's table). -/
def kindFits (h : Channel) (p : PhaseKind) : Bool :=
  match h.kind, h.piece.isSome, h.completedHere with
  | .steep, false, _ => p == .wet
  | .steep, true, _ => kindAllowed .steep p
  | .box, false, _ => false
  | .box, true, false => p == .couch
  | .box, true, true => kindAllowed .box p && p != .couch
  | .kiln, false, _ => false
  | .kiln, true, false => p == .load
  | .kiln, true, true => kindAllowed .kiln p && p != .load
  | .turner, _, _ => false
  | .unused, _, _ => false

/-- The first start check that fails (R66). -/
def startCheck (h : Channel) (r : PhaseRecord) (afterFinal : Bool) : Option CheckReason :=
  if afterFinal then some .afterFinal
  else if !kindFits h r.kind then some .firstPhase
  else if h.kind == .steep && h.piece.isNone && r.lot.isNone then some .noLot
  else if r.startMode == .cont && usesTarget r.kind && !h.completedHere then some .noPrevious
  else none

/-! ## Claims across phases (R69, R70) -/

/-- The sheddable flag a phase's claims take; a kiln's are never sheddable (R116). -/
def shedFlag (r : PhaseRecord) : Bool := if kilnFanKind r.kind then false else r.sheddable

/-- An ask of a phase on WATER or POWER. -/
def phaseAsk (r : PhaseRecord) (res : Resource) (amount : Nat) : Ask :=
  { resource := res, amount := amount, priority := r.priority, sheddable := shedFlag r, detail := none,
    base := none }

/-- The amount of WATER or POWER a phase asks at its start, none where it asks no claim on it (R78, R82, R97, R99,
R116). -/
def startAmount (r : PhaseRecord) (res : Resource) : Option Nat :=
  match res with
  | .water =>
    match r.kind with
    | .wet => r.water
    | .grow => if r.sprayOn.getD 0 = 0 then none else r.water
    | _ => none
  | .power =>
    match r.kind with
    | .air => r.power
    | .grow => r.power
    | .turn => r.power
    | k => if kilnFanKind k then r.power else none
  | .turner => none
  | .castway => none
  | .loader => none

/-- The claims of a channel are lowered by `e` in the order given: each is dropped where the lowering would take it
below 1 (R70). -/
def State.lowerBy (s : State) (c : Fin 6) : Nat → List OwnClaim → State
  | _, [] => s
  | e, o :: r =>
    if e = 0 then s
    else if e < o.amount then s.lowerClaim c o.slot (o.amount - e)
    else (s.dropClaim c o.slot).lowerBy c (e - o.amount) r

/-- A claim carried into the new phase takes its priority and sheddable flag at once (R70). The CLAIM_WAIT that a
restart rebuilt for its asks (R194) ends with the wait set that the start empties (R54), so the claim is a restart's no
more. -/
def State.retag (s : State) (c : Fin 6) (res : Resource) (r : PhaseRecord) : State :=
  { s with own := s.own.map fun o =>
      if o.channel == c && o.resource == res then
        { o with priority := r.priority, sheddable := shedFlag r, restartAsk := false }
      else o }

/-- The base first, then the top-ups: claims on one resource in slot order, base pointers last. -/
def basesFirst (l : List OwnClaim) : List OwnClaim :=
  (l.filter fun o => o.base.isNone) ++ (l.filter fun o => o.base.isSome)

/-- WATER or POWER at a phase start that asks it (R70): carried and raised by a top-up or lowered, or asked afresh. Of
two top-ups that of the higher slot is lowered or dropped first (DESIGN CHOICE, log entry 80). -/
def State.carry (s : State) (c : Fin 6) (r : PhaseRecord) (res : Resource) : State :=
  match startAmount r res with
  | none => s
  | some amount =>
    match basesFirst (s.claimsOn c res) with
    | [] => s.ask c (phaseAsk r res amount)
    | base :: rest =>
      let s1 := s.retag c res r
      let has := total ((base :: rest).map (·.amount))
      if amount < has then s1.lowerBy c (has - amount) (rest.reverse ++ [base])
      else if has < amount then
        s1.ask c { phaseAsk r res (amount - has) with base := some base.slot }
      else s1

/-- The resources whose claims a phase start drops (R70): those on which the new phase asks nothing at its start. -/
def droppedAtStart (r : PhaseRecord) : List Resource :=
  [.turner, .castway, .loader, .water, .power].filter fun res => (startAmount r res).isNone

/-- The claims of a channel at a phase start (R70): first every claim that is not carried is dropped, so that its slot
is free, then POWER is carried or asked, then WATER. The order is DESIGN CHOICE, log entry 40. -/
def State.carryClaims (s : State) (c : Fin 6) (r : PhaseRecord) : State :=
  let s0 := s.modCh c fun h => { h with asksDue := [] }
  let s1 := (droppedAtStart r).foldl (fun t res => t.dropOn c res) s0
  (s1.carry c r .power).carry c r .water

/-! ## Setpoint at the start (R67, R169) -/

/-- The ramp start value and the first running setpoint. Where MA has not arrived, both wait for it (R169). -/
def startSetpoint (h : Channel) (r : PhaseRecord) : Channel :=
  match (if usesTarget r.kind then r.target else none) with
  | none => { h with rampStart := none, rampDue := false, setpoint := none, blend := .no }
  | some t =>
    let from_ : Option Int :=
      match r.startMode with
      | .fresh => h.ma.value
      | .cont => match h.lastEnd with
        | some e => some e
        | none => h.ma.value
    match from_ with
    | some v => { h with rampStart := some v, rampDue := false, setpoint := some (rampAt v t r.ramp 0), blend := .no }
    | none => { h with rampStart := none, rampDue := true, setpoint := none, blend := .no }

/-- The running setpoint at the phase time that stands (R67, R68). -/
def setpointNow (h : Channel) : Option Int :=
  match h.current with
  | none => none
  | some r =>
    match (if usesTarget r.kind then r.target else none) with
    | none => none
    | some t =>
      match h.rampStart with
      | none => none
      | some v =>
        match h.blend with
        | .moving since t' => some (blendAt t t' since (minutes r.duration) h.timer)
        | .no => some (rampAt v t r.ramp h.timer)
        | .missed => some (rampAt v t r.ramp h.timer)

/-! ## Piece creation (R79) -/

/-- The first serial from `n` on whose id no piece of the station has; at most 12 are passed over. -/
def State.freeSerial (s : State) : Nat → Nat → Nat
  | 0, n => n % 2048
  | fuel + 1, n =>
    if s.pieceIds.contains (BitVec.ofNat 16 (s.cfg.address * 2048 + n % 2048)) then
      s.freeSerial fuel ((n + 1) % 2048)
    else n % 2048

/-- A steep creates its piece at the start of a WET (R79). -/
def State.createPiece (s : State) (c : Fin 6) (lot : Nat) : State :=
  let n := s.freeSerial 12 s.book.serial
  let p : Piece :=
    { id := BitVec.ofNat 16 (s.cfg.address * 2048 + n), lot := lot, stage := .steep }
  let s1 := ({ s with book := { s.book with serial := (n + 1) % 2048 } } : State).countCreated
  let s2 := s1.modCh c fun h => { h with piece := some p, completedHere := false, lastEnd := none }
  s2.chEvent c .pieceIn [1, lot / 256 % 256, lot % 256, 0]

/-! ## Phase start (R53) -/

/-- What every phase start sets in the channel (R53 steps 2 to 7, R54, R77, R92, R115). -/
def startedChannel (h : Channel) (r : PhaseRecord) (orphan : Bool) : Channel :=
  startSetpoint
    { h with
      state := .running, pause := none, resume := none, started := true, timer := 0,
      stats := { sheds := h.shedsAside }, shedsAside := 0, flags := { orphanStart := orphan },
      due := none, completed := none, wait := {}, step := none, standMark := none, blower := none,
      blowerOn := false, restEdges := 0, steady := {}, spray := none, sprayOn := false, limited := 0,
      turnRound := none, peat := false, flame := 0, breakCount := 0, gate := 0, readings := [],
      fanCommand := if fanLawKind r.kind then h.fanCommand else 0
      firing := if burns r.kind then min h.firing (r.burnerMax.getD 0) else 0 } r

/-- The kind's first step and clocks (R77, R92, R97, R125). -/
def kindStart (h : Channel) (r : PhaseRecord) : Channel :=
  match r.kind with
  | .wet => { h with step := some .filling }
  | .air => { h with step := some .draining }
  | .gauge => { h with step := some .steadying }
  | .cast => { h with step := some .offering }
  | .couch => { h with step := some .settling }
  | .grow => { h with step := some .growing, spray := some 0, sprayOn := r.sprayOn.getD 0 != 0 }
  | .turn => { h with step := some .asking, wait := { h.wait with turn := true } }
  | .loadout => { h with step := some .offering }
  | .load => h
  | .dry => h
  | .peat => h
  | .cure => h
  | .sample => { h with step := some .gating }
  | .strip => h

/-- CLAIM_WAIT at a start: a WET without WATER HELD (R78), a fan phase of a kiln without POWER HELD (R116). LINE_WAIT
again where a carried claim is voided (R54). -/
def State.startWaits (s : State) (c : Fin 6) : State :=
  s.modCh c fun h => { h with wait := { h.wait with claim := s.kindNeeds c, line := s.hasVoided c } }

/-- The claims and the Transfer Unit at the start of a phase, by its kind. -/
def State.startAsks (s : State) (c : Fin 6) (r : PhaseRecord) : State :=
  let s1 := s.carryClaims c r
  match r.kind with
  | .turn =>
    s1.ask c { resource := .turner, amount := 1, priority := r.priority, sheddable := r.sheddable,
               detail := some (.bay (s.cfg.bays.get c)), base := none }
  | .cast => s1.startOffer c r
  | .loadout => s1.startOffer c r
  | _ => s1

/-- A phase starts, or fails a start check and halts the channel (R53). A LOAD's completion at its start is left to
`State.startPhase`. -/
def State.begin (s : State) (c : Fin 6) (afterFinal orphan : Bool) : State :=
  match (s.ch c).current with
  | none => s
  | some r =>
    match startCheck (s.ch c) r afterFinal with
    | some reason => s.halt c (.inconsistent reason)
    | none =>
      let s1 := s.modCh c fun h => startedChannel h r orphan
      let s2 := if (s1.ch c).piece.isNone then s1.createPiece c (r.lot.getD 0) else s1
      let s3 := (s2.modCh c fun h => kindStart h r).startAsks c r
      (s3.startWaits c).follow c

/-! ## Completion (R55) -/

/-- The completion record of the phase in progress (R72). -/
def completionOf (h : Channel) (r : PhaseRecord) (reason : EndReason) (round : Word16) : Completion :=
  { kind := r.kind, reason := reason, flags := h.flags, stats := h.stats,
    endSetpoint := if usesTarget r.kind then h.setpoint else none
    piece := match h.piece with
      | some p => some p.id
      | none => h.leftPiece
    round := round }

/-- Steps 1 to 3 of a completion in the channel (R55): record kept (four at most), last end setpoint, phases count. -/
def recordedChannel (h : Channel) (r : PhaseRecord) (reason : EndReason) (round : Word16) : Channel :=
  { h with
    records := (completionOf h r reason round :: h.records).take 4
    lastEnd := if usesTarget r.kind then h.setpoint else none
    piece := h.piece.map fun p => { p with phases := raise 255 p.phases } }

/-- Step 5 of a completion: NEXT becomes CURRENT, not started (R55). The phase's refused asks go with it (R29), and its
TURN_WAIT, which stands until the phase completes (R99). The step stays as the completed phase left it until the next
start. DESIGN CHOICE, log entry 62. -/
def movedOn (h : Channel) (r : PhaseRecord) : Channel :=
  { h with
    current := h.next, next := none, started := false, completedHere := true, due := none,
    completed := some r, leftPiece := none, setpoint := none, peat := false, asksDue := []
    wait := { h.wait with turn := false } }

/-- A piece ends at its strip (R128). -/
def State.endPiece (s : State) (c : Fin 6) : State :=
  match (s.ch c).piece with
  | none => s
  | some p =>
    let s1 := (s.modCh c fun h => { h with piece := none, lastEnd := none }).countFinished
    s1.event .pieceOut (some c) (some p.id)
      (match p.duty with
       | some d => 1 :: bytes3 d
       | none => [2, 0, 0, 0])

/-- After a final phase: every claim dropped, a STRIP's piece ended, then IDLE, or a halt of the record left (R55). -/
def State.afterFinal (s : State) (c : Fin 6) (k : PhaseKind) : State :=
  let s1 := s.dropAll c
  let s2 := if k = .strip then s1.endPiece c else s1
  if (s2.ch c).current.isNone then s2.modCh c idleChannel else s2.begin c true false

/-- The phase in CURRENT completes (R55). -/
def State.complete (s : State) (c : Fin 6) (reason : EndReason) : State :=
  match (s.ch c).current with
  | none => s
  | some r =>
    let s1 := s.modCh c fun h => recordedChannel h r reason s.line.round
    let s2 := (s1.chEvent c .phaseDone [reason.code, 0, 0, 0]).modCh c fun h => movedOn h r
    if isFinal r.kind then s2.afterFinal c r.kind
    else if (s2.ch c).current.isNone then s2.starve c
    else if (s2.ch c).stepFlag then s2.pause c .step none
    else s2.begin c false false

/-- A cause of completion: the phase completes in RUNNING, and is due at RELEASE in PAUSED (R55). Of two causes in one
pause the first gives the end reason. DESIGN CHOICE, log entry 41. -/
def State.finish (s : State) (c : Fin 6) (reason : EndReason) : State :=
  match (s.ch c).state with
  | .running => s.complete c reason
  | .paused =>
    if (s.ch c).started && (s.ch c).due.isNone then
      s.modCh c fun h => { h with due := some reason }
    else s
  | .unused => s
  | .idle => s
  | .ready => s
  | .starved => s
  | .halted => s

/-- The record in CURRENT starts; a kiln's LOAD completes at its start with end reason CAST (R120). -/
def State.startPhase (s : State) (c : Fin 6) (orphan : Bool) : State :=
  let s1 := s.begin c false orphan
  if (s1.ch c).state = .running && (s1.ch c).inPhase .load then s1.complete c .cast else s1

end Sys2Proof.Machine
end

