-- ==== Sys2Proof/Machine/ClaimTable.lean ====
section
/-! DEFINITION. The Claim Table as pure operations on its entries (chapter 2): lookup and order (R26, R39), the lawful
take (R40), a standing list applied (R34 to R37, R42), the reports for the turner (R45) and the shed postings (R47). The
entries stand in ascending order of station, channel, slot, as READ returns them. -/

namespace Sys2Proof.Machine

/-! ## Lookup and order -/

/-- Place of an identity in the order of R26. -/
def claimKey (station channel slot : Nat) : Nat := station * 32 + channel * 4 + slot

/-- The place of an entry. -/
def ClaimEntry.key (e : ClaimEntry) : Nat := claimKey e.station e.channel e.slot

/-- The most entries the table holds (R26). -/
def claimRoom : Nat := 128

/-- The entry at a place. -/
def entryAt (t : List ClaimEntry) (k : Nat) : Option ClaimEntry := t.find? fun e => e.key == k

/-- The entry of an identity. -/
def claimAt (t : List ClaimEntry) (station channel slot : Nat) : Option ClaimEntry :=
  entryAt t (claimKey station channel slot)

/-- An entry put in its place, over one of the same identity. -/
def insertClaim (e : ClaimEntry) : List ClaimEntry → List ClaimEntry
  | [] => [e]
  | a :: r =>
    if e.key < a.key then e :: a :: r
    else if e.key = a.key then e :: r
    else a :: insertClaim e r

/-- The table without the entry of an identity. -/
def removeClaim (k : Nat) (t : List ClaimEntry) : List ClaimEntry := t.filter fun e => e.key != k

/-- The entry counts in the held sum of `r` (R27). -/
def ClaimEntry.holds (e : ClaimEntry) (r : Resource) : Bool := e.state == .holding && e.resource == r

/-- The entry waits for `r` (R39). -/
def ClaimEntry.waits (e : ClaimEntry) (r : Resource) : Bool := e.state == .waiting && e.resource == r

/-- The held sum of a resource (R27). -/
def heldSum (t : List ClaimEntry) (r : Resource) : Nat :=
  total ((t.filter fun e => e.holds r).map (·.amount))

/-- Whether `a` stands before `b`, by keys compared one after the other. -/
def firstLess : List (Nat × Nat) → Bool
  | [] => false
  | (a, b) :: r => a < b || (a == b && firstLess r)

/-- `a` stands before `b` in the waiter order (R39). -/
def ClaimEntry.ahead (a b : ClaimEntry) : Bool :=
  firstLess [(b.priority, a.priority), (b.age, a.age), (a.key, b.key)]

/-- The sum of the waiters ahead of `c` (R39, R40). -/
def aheadSum (t : List ClaimEntry) (c : ClaimEntry) : Nat :=
  total ((t.filter fun e => e.waits c.resource && e.key != c.key && e.ahead c).map (·.amount))

/-- The allowance of a resource (R25). -/
def allowance (cfg : Settings) (r : Resource) : Nat :=
  match r with
  | .water => cfg.water
  | .power => cfg.power
  | .turner => 1
  | .castway => 1
  | .loader => 1

/-- The take of `c` is lawful in the table (R40): its own entry is left out of the held sum, and TURNER asks for the
home station's flags too. -/
def lawful (cfg : Settings) (turnerOk : Bool) (t : List ClaimEntry) (c : ClaimEntry) : Bool :=
  heldSum (removeClaim c.key t) c.resource + aheadSum t c + c.amount ≤ allowance cfg c.resource
    && (c.resource != .turner || turnerOk)

/-! ## Reports for the turner (R45) -/

/-- What the table tells Turner Control: a TURNER entry stopped holding, or became HOLDING. -/
inductive TurnerReport where
  | stop (station channel : Nat)
  | hold (entry : ClaimEntry)
  deriving DecidableEq, Repr

/-- A HOLDING TURNER entry that goes is a stop. -/
def stopOf (e : ClaimEntry) : List TurnerReport :=
  if e.holds .turner then [.stop e.station e.channel] else []

/-- What the change of one identity's entry reports. -/
def changeOf (old : Option ClaimEntry) (new : ClaimEntry) : List TurnerReport :=
  let was := match old with
    | some e => e.holds .turner
    | none => false
  if new.holds .turner then (if was then [] else [.hold new])
  else (if was then [.stop new.station new.channel] else [])

/-! ## A standing list -/

/-- A table with what the applying of a list has reported so far: the turner's reports, the channels of new conflicts,
whether an item found no room. -/
structure Applied where
  table : List ClaimEntry
  reports : List TurnerReport
  conflicts : List Nat
  overflow : Bool
  deriving DecidableEq, Repr

/-- The entry an item makes, in a state (R35). -/
def entryOf (sender : Nat) (i : ClaimItem) (st : ClaimState) (posted : Bool) : ClaimEntry :=
  { station := sender, channel := i.channel, slot := i.slot, resource := i.resource,
    amount := i.amount, priority := i.priority, age := i.age, state := st, shed := i.shed,
    sheddable := i.sheddable, detail := i.detail, posted := posted }

/-- The place of the identity an item gives its entry. -/
def itemKey (sender : Nat) (i : ClaimItem) : Nat := claimKey sender i.channel i.slot

/-- The place of the identity an item merges into its own (R42). -/
def mergedKey (sender : Nat) (i : ClaimItem) : Option Nat := i.merged.map (claimKey sender i.channel)

/-- The list names the identity at a place (R34). -/
def namedBy (sender : Nat) (items : List ClaimItem) (k : Nat) : Bool :=
  items.any fun i => itemKey sender i == k

/-- The item is the list's first to merge the identity at a place, so that no top-up counts in two bases (log entry
15). -/
def firstMerging (sender : Nat) (items : List ClaimItem) (i : ClaimItem) (k : Nat) : Bool :=
  (items.find? fun j => mergedKey sender j == some k).map (itemKey sender) == some (itemKey sender i)

/-- The sender's top-up entry an item merges into its base, where both stood HOLDING on the item's resource before the
frame and the list gives the top-up no item of its own (R42). -/
def mergedTopUp (before : List ClaimEntry) (sender : Nat) (items : List ClaimItem) (i : ClaimItem) :
    Option ClaimEntry :=
  match mergedKey sender i with
  | none => none
  | some k =>
    match entryAt before (itemKey sender i), entryAt before k with
    | some b, some t =>
      if b.holds i.resource && t.holds i.resource && t.station == sender && !namedBy sender items k
          && firstMerging sender items i k then some t
      else none
    | _, _ => none

/-- The amount an entry of the sender stands at after the removal step: the base of a merge counts its top-up, so that
the held sum stays what it was before the frame (R42, R27; log entry 15). -/
def foldTopUp (before : List ClaimEntry) (sender : Nat) (items : List ClaimItem) (e : ClaimEntry) :
    ClaimEntry :=
  match items.find? fun i => itemKey sender i == e.key with
  | none => e
  | some i =>
    match mergedTopUp before sender items i with
    | some t => { e with amount := e.amount + t.amount }
    | none => e

/-- The sender's entry is kept by the removal step of R34. -/
def keptBy (sender : Nat) (items : List ClaimItem) (e : ClaimEntry) : Bool :=
  e.station != sender || namedBy sender items e.key

/-- The removal step (R34): every entry of the sender that no item names goes, a HOLDING one being a release. -/
def removalStep (sender : Nat) (items : List ClaimItem) (t : List ClaimEntry) : Applied :=
  { table := (t.filter (keptBy sender items)).map (foldTopUp t sender items)
    reports := (t.filter fun e => !keptBy sender items e).flatMap stopOf
    conflicts := []
    overflow := false }

/-- A HOLD that is a take (R35, R42): not of a HOLDING entry, or for more than it holds, or a merge whose two entries
were not both HOLDING. A merge for more than the two hold together, or of a top-up on another resource, is a take too,
so that R27 stands. DEDUCED, log entry 37. -/
def isTake (before : List ClaimEntry) (sender : Nat) (items : List ClaimItem) (i : ClaimItem)
    (old : Option ClaimEntry) : Bool :=
  match old with
  | none => true
  | some e =>
    e.state != .holding || e.amount < i.amount
      || (i.merged.isSome && (mergedTopUp before sender items i).isNone)

/-- The state an item gives its entry (R35, R37, R42). -/
def itemState (cfg : Settings) (turnerOk : Bool) (before : List ClaimEntry) (sender : Nat)
    (items : List ClaimItem) (t : List ClaimEntry) (i : ClaimItem) (old : Option ClaimEntry) :
    ClaimState :=
  if !i.hold then .waiting
  else if isTake before sender items i old then
    if lawful cfg turnerOk t (entryOf sender i .waiting false) then .holding else .conflict
  else .holding

/-- One item applied to the entry of its identity (R35, R36, R37). -/
def applyItem (cfg : Settings) (turnerOk : Bool) (before : List ClaimEntry) (sender : Nat)
    (items : List ClaimItem) (a : Applied) (i : ClaimItem) : Applied :=
  let found := claimAt a.table sender i.channel i.slot
  let other := match found with
    | some e => e.resource != i.resource
    | none => false
  let t := if other then removeClaim (claimKey sender i.channel i.slot) a.table else a.table
  let gone := if other then (match found with
    | some e => stopOf e
    | none => []) else []
  let old := if other then none else found
  if old.isNone && claimRoom ≤ t.length then
    { a with table := t, reports := a.reports ++ gone, overflow := true }
  else
    let st := itemState cfg turnerOk before sender items t i old
    let posted := st == .holding && (match old with
      | some e => e.posted
      | none => false)
    let was := match old with
      | some e => e.state == .conflict
      | none => false
    let new := entryOf sender i st posted
    { table := insertClaim new t
      reports := a.reports ++ gone ++ changeOf old new
      conflicts := if st == .conflict && !was then a.conflicts ++ [i.channel] else a.conflicts
      overflow := a.overflow }

/-- A sender's standing list applied to the table (R34). -/
def applyList (cfg : Settings) (turnerOk : Bool) (sender : Nat) (items : List ClaimItem)
    (t : List ClaimEntry) : Applied :=
  items.foldl (applyItem cfg turnerOk t sender items) (removalStep sender items t)

/-! ## Shed postings (R47) -/

/-- An element put in a list before the first one it stands before. -/
def insertBy {α : Type} (before : α → α → Bool) (x : α) : List α → List α
  | [] => [x]
  | a :: r => if before x a then x :: a :: r else a :: insertBy before x r

/-- A list put in an order. -/
def sortBy {α : Type} (before : α → α → Bool) : List α → List α
  | [] => []
  | a :: r => insertBy before a (sortBy before r)

/-- The shed waiter of a resource (R47 step 1). -/
def shedWaiter (t : List ClaimEntry) (r : Resource) : Option ClaimEntry :=
  (sortBy ClaimEntry.ahead (t.filter fun e => e.waits r && e.shed)).head?

/-- The victim order (R47 step 3): priority lowest, age youngest, then station, channel, slot highest. -/
def ClaimEntry.shedFirst (a b : ClaimEntry) : Bool :=
  firstLess [(a.priority, b.priority), (a.age, b.age), (b.key, a.key)]

/-- The candidates of a shed waiter in victim order (R47 step 3). -/
def candidates (t : List ClaimEntry) (w : ClaimEntry) : List ClaimEntry :=
  sortBy ClaimEntry.shedFirst
    (t.filter fun e => e.holds w.resource && e.sheddable && e.priority < w.priority)

/-- Candidates added one by one until they reach the need; none where all fall short (R47 step 4). -/
def victimsOf : Nat → List ClaimEntry → List ClaimEntry
  | _, [] => []
  | need, e :: r =>
    if need ≤ e.amount then [e]
    else match victimsOf (need - e.amount) r with
      | [] => []
      | v => e :: v

/-- The victims of a resource (R47). -/
def victims (cfg : Settings) (t : List ClaimEntry) (r : Resource) : List ClaimEntry :=
  match shedWaiter t r with
  | none => []
  | some w =>
    let want := heldSum t r + aheadSum t w + w.amount
    if want ≤ allowance cfg r then [] else victimsOf (want - allowance cfg r) (candidates t w)

/-- The posted flags after an evaluation of both resources (R47): the station's own HOLDING entries among the victims
have it, no other entry does. -/
def posted (cfg : Settings) (t : List ClaimEntry) : List ClaimEntry :=
  let v := (victims cfg t .water ++ victims cfg t .power).map (·.key)
  t.map fun e =>
    { e with posted := e.station == cfg.address && e.state == .holding && v.contains e.key }

end Sys2Proof.Machine
end

