-- ==== Sys2Proof/Machine/TurnerControl.lean ====
section
/-! DEFINITION. Turner Control (section 5.8) and the Claim Table's operations on the station: a list applied, expiry,
clearing, with the reports they make (R34, R43, R44, R45). -/

namespace Sys2Proof.Machine

/-! ## Turner Control -/

/-- Turner Control changed. -/
def State.modTurner (s : State) (f : Turner → Turner) : State := { s with turner := f s.turner }

/-- TURN_DONE with the TURNER channel's number and no piece (R112, R199). -/
def State.turnDone (s : State) (o : TurnOutcome) : State :=
  s.event .turnDone s.turnerCh none [o.code + 1, 0, 0, 0]

/-- A TURNEND placed in the pending TURNEND list (R111). -/
def State.turnend (s : State) (box : Pair) (o : TurnOutcome) (round : Word16) : State :=
  s.modTurner fun t =>
    { t with turnends := placeTurnend { box := box, outcome := o, round := round } t.turnends }

/-- The TURNEND of an order. -/
def State.orderEnd (s : State) (o : Order) (out : TurnOutcome) : State := s.turnend o.box out o.round

/-- The turner's POWER claim is dropped. -/
def State.dropTurner (s : State) : State :=
  match s.turnerCh with
  | some c => s.dropAll c
  | none => s

/-- The bay a detail names. -/
def bayOf : Option Detail → Nat
  | some (.bay n) => n
  | some (.dest _) => 0
  | none => 0

/-- The turner's ask of POWER (R105). -/
def turnerAsk (cfg : Settings) : Ask :=
  { resource := .power, amount := cfg.turnerPower, priority := 5, sheddable := false, detail := none,
    base := none }

/-- A TURNER entry became HOLDING (R106). -/
def State.turnerHolds (s : State) (e : ClaimEntry) : State :=
  match s.turnerCh with
  | none => s
  | some c =>
    match s.turner.state with
    | .parked =>
      (s.modTurner fun t =>
        { t with
          state := .powerWait
          order := some { box := ⟨e.station, e.channel⟩, bay := bayOf e.detail, round := s.line.round } }).ask
        c (turnerAsk s.cfg)
    | .faulted =>
      let s1 :=
        if (s.peer e.station).present then s.turnend ⟨e.station, e.channel⟩ .fault s.line.round else s
      s1.turnDone .fault
    | .powerWait => s
    | .travelling => s
    | .turning => s

/-- The movement that the turner's granted POWER starts (R107). -/
def startMove (cfg : Settings) (t : Turner) (o : Order) : Turner :=
  if t.position = some o.bay then
    { t with state := .turning, timer := seconds cfg.turnTime, overload := 0 }
  else
    let bays : Nat := match t.position with
      | some p => (p - o.bay) + (o.bay - p)
      | none => 32
    { t with state := .travelling, timer := seconds (bays * cfg.travel), overload := 0 }

/-- GRANTED for the turner's POWER claim (R107): the movement starts, or goes on from where it stood. -/
def State.turnerGranted (s : State) : State :=
  match s.turner.state, s.turner.order with
  | .powerWait, some o => s.modTurner fun t => startMove s.cfg t o
  | _, _ => s

/-- The turn of the order is abandoned (R109). The movement timer becomes 0: DESIGN CHOICE, log entry 44. -/
def State.abandon (s : State) (o : Order) : State :=
  let s1 := s.dropTurner
  let s2 := if (s1.peer o.box.station).present then s1.orderEnd o .abandoned else s1
  (s2.turnDone .abandoned).modTurner fun t =>
    { t with
      state := .parked, order := none, timer := 0,
      position := if t.state = .travelling then none
                  else if t.state = .turning then some o.bay
                  else t.position }

/-- A TURNER entry stopped holding (R109): the order's own ends the turn, another takes no action (R106). -/
def State.turnerStops (s : State) (station channel : Nat) : State :=
  match s.turner.order with
  | some o => if o.box = ⟨station, channel⟩ then s.abandon o else s
  | none => s

/-- One report of the Claim Table to Turner Control (R45); on a station that is not the home station it goes nowhere. -/
def State.report (s : State) (r : TurnerReport) : State :=
  if s.cfg.homeTurner then
    match r with
    | .stop station channel => s.turnerStops station channel
    | .hold e => s.turnerHolds e
  else s

/-- Reports in order. -/
def State.reportAll (s : State) (l : List TurnerReport) : State := l.foldl State.report s

/-- The travel is done (R107): the screws come on at the order's bay. -/
def State.travelDone (s : State) : State :=
  match s.turner.order with
  | some o =>
    s.modTurner fun t =>
      { t with state := .turning, position := some o.bay, timer := seconds s.cfg.turnTime }
  | none => s

/-- The turn is done (R108). -/
def State.turningDone (s : State) : State :=
  match s.turner.order with
  | some o =>
    let s1 := s.dropTurner.modTurner fun t => { t with position := some o.bay }
    ((s1.orderEnd o .ok).turnDone .ok).modTurner fun t =>
      { t with state := .parked, order := none, timer := 0 }
  | none => s

/-- The turner faults (R110). The movement timer becomes 0: DESIGN CHOICE, log entry 45. -/
def State.turnerFaults (s : State) : State :=
  match s.turner.order with
  | some o =>
    let s1 := s.dropTurner.orderEnd o .fault
    let s2 := s1.modTurner fun t =>
      { t with state := .faulted, position := none, order := none, timer := 0, available := false }
    (s2.turnDone .fault).event .halted s2.turnerCh none [4, 0, 0, 0]
  | none => s

/-! ## The Claim Table of the station -/

/-- The faults and marks a list's applying leaves (R36, R37): a CLAIM_CONFLICT for each new conflict, TABLE_OVERFLOW once
for the frame. That the conflicts come first, in item order, is DESIGN CHOICE, log entry 48. -/
def State.listFaults (s : State) (sender : Nat) (a : Applied) : State :=
  let s1 := a.conflicts.foldl (fun t c => t.recordFault .claimConflict (some sender) (some c)) s
  if a.overflow then
    (s1.mark fun r => { r with overflow := true }).recordFault .tableOverflow (some sender) none
  else s1

/-- A table taken as the station's, posted and reported (R34, R43, R45, R47). -/
def State.setClaims (s : State) (t : List ClaimEntry) (l : List TurnerReport) : State :=
  ({ s with claims := posted s.cfg t } : State).reportAll l

/-- A standing list is applied at the station (R34). `turnerOk` is R40's TURNER condition. -/
def State.applyClaims (s : State) (sender : Nat) (items : List ClaimItem) (turnerOk : Bool) : State :=
  let a := applyList s.cfg turnerOk sender items s.claims
  (s.listFaults sender a).setClaims a.table a.reports

/-- The entries of a lost station expire (R43). -/
def State.expireClaims (s : State) (station : Nat) : State :=
  s.setClaims (s.claims.filter fun e => e.station != station)
    ((s.claims.filter fun e => e.station == station).flatMap stopOf)

/-- The Claim Table is cleared (R44). -/
def State.clearClaims (s : State) : State :=
  ({ s with claims := [] } : State).reportAll (s.claims.flatMap stopOf)

end Sys2Proof.Machine
end

