-- ==== Sys2Proof/Machine/TransferItems.lean ====
section
/-! DEFINITION. What the items of a frame and the losses of stations do at the channels: offers (R134), replies (R136),
cast ends (R138 to R140), turn ends (R100), orphans and lost destinations (R142, R143), the discard (R147). -/

namespace Sys2Proof.Machine

/-- The channel of this station that a pair names, if it names one. -/
def State.localCh (s : State) (p : Pair) : Option (Fin 6) :=
  if p.station = s.cfg.address then chOf p.channel else none

/-! ## Offers (R134) -/

/-- The kind a transfer needs at its destination. -/
def neededKind (loadout : Bool) : Kind := if loadout then .kiln else .box

/-- The kind of record a destination must hold in CURRENT. -/
def firstKind (loadout : Bool) : PhaseKind := if loadout then .load else .couch

/-- Another channel of the station, the offering source excepted, holds the piece or awaits it (R134 check 4). -/
def State.hasElsewhere (s : State) (c : Fin 6) (sender : Nat) (o : OfferItem) : Bool :=
  channels.any fun d =>
    d != c && !(sender == s.cfg.address && o.source == d.val)
      && (((s.ch d).piece.map (·.id)) == some o.content.id
          || ((s.ch d).xfer.state == .awaiting && (s.ch d).xfer.piece == some o.content.id))

/-- The checks of R134 after the second, in order: the reason to decline, or none. -/
def State.declines (s : State) (c : Fin 6) (sender : Nat) (o : OfferItem) : Option DeclineReason :=
  let h := s.ch c
  if h.state = .halted then some .halted
  else if h.piece.isSome || s.hasElsewhere c sender o then some .hasPiece
  else if h.state != .ready || h.xfer.state == .awaiting then some .notReady
  else if (h.current.map (·.kind)) != some (firstKind o.loadout) then some .wrongKind
  else none

/-- The channel awaits this piece from this source (R134 check 2, R139, R140). -/
def Channel.awaits (h : Channel) (source : Pair) (id : Word16) : Bool :=
  h.xfer.state == .awaiting && h.xfer.partner == some source && h.xfer.piece == some id

/-- An OFFER item of a frame from `sender` is judged (R134). -/
def State.judgeOffer (s : State) (sender : Nat) (o : OfferItem) : State :=
  match s.localCh o.dest with
  | none => s
  | some c =>
    let source : Pair := ⟨sender, o.source⟩
    let answer (d : Option DeclineReason) : ReplyItem :=
      { channel := c.val, source := source, id := o.content.id, decline := d }
    if s.kindOf c ≠ neededKind o.loadout then s.reply (answer (some .wrongKind))
    else if (s.ch c).awaits source o.content.id then s.reply (answer none)
    else
      match s.declines c sender o with
      | some d => s.reply (answer (some d))
      | none =>
        (s.modXfer c fun _ =>
          { state := .awaiting, partner := some source, piece := some o.content.id,
            loadout := o.loadout, copy := some o.content }).reply (answer none)

/-! ## Replies (R136) -/

/-- The transfer claims of a CAST or LOADOUT (R86, R101): the exclusive one with the destination as its detail, then
POWER; neither is sheddable. -/
def transferAsks (r : PhaseRecord) (loadout : Bool) (dest : Pair) : List Ask :=
  [{ resource := if loadout then .loader else .castway, amount := 1, priority := r.priority,
     sheddable := false, detail := some (.dest dest), base := none },
   { resource := .power, amount := r.power.getD 0, priority := r.priority, sheddable := false,
     detail := none, base := none }]

/-- The step of a cast that runs. -/
def castStep (loadout : Bool) : Step := if loadout then .loading else .casting

/-- The transfer claims are asked, CLAIM_WAIT is set and the step is CASTING or LOADING (R86, R101, R195). -/
def State.askTransfer (s : State) (c : Fin 6) : State :=
  match (s.ch c).current, (s.ch c).xfer.partner with
  | some r, some dest =>
    let loadout := (s.ch c).xfer.loadout
    let s1 := s.modCh c fun h =>
      { h with step := some (castStep loadout), wait := { h.wait with claim := true } }
    (transferAsks r loadout dest).foldl (fun t a => t.ask c a) s1
  | _, _ => s

/-- An ACCEPT for the offer of channel `c` (R136). -/
def State.accepted (s : State) (c : Fin 6) : State :=
  let s1 := (s.modXfer c fun x =>
    { x with state := .accepted, acceptedOnce := true, driveStarted := false }).offerWait c false
  if (s.ch c).pause = some .restart then s1 else s1.askTransfer c

/-- Event code of a decline reason (R199). -/
def declineEvent (d : DeclineReason) : List Nat := [d.code, 0, 0, 0]

/-- A DECLINE for the offer of channel `c` (R136). -/
def State.declined (s : State) (c : Fin 6) (d : DeclineReason) : State :=
  let s1 := (s.modXfer c fun x => { x with state := .suspended }).offerWait c false
  let s2 := s1.chEvent c .offerDeclined (declineEvent d)
  if (s.ch c).state = .paused then
    s2.modCh c fun h => { h with pause := some .offerDeclined, resume := none }
  else s2.pause c .offerDeclined none

/-- The unit's offer is the one a reply answers (R136). -/
def Channel.offers (h : Channel) (dest : Pair) (id : Word16) : Bool :=
  h.xfer.state == .offering && h.xfer.piece == some id && h.xfer.partner == some dest

/-- An ACCEPT that finds no such transfer is answered with CASTEND CANCELLED (R136): NONE, SUSPENDED for the piece, or
any state for another piece. -/
def Channel.frees (h : Channel) (id : Word16) : Bool :=
  h.xfer.state == .none || h.xfer.piece != some id || h.xfer.state == .suspended

/-- A reply of a frame from `sender` is handled at its source (R136). -/
def State.handleReply (s : State) (sender : Nat) (r : ReplyItem) : State :=
  match s.localCh r.source with
  | none => s
  | some c =>
    let dest : Pair := ⟨sender, r.channel⟩
    if !isVessel (s.kindOf c) then s
    else if (s.ch c).offers dest r.id then
      match r.decline with
      | none => s.accepted c
      | some d => s.declined c d
    else if r.decline.isNone && (s.ch c).frees r.id then
      s.castend { source := c.val, dest := dest, outcome := .cancelled r.id }
    else s

/-! ## The arrival of a piece (R139) and orphans (R142) -/

/-- The piece an arrival creates from the content (R139 step 2). -/
def arrivedPiece (p : Piece) (loadout orphan : Bool) : Piece :=
  { p with stage := if loadout then .kiln else .box, orphan := orphan, unconfirmedOut := false }

/-- The piece comes to the channel: steps 1 to 4 of R139, and the unit enters NONE. -/
def State.placePiece (s : State) (c : Fin 6) (content : Piece) (orphan : Bool) : State :=
  let loadout := (s.ch c).xfer.loadout
  ((s.modCh c fun h =>
    { h with
      piece := some (arrivedPiece content loadout orphan), completedHere := false,
      lastEnd := none }).countReceived).endXfer c

/-- The state a channel without a phase takes with the piece that came to it: STARVED from IDLE, which holds no piece
(R52); HALTED and PAUSED stay (R139 step 7, R142 step 6). The IDLE case is DEDUCED, log entry 21. -/
def State.settlePiece (s : State) (c : Fin 6) : State :=
  match (s.ch c).state with
  | .idle => s.starve c
  | .unused => s
  | .ready => s
  | .running => s
  | .paused => s
  | .starved => s
  | .halted => s

/-- CASTEND COMPLETE for an AWAITING channel (R139). -/
def State.arrive (s : State) (c : Fin 6) (source : Pair) (content : Piece) : State :=
  let s1 := (s.placePiece c content false).chEvent c .pieceIn [2, pairByte source, 0, 0]
  if (s1.ch c).state = .ready then s1.startPhase c false else s1.settlePiece c

/-- The channel holds that piece with the ORPHAN flag (R139, R140). -/
def Channel.orphanOf (h : Channel) (id : Word16) : Bool :=
  match h.piece with
  | some p => p.id == id && p.orphan
  | none => false

/-- The piece of a channel changed. -/
def State.modPiece (s : State) (c : Fin 6) (f : Piece → Piece) : State :=
  s.modCh c fun h => { h with piece := h.piece.map f }

/-- A CASTEND of a frame from `sender` is handled at its destination (R139, R140). -/
def State.handleCastend (s : State) (sender : Nat) (x : CastendItem) : State :=
  match s.localCh x.dest with
  | none => s
  | some c =>
    let source : Pair := ⟨sender, x.source⟩
    match x.outcome with
    | .complete p =>
      if (s.ch c).awaits source p.id then s.arrive c source p
      else if (s.ch c).orphanOf p.id then
        (s.modPiece c fun q => { q with orphan := false }).chEvent c .orphan [3, 0, 0, 0]
      else s
    | .cancelled id =>
      if (s.ch c).awaits source id then s.endXfer c
      else if (s.ch c).orphanOf id then s.chEvent c .orphan [4, 0, 0, 0]
      else s

/-- The destination creates the piece without its cast end (R142); the value is SOURCE_LOST 1 or ACCEPT_LIMIT 2. -/
def State.makeOrphan (s : State) (c : Fin 6) (value : Nat) : State :=
  match (s.ch c).xfer.copy with
  | none => s
  | some p =>
    let s1 := (s.placePiece c p true).chEvent c .orphan [value, 0, 0, 0]
    if (s1.ch c).state = .ready then s1.pause c .orphan none else s1.settlePiece c

/-! ## The own CASTEND read back (R138) -/

/-- The channel holds the piece of an id. -/
def Channel.holds (h : Channel) (id : Word16) : Bool := (h.piece.map (·.id)) == some id

/-- The piece leaves the source at the read-back of its CASTEND COMPLETE (R138). The CAST or LOADOUT in progress
completes. A channel that a CLEAR_HALT and a RELEASE have made STARVED, or given another phase, keeps its state without
the piece, and no phase completes: DEDUCED, log entry 51. A second CAST or LOADOUT they have started by then completes,
and its offer ends, with OFFER_WAIT: DESIGN CHOICE, log entry 71. -/
def State.castRead (s : State) (x : CastendItem) : State :=
  match x.outcome, chOf x.source with
  | .complete p, some c =>
    if (s.ch c).holds p.id then
      let s1 := (s.modCh c fun h =>
        { h with piece := none, leftPiece := some p.id, lastEnd := none }).countHanded
      let kind : EventKind := match (s.ch c).piece with
        | some q => if q.unconfirmedOut then .unconfirmedOut else .pieceOut
        | none => .pieceOut
      let lead : Nat := if kind = .pieceOut then 3 else 0
      let s2 := s1.event kind (some c) (some p.id) [lead, pairByte x.dest, 0, 0]
      let s3 := (s2.endXfer c).offerWait c false
      if (s3.ch c).inPhase .cast || (s3.ch c).inPhase .loadout then s3.finish c .cast else s3
    else s
  | _, _ => s

/-! ## Losses (R142, R143) -/

/-- The loss of `station` at the Transfer Unit of channel `c`: an AWAITING destination makes an orphan (R142), an
ACCEPTED source goes back to its offer or marks the piece (R143). -/
def State.lossAt (s : State) (station : Nat) (c : Fin 6) : State :=
  let h := s.ch c
  if (h.xfer.partner.map (·.station)) = some station then
    match h.xfer.state with
    | .awaiting => s.makeOrphan c 1
    | .accepted =>
      if h.xfer.driveStarted then s.modPiece c fun p => { p with unconfirmedOut := true }
      else if h.state = .halted then (s.cancelPartner c).endXfer c
      else
        let s1 := (s.modCh c fun k => { k with step := some .offering }).dropAll c
        (s1.modXfer c fun x => { x with state := .suspended }).pause c .destLost none
    | .none => s
    | .offering => s
    | .suspended => s
    | .ended => s
  else s

/-- The loss of a station at the Transfer Units (R19), channel 0 to channel 5: the rules order neither the channels nor
their events. DESIGN CHOICE, log entry 81. -/
def State.lossAll (s : State) (station : Nat) : State :=
  channels.foldl (fun t c => t.lossAt station c) s

/-- The Peer Table hands over the loss of a station whose entry has become ABSENT (R19): Claim Table, then Transfer
Units; Turner Control acts on the reports of the expiry. -/
def State.lose (s : State) (station : Nat) : State := (s.expireClaims station).lossAll station

/-! ## Turn ends (R100) -/

/-- The channel accepts a TURNEND of an order round (R100). -/
def Channel.takesTurnend (h : Channel) (round : Word16) : Bool :=
  h.kind == .box && h.inPhase .turn && (h.state == .running || h.state == .paused)
    && (match h.turnRound with
        | some t => (round - t).toNat < 32768
        | none => false)

/-- A TURN ends: the TURNER claim is dropped, TURN_WAIT cleared, and the phase completes or its completion is due
(R100). -/
def State.turnEnds (s : State) (c : Fin 6) (reason : EndReason) : State :=
  ((s.dropOn c .turner).modCh c fun h => { h with wait := { h.wait with turn := false } }).finish c
    reason

/-- A TURNEND of a frame is delivered to the box channel it names (R100). -/
def State.handleTurnend (s : State) (t : TurnendItem) : State :=
  match s.localCh t.box with
  | none => s
  | some c =>
    if (s.ch c).takesTurnend t.round then
      s.turnEnds c (if t.outcome = .ok then .turned else .turnMissed)
    else s

/-! ## The discard (R147) -/

/-- The discard of a channel's piece is made (R147). An offer accepted while the DISCARD entry was on its way ends as
one that stands: DEDUCED from R140, log entry 54. -/
def State.discardPiece (s : State) (c : Fin 6) : State :=
  match (s.ch c).piece with
  | none => s
  | some p =>
    let s1 := (s.modCh c fun h => { h with piece := none, discardPending := false }).countDiscarded
    let s2 := s1.dropAll c
    let s3 := match (s2.ch c).xfer.state with
      | .offering => s2.endOffer c
      | .suspended => s2.endOffer c
      | .none => s2
      | .accepted => if (s2.ch c).xfer.driveStarted then s2 else s2.endOffer c
      | .ended => s2
      | .awaiting => s2
    let s4 := (s3.dropCaptures c).modCh c fun h => { idleChannel h with lastEnd := none }
    s4.event .pieceOut (some c) (some p.id) [4, 0, 0, 0]

end Sys2Proof.Machine
end

