-- ==== Sys2Proof/Machine/LineControl.lean ====
section
/-! DEFINITION. The Line Controller's own changes (chapter 1): the instants of a round (R12, R15, R17), entries into the
line states (R6, R7, R9), departure (R10), the round opening event (R13), charges and peers (R16 to R19), isolation (R22)
and own frames' ends. -/

namespace Sys2Proof.Machine

/-- The Line Controller changed. -/
def State.modLine (s : State) (f : Line → Line) : State := { s with line := f s.line }

/-! ## Instants of a round -/

/-- COLD_WAIT: 2000 ms + address × 20 ms (R7). -/
def State.coldLimit (s : State) : Nat := ms (2000 + s.cfg.address * 20)

/-- One ROUND_PERIOD in ticks. -/
def State.period (s : State) : Nat := ms s.cfg.roundPeriod

/-- One slot of a ladder, 3 ms (R12, R15). -/
def slot : Nat := ms 3

/-- The join window, 15 ms (R17). -/
def windowLength : Nat := ms 15

/-- The joiner's delay, 1 ms + address × 0.5 ms (R8). -/
def State.joinDelay (s : State) : Nat := ms 1 + s.cfg.address

/-- The time since the opening instant O, none before it or where no opening time is held (R12). -/
def State.afterO (s : State) : Option Nat :=
  match s.line.sinceOpening, s.line.roundPart with
  | some t, .closed since => if s.period ≤ t then some (min (t - s.period) since) else none
  | _, _ => none

/-- Where a frame that starts now begins (R16). Once the join window has been seen to close, a frame begins in the
opening position, also after CLOCKING where no opening has been heard yet. DEDUCED, log entry 36. -/
def State.position (s : State) : Position :=
  match s.line.roundPart with
  | .turns => .inRound
  | .window _ => .inWindow
  | .closed _ => .opening s.afterO

/-- A frame that starts now. -/
def State.frameStart (s : State) : FrameStart :=
  { silence := s.line.silence, position := s.position, lastSender := s.line.lastSender }

/-- A frame starts on the line: in the join window it keeps a joiner from sending (R8). -/
def State.startFrame (s : State) : State :=
  s.modLine fun l =>
    { l with
      onLine := some s.frameStart
      joinBlocked := l.joinBlocked || s.position == .inWindow }

/-! ## Join window -/

/-- The join window opens (R15). -/
def State.openWindow (s : State) : State :=
  s.modLine fun l => { l with roundPart := .window 0, joinBlocked := false }

/-- The join window closes (R17). -/
def State.closeWindow (s : State) : State := s.modLine fun l => { l with roundPart := .closed 0 }

/-- At the end of a frame the window closes when its 15 ms have passed (R17). -/
def State.windowAtEnd (s : State) : State :=
  match s.line.roundPart with
  | .window e => if windowLength ≤ e then s.closeWindow else s
  | .turns => s
  | .closed _ => s

/-- At the end of a TURN frame the window opens when no PRESENT station stands above the last sender (R15). -/
def State.windowAtTurn (s : State) : State :=
  match s.line.roundPart, s.line.lastSender with
  | .turns, some x => if (s.ladder x).isEmpty then s.openWindow else s
  | _, _ => s.windowAtEnd

/-- The sender stands at or above this station: the own turn of the round has passed (R15). -/
def State.passedBy (s : State) (x : Option Nat) : Bool :=
  match x with
  | some a => s.cfg.address ≤ a
  | none => false

/-- The last sender of the ladder is taken (R15). A turn that it passes is over for the round. -/
def State.takeSender (s : State) (x : Option Nat) : State :=
  (s.modLine fun l =>
    { l with lastSender := x, turnTaken := l.turnTaken || s.passedBy x }).windowAtTurn

/-- A station whose JOIN was heard takes its place in the ladder from the next round's opening (R17); a TURN frame of it
before then does not bring it in. DEDUCED, log entry 47. -/
def State.newcomer (s : State) (a : Nat) : State :=
  s.modLine fun l =>
    { l with newcomers := if l.newcomers.contains a then l.newcomers else l.newcomers ++ [a] }

/-! ## Marks and counters -/

/-- A check failure mark in the round record (R1, R2). -/
def State.markFailure (s : State) : State := s.mark fun r => { r with checkFailure := true }

/-- A line counter's top (R23). -/
def counterTop : Nat := 65535

/-! ## Entries into line states -/

/-- Entry into LISTENING (R6). -/
def State.enterListening (s : State) : State :=
  (s.modLine fun l =>
    { l with
      aborts := 0, rounds := 0, openingHeard := false, coldWait := some 0, coldDue := false,
      muteCount := 0, muteTimer := none }).setLine .listening

/-- Entry into JOINING: the wait for a valid frame starts again (R8). -/
def State.enterJoining (s : State) : State :=
  (s.modLine fun l => { l with coldWait := some 0, coldDue := false }).setLine .joining

/-- The own Peer Table entry becomes ABSENT at a departure, with its change flag (R10). -/
def State.ownAbsent (s : State) : State :=
  s.modPeer s.cfg.address fun p => { p with present := false, missed := 0, change := true }

/-- Departure from MEMBER (R10, R33, R44). The own entry is ABSENT before the turner judges the stop of its order
(R109 step 4). -/
def State.depart (s : State) : State :=
  let s1 := s.ownAbsent.clearClaims.voidHoldings.allAsked
  s1.modLine fun l =>
    { l with
      dissenting := false, isolation := none, isolated := false, clean := false,
      record := { l.record with notMember := true } }

/-- A MEMBER departs; a station in another line state does not. -/
def State.departIfMember (s : State) : State := if s.line.state = .member then s.depart else s

/-- Entry into MUTE (R9). -/
def State.enterMute (s : State) : State :=
  (s.departIfMember.modLine fun l =>
    { l with muteCount := 16, muteTimer := some 0, coldWait := none, coldDue := false }).setLine .mute

/-- The MUTE count falls by one and its timer restarts; at 0 the station enters LISTENING (R9). -/
def State.muteDown (s : State) : State :=
  if s.line.state = .mute then
    if s.line.muteCount ≤ 1 then s.enterListening
    else s.modLine fun l => { l with muteCount := l.muteCount - 1, muteTimer := some 0 }
  else s

/-- What CLOCKING holds of the line: no times, no frame, no counts in progress (R5, R12). -/
def State.dropLine (s : State) : State :=
  s.modLine fun l =>
    { l with
      rounds := 0, openingHeard := false, muteCount := 0, muteTimer := none, coldWait := none,
      coldDue := false, sinceOpening := none, roundPart := .turns, lastSender := none, silence := 0,
      onLine := none, sending := none, overridden := false, turnTaken := false, newcomers := [],
      joinBlocked := false }

/-- What CLOCKING leaves of the Claim Table, nothing: a MEMBER departs, and in any other line state the entries heard are
cleared (R10, R44). -/
def State.emptyTable (s : State) : State := if s.line.state = .member then s.depart else s.clearClaims

/-- Crystal loss at the line (R5): a MEMBER departs, the Claim Table is empty, every frame in progress is dropped. -/
def State.enterClocking (s : State) : State :=
  ((s.emptyTable.dropLine).mark fun r => { r with crystal := true }).setLine .clocking

/-- The station becomes MEMBER (R4, R7): own entry PRESENT, isolation timer started where another station is PRESENT. -/
def State.becomeMember (s : State) : State :=
  let s1 := s.modPeer s.cfg.address fun p =>
    { p with present := true, missed := 0, change := p.change || !p.present }
  ((s1.modLine fun l =>
    { l with coldWait := none, coldDue := false, isolation := none, isolated := false }).setLine
      .member).followPeers

/-! ## Peers -/

/-- The entry of a sender after a valid TURN frame (R18). -/
def heardPeer (p : Peer) (home available : Bool) : Peer :=
  { present := true, missed := 0, home := home, available := available
    change := p.change || !p.present || p.home != home || p.available != available }

/-- Another PRESENT station than `x` advertises home-turner (R18). -/
def State.otherHome (s : State) (x : Nat) : Bool := s.present.any fun y => y != x && (s.peer y).home

/-- A header goes to the Peer Table (R18), and TWO_TURNERS is judged. -/
def State.hearHeader (s : State) (f : TurnFrame) : State :=
  let s1 := s.modPeer f.sender fun p => heardPeer p f.home f.available
  (if f.home && s1.otherHome f.sender then s1.recordFault .twoTurners (some f.sender) none else s1).followPeers

/-- A lost entry (R19). -/
def lostPeer : Peer := { present := false, missed := 0, home := false, available := false, change := true }

/-- The count of a PRESENT station reaches 3: its entry becomes ABSENT and its loss is handed on (R19). -/
def State.losePeer (s : State) (a : Nat) : State :=
  ((s.modPeer a fun _ => lostPeer).followPeers).lose a

/-- One missed turn is charged; the own entry is not charged (R16, R19). -/
def State.charge (s : State) (a : Nat) : State :=
  if a = s.cfg.address || !(s.peer a).present then s
  else
    let s1 := s.modLine fun l => { l with missedTurns := raise counterTop l.missedTurns }
    if 2 ≤ (s.peer a).missed then s1.losePeer a
    else s1.modPeer a fun p => { p with missed := p.missed + 1 }

/-- Missed turns charged to the stations of one event, in the order of the ladder. That their losses are handed over in it
is DESIGN CHOICE, log entry 81. -/
def State.chargeAll (s : State) (l : List Nat) : State := l.foldl State.charge s

/-- The stations a valid TURN frame from `x` charges (R16). For a frame that overrode an own TURN frame the last sender is
the station itself, as the abort left it. DESIGN CHOICE, log entry 60. -/
def State.chargedBy (s : State) (x : Nat) (opening : Bool) : List Nat :=
  if opening then s.present.filter fun a => a < x
  else
    match s.line.lastSender with
    | some l => (s.ladder l).filter fun a => a < x
    | none => []

/-- A valid frame from another station ends isolation and restarts the timer (R22). -/
def State.heardOther (s : State) : State :=
  if s.line.state = .member then
    (s.modLine fun l => { l with isolation := some 0, isolated := false }).followPeers
  else s

/-! ## The round opening event (R13) -/

/-- Offer rounds are counted; the eighth suspends the offer (R133). -/
def State.offerUnanswered (s : State) (c : Fin 6) : State :=
  ((s.modXfer c fun x => { x with state := .suspended, count := 8 }).offerWait c false).pause c
    .offerUnanswered none

/-- The offer of a channel counts rounds: the unit is OFFERING and the channel RUNNING (R133). -/
def State.countsOffers (s : State) (c : Fin 6) : Bool :=
  (s.ch c).xfer.state == .offering && (s.ch c).state == .running

/-- One round at the Transfer Unit of a channel (R133). -/
def State.offerRound (s : State) (c : Fin 6) : State :=
  if s.countsOffers c then
    if 7 ≤ (s.ch c).xfer.count then s.offerUnanswered c
    else s.modXfer c fun x => { x with count := x.count + 1 }
  else s

/-- The blocks that count rounds (R13 step 4): own claims age (R38), offers count (R133), the wait list is served
(R159). The offers count from channel 0 to channel 5, and the PAUSED events of those that end are queued so: DESIGN
CHOICE, log entry 82. -/
def State.countRound (s : State) : State :=
  let s1 : State := { s with own := s.own.map fun o => { o with age := raise 4095 o.age } }
  (channels.foldl (fun t c => t.offerRound c) s1).serve

/-- The view is judged and a new round record started (R11). -/
def State.judgeView (s : State) : State :=
  s.modLine fun l =>
    { l with
      clean := l.record.unmarked
      record := { notMember := l.state != .member, dissent := l.dissenting, isolation := l.isolated } }

/-- Dissent is judged by an opener's digest (R21). -/
def State.judgeDissent (s : State) (opener : Nat) (digest : Word16) : State :=
  if s.line.state = .member then
    if digest = s.cfg.settingsDigest then s.modLine fun l => { l with dissenting := false }
    else if s.line.dissenting then s
    else
      (s.voidHoldings.modLine fun l => { l with dissenting := true }).recordFault .configDissent
        (some opener) none
  else s

/-- The round opening event (R13 steps 1 to 4), after dissent has been judged. -/
def State.openRound (s : State) : State :=
  let s1 := s.judgeView.modLine fun l =>
    { l with roundPart := .turns, turnTaken := false, newcomers := [], joinBlocked := false }
  s1.muteDown.countRound

/-- The first way: a MEMBER starts to send an opening frame; it agrees with itself (R21). -/
def State.ownOpening (s : State) : State :=
  (s.modLine fun l => { l with round := l.round + 1, dissenting := false }).openRound

/-- The second way: a valid opening frame ends. A carried number that differs from the expected one is adopted, with the
mark in the new record (R13, R14). -/
def State.heardOpening (s : State) (f : TurnFrame) : State :=
  let expected := s.line.round + 1
  let s1 := (s.modLine fun l => { l with round := f.round }).judgeDissent f.sender f.digest
  if f.round = expected then s1.openRound else s1.openRound.mark fun r => { r with adoption := true }

/-- The third way: a garbled frame in the opening position ends. -/
def State.garbledOpening (s : State) : State := (s.modLine fun l => { l with round := l.round + 1 }).openRound

/-- The round number of a TURN frame that is no opening is compared (R14). -/
def State.compareRound (s : State) (round : Word16) : State :=
  if round = s.line.round then s
  else (s.modLine fun l => { l with round := round }).mark fun r => { r with adoption := true }

/-- A valid opening frame heard in LISTENING counts rounds (R6); the second complete one makes the station JOINING. -/
def State.countComplete (s : State) : State :=
  if s.line.openingHeard then
    if 1 ≤ s.line.rounds then (s.modLine fun l => { l with rounds := 2 }).enterJoining
    else s.modLine fun l => { l with rounds := l.rounds + 1 }
  else s.modLine fun l => { l with openingHeard := true }

/-- The opening time becomes the end of a frame that ends now (R13 step 5). -/
def State.openingTime (s : State) : State := s.modLine fun l => { l with sinceOpening := some 0 }

/-! ## Isolation -/

/-- The isolation timer expires (R22). -/
def State.isolate (s : State) : State :=
  (s.voidHoldings.modLine fun l => { l with isolated := true, isolation := some 0 }).mark fun r =>
    { r with isolation := true }

end Sys2Proof.Machine
end

