-- ==== Sys2Proof/Machine/Frames.lean ====
section
/-! DEFINITION. Frames sent and heard: an own frame built (R3, R31, R46, R150) and started, aborted (R1) or read back
(R4, R7, R32, R151); a valid frame heard (R2, R17, R20) and a garbled one (R2, R13, R16). -/

namespace Sys2Proof.Machine

/-! ## Claim items of an own frame (R31, R41, R46) -/

/-- The top-up `t` and its base `b` can be sent merged (R41). -/
def mergeable (b t : OwnClaim) : Bool :=
  t.base == some b.slot && t.slot != b.slot && t.resource == b.resource && !b.resource.exclusive
    && b.state == .held && t.state == .held && b.amount + t.amount ≤ 255

/-- The base and top-up of channel `c` that the frame merges, one pair a frame: of the pairs that can merge that of the
lowest base slot, then of the lowest top-up slot; another waits for a later frame. DESIGN CHOICE, log entry 38. -/
def State.mergePair (s : State) (c : Fin 6) : Option (OwnClaim × OwnClaim) :=
  let l := s.claimsOf c
  (l.flatMap fun b => (l.filter fun t => mergeable b t).map fun t => (b, t)).head?

/-- The top-up merged into the claim by this frame. -/
def State.topUpOf (s : State) (o : OwnClaim) : Option OwnClaim :=
  match s.mergePair o.channel with
  | some (b, t) => if b.slot = o.slot then some t else none
  | none => none

/-- The claim is the top-up this frame merges: it has no item of its own. -/
def State.isMerged (s : State) (o : OwnClaim) : Bool :=
  match s.mergePair o.channel with
  | some (_, t) => t.slot == o.slot
  | none => false

/-- A claim's item before its take and its shed flag are judged. -/
def State.draftItem (s : State) (o : OwnClaim) : ClaimItem :=
  { channel := o.channel.val, slot := o.slot, hold := o.state == .held, resource := o.resource,
    amount := o.amount + (match s.topUpOf o with
      | some t => t.amount
      | none => 0)
    priority := o.priority, age := o.age, sheddable := o.sheddable, shed := false,
    detail := o.detail, merged := (s.topUpOf o).map (·.slot) }

/-- The view allows takes: CLEAN, and no isolation mark in the round in progress (R3, R31). -/
def State.mayTake (s : State) : Bool := s.line.clean && !s.line.record.isolation

/-- A claim's item at its point in the list (R31, R46): `a` is the table as the items before it leave it. -/
def State.judgeItem (s : State) (a : Applied) (o : OwnClaim) (d : ClaimItem) : ClaimItem :=
  let ok := lawful s.cfg s.turnerOk a.table (entryOf s.cfg.address d .waiting false)
  { d with
    hold := o.state == .held || (o.state == .waiting && s.mayTake && ok)
    shed := o.state != .held && (o.resource == .water || o.resource == .power) && 6 ≤ o.priority && !ok }

/-- The drafts and their claims, in list order, without merged top-ups. -/
def State.drafts (s : State) : List (OwnClaim × ClaimItem) :=
  (s.own.filter fun o => !s.isMerged o).map fun o => (o, s.draftItem o)

/-- One step of R31: the item is judged and applied to the table as it would stand. -/
def State.giveItem (s : State) (before : List ClaimEntry) (all : List ClaimItem)
    (acc : Applied × List ClaimItem) (x : OwnClaim × ClaimItem) : Applied × List ClaimItem :=
  let i := s.judgeItem acc.1 x.1 x.2
  (applyItem s.cfg s.turnerOk before s.cfg.address all acc.1 i, acc.2 ++ [i])

/-- The claim items of an own frame (R31); none from a DISSENTING station. -/
def State.claimItems (s : State) : List ClaimItem :=
  if s.line.dissenting then []
  else
    let all := s.drafts.map (·.2)
    (s.drafts.foldl (s.giveItem s.claims all) (removalStep s.cfg.address all s.claims, [])).2

/-- How the frame carries a claim (R32). -/
def State.sentMark (s : State) (items : List ClaimItem) (o : OwnClaim) : SentMark :=
  if s.line.dissenting then .omitted
  else if s.isMerged o then .merged
  else
    match s.topUpOf o with
    | some t => .base t.slot
    | none =>
      if o.state = .held then .hold
      else if items.any fun i => i.channel == o.channel.val && i.slot == o.slot && i.hold then .take
      else .wait

/-! ## The other items (R3, R133, R135, R137, R150) -/

/-- The OFFER items, in ascending source channel (R133). -/
def State.offerItems (s : State) : List OfferItem :=
  channels.filterMap fun c =>
    match (s.ch c).xfer.state, (s.ch c).xfer.partner, (s.ch c).piece with
    | .offering, some d, some p =>
      some { source := c.val, dest := d, loadout := (s.ch c).xfer.loadout, content := p }
    | _, _, _ => none

/-- The START item (R155). -/
def State.startItem (s : State) : EntryItem :=
  { kind := .start, channel := none, piece := none, value := .digest s.cfg.calibrationDigest }

/-- The ENTRY items an own frame may carry, within the free places of the book (R150). -/
def State.entryItems (s : State) : List EntryItem :=
  if s.line.clean && !s.line.dissenting && s.book.missed.isNone then
    ((if s.book.startDue then [s.startItem] else []) ++ s.book.pend.map (·.item)).take s.book.free
  else []

/-- The body's items as far as they fit in `room` bytes: the first that does not is left out with all after it (R3). -/
def fitItems : Nat → List Item → List Item
  | _, [] => []
  | room, i :: r =>
    let n := (encodeItem i).length
    if n ≤ room then i :: fitItems (room - n) r else []

/-- The whole body before the limit of 255 bytes. -/
def State.bodyItems (s : State) : List Item :=
  s.claimItems.map .claim ++ s.offerItems.map .offer ++ s.replies.map (fun r => .reply r.item)
    ++ s.castends.map (fun c => .castend c.item) ++ s.turner.turnends.map (fun t => .turnend t.item)
    ++ s.entryItems.map .entry

/-- The room for items: 255 bytes less the header's 10 and the check's 2 (R3, section 12.1). -/
def bodyRoom : Nat := 243

/-- An own TURN frame as built now (R3). -/
def State.buildTurn (s : State) (opening : Bool) (round : Word16) : TurnFrame :=
  let items := fitItems bodyRoom s.bodyItems
  { sender := s.cfg.address, opening := opening, home := s.cfg.homeTurner,
    available := s.cfg.homeTurner && s.turner.available, round := round,
    digest := s.cfg.settingsDigest, count := s.book.count, claims := Sys2Proof.claimsOf items,
    offers := offersOf items, replies := repliesOf items, castends := castendsOf items,
    turnends := turnendsOf items, entries := entriesOf items }

/-- The first `n` items of a list are marked as carried, the others not. -/
def markFirst {α : Type} : Nat → List (Listed α) → List (Listed α)
  | _, [] => []
  | 0, x :: r => { x with inFrame := false } :: markFirst 0 r
  | n + 1, x :: r => { x with inFrame := true } :: markFirst n r

/-- An own TURN frame is built and started (R1, R3): the lists and claims are marked with what it carries. -/
def State.startTurn (s : State) (opening cold : Bool) (round : Word16) : State :=
  let f := s.buildTurn opening round
  let s1 := s.startFrame.modLine fun l =>
    { l with sending := some (.turn f cold s.turnerOk), turnTaken := l.turnTaken || !cold }
  { s1 with
    own := s.own.map fun o => { o with sent := s.sentMark f.claims o }
    replies := markFirst f.replies.length s.replies
    castends := markFirst f.castends.length s.castends
    turner := { s.turner with turnends := markFirst f.turnends.length s.turner.turnends } }

/-- A MEMBER's opening frame is started: the round opening event comes first (R12, R13). Where the frame began is kept
for the frame that may override it. -/
def State.startOpening (s : State) : State :=
  let s1 := s.ownOpening
  (s1.startTurn true false s1.line.round).modLine fun l => { l with onLine := some s.frameStart }

/-- A cold opening is started: round 0 on an UNCLEAN view (R7). -/
def State.startCold (s : State) : State :=
  let s1 := s.modLine fun l => { l with clean := false, coldWait := none, coldDue := false }
  s1.startTurn true true 0#16

/-- A JOIN frame is started (R8). -/
def State.startJoin (s : State) : State :=
  s.startFrame.modLine fun l =>
    { l with
      sending := some (.join { sender := s.cfg.address, round := l.round, digest := s.cfg.settingsDigest }) }

/-! ## An own frame aborted (R1) -/

/-- The consecutive-abort count rises; at 2 the station goes MUTE (R1, R9). -/
def State.abortCounted (s : State) : State :=
  if 1 ≤ s.line.aborts then (s.modLine fun l => { l with aborts := 2 }).enterMute
  else s.modLine fun l => { l with aborts := l.aborts + 1 }

/-- The end of an own frame's sending: nothing of it is on the line. With `other`, another frame stays on the line from
where the own one began. -/
def State.stopSending (s : State) (other : Bool) : State :=
  s.modLine fun l =>
    { l with
      sending := none
      onLine := if other then l.onLine else none
      silence := if other then l.silence else 0 }

/-- An own frame is cut short (R1): it is off the line, counted, and the round marked. -/
def State.cutShort (s : State) (other : Bool) : State :=
  ((s.stopSending other).modLine fun l =>
    { l with ownAborted := raise counterTop l.ownAborted }).markFailure

/-- What an abort does but for the count of aborts (R1, R7, R13, R15). `other` says that another frame is on the
line. -/
def State.abortEnds (s : State) (own : OwnFrame) (other : Bool) : State :=
  let s1 := s.cutShort other
  match own with
  | .turn _ true _ =>
    let s2 := s1.modLine fun l =>
      { l with coldWait := some 0, coldDue := false, lastSender := some s.cfg.address }
    if other then s2 else s2.windowAtTurn
  | .turn f false _ =>
    let s2 :=
      if f.opening then
        if other then s1.modLine fun l => { l with overridden := true } else s1.openingTime
      else s1
    let s3 := s2.modLine fun l => { l with lastSender := some s.cfg.address }
    if other then s3 else s3.windowAtTurn
  | .join _ => if other then s1 else s1.windowAtEnd

/-- An own frame is aborted (R1): the abort is counted but for a cold opening's (R7). -/
def State.aborted (s : State) (own : OwnFrame) (other : Bool) : State :=
  match own with
  | .turn _ true _ => s.abortEnds own other
  | .turn _ false _ => (s.abortEnds own other).abortCounted
  | .join _ => (s.abortEnds own other).abortCounted

/-! ## The Own Claim List at a read-back (R32) -/

/-- The entry of an own claim in the own Claim Table. -/
def State.entryOfOwn (s : State) (o : OwnClaim) : Option ClaimEntry :=
  claimAt s.claims s.cfg.address o.channel.val o.slot

/-- The item a frame carries for an own claim. -/
def itemFor (items : List ClaimItem) (o : OwnClaim) : Option ClaimItem :=
  items.find? fun i => i.channel == o.channel.val && i.slot == o.slot

/-- The base of a completed merge takes the sum; the top-up it took is removed (R41). A base or top-up lowered since the
frame was built enters the sum with the amount it now has (R32). DEDUCED, log entry 61. -/
def State.applyMerge (s : State) (c : Fin 6) : State :=
  let l := s.claimsOf c
  let base := l.find? fun o => match o.sent with
    | .base _ => true
    | _ => false
  let top := l.find? fun o => o.sent == .merged
  match base, top with
  | some b, some t =>
    if b.state = .held && t.state = .held && b.sent == .base t.slot then
      let kept := s.own.filter fun o => !(o.channel == c && o.slot == t.slot)
      { s with own := kept.map fun o =>
          if o.channel == c && o.slot == b.slot then { o with amount := b.amount + t.amount } else o }
    else s
  | _, _ => s

/-- A claim brought up to date with the own table (R32), takes apart. -/
def updatedClaim (found : Bool) (o : OwnClaim) : OwnClaim :=
  if !found then { o with state := .asked }
  else if o.state = .asked then { o with state := .waiting }
  else o

/-- An own claim after the read-back of the frame that carried it (R32). Claims asked or voided after the build, and the
two of a merge, keep the state they have. -/
def State.broughtUp (s : State) (items : List ClaimItem) (o : OwnClaim) : OwnClaim :=
  let found := (s.entryOfOwn o).isSome
  let o' := match itemFor items o with
    | some i => { o with shed := i.shed }
    | none => o
  match o.sent with
  | .fresh => o
  | .merged => o
  | .base _ => updatedClaim found o'
  | .take => { o' with state := .held, age := 0, voided := false, restartAsk := false }
  | .wait => updatedClaim found o'
  | .hold => updatedClaim found o'
  | .omitted => updatedClaim found o'

/-- GRANTED is told to the channel of a taken claim (R54, R99, R107). -/
def State.granted (s : State) (o : OwnClaim) : State :=
  let s1 :=
    if o.resource = .turner && (s.ch o.channel).inPhase .turn then
      s.modCh o.channel fun h => { h with step := some .held, turnRound := some s.line.round }
    else s
  let s2 := if (s1.ch o.channel).kind = .turner then s1.turnerGranted else s1
  s2.follow o.channel

/-- The Own Claim List at the read-back of an own TURN frame (R32): merges, then each claim, then the reports. -/
def State.updateOwn (s : State) (items : List ClaimItem) : State :=
  let s1 := channels.foldl (fun t c => t.applyMerge c) s
  let taken := s1.own.filter fun o => o.sent == .take
  let s2 : State := { s1 with own := s1.own.map fun o => s1.broughtUp items o }
  let s3 := taken.foldl (fun t o => t.granted o) s2
  channels.foldl (fun t c => t.follow c) s3

/-! ## Own entries at a read-back (R151) -/

/-- The piece's field an appended entry sets (R151). A duty basis once set stays (R127). -/
def entryPiece (e : EntryItem) (p : Piece) : Piece :=
  match e.kind, e.value with
  | .steepGauge, .gauge g => { p with steepGauge := some g, handGauged := p.handGauged || e.hand }
  | .couchGauge, .gauge g => { p with couchGauge := some g, handGauged := p.handGauged || e.hand }
  | .kilnSample, .sample n m => { p with sample := some n, moisture := some m }
  | .duty, .gauge g =>
    if p.duty.isSome then p else { p with duty := some g, deficient := p.deficient || e.deficient }
  | _, _ => p

/-- The channel holds the piece the entry names. -/
def State.holdsNamed (s : State) (c : Fin 6) (e : EntryItem) : Bool :=
  match (s.ch c).piece, e.piece with
  | some p, some id => p.id == id
  | _, _ => false

/-- The end reason of a phase whose capture was read back (R85, R94, R127). -/
def captureReason (h : Channel) : EndReason := if h.kind = .kiln then .sampled else .gauged

/-- A channel is told of the read-back of its capture: the phase completes at its last one (R85, R94, R127). -/
def State.captureRead (s : State) (c : Fin 6) : State :=
  if s.book.pend.any fun p => p.capture && p.item.channel == some c.val then s
  else if (s.ch c).step = some .captured && (s.ch c).started then s.finish c (captureReason (s.ch c))
  else s

/-- One own entry is appended at the read-back (R151). -/
def State.ownEntry (s : State) (round : Word16) (e : EntryItem) : State :=
  let sequence := s.book.count
  let s1 := s.append e 1 round s.cfg.address
  if e.kind = .start then { s1 with book := { s1.book with startDue := false } }
  else
    let capture := match s.book.pend with
      | p :: _ => p.capture
      | [] => false
    let s2 : State := { s1 with book := { s1.book with pend := s1.book.pend.drop 1 } }
    match e.channel.bind chOf with
    | none => s2
    | some c =>
      let here := s2.holdsNamed c e
      let s3 := if here then s2.modPiece c (entryPiece e) else s2
      let s4 := s3.event .gaugeTaken (some c) e.piece (0 :: bytes3 sequence.toNat)
      let s5 := if here && e.kind = .discard then s4.discardPiece c else s4
      if capture then s5.captureRead c else s5

/-- The own ENTRY items at the read-back: the counts are compared, then each is appended (R151, R153). -/
def State.ownEntries (s : State) (f : TurnFrame) : State :=
  f.entries.foldl (fun t e => t.ownEntry f.round e)
    ((s.numberBook f.count).compareCount f.count (!f.entries.isEmpty) f.sender f.round)

/-! ## Transfer items and turn ends of any frame -/

/-- The transfer items and turn ends of a frame, in the order of R3. At an own read-back a CASTEND COMPLETE hands the
piece out first (R138). -/
def State.transferItems (s : State) (f : TurnFrame) (own : Bool) : State :=
  let s1 := f.offers.foldl (fun t o => t.judgeOffer f.sender o) s
  let s2 := f.replies.foldl (fun t r => t.handleReply f.sender r) s1
  let s3 := f.castends.foldl
    (fun t x => (if own then t.castRead x else t).handleCastend f.sender x) s2
  f.turnends.foldl (fun t e => t.handleTurnend e) s3

/-- What the frame carried is removed from the lists it came from (R111, R135, R137). -/
def State.removeCarried (s : State) : State :=
  { s with
    replies := unsent s.replies
    castends := unsent s.castends
    turner := { s.turner with turnends := unsent s.turner.turnends } }

/-- Steps 3 and 4 of R2 for an own TURN frame, then the wait list (R4, R159). -/
def State.ownContent (s : State) (f : TurnFrame) (turnerOk : Bool) : State :=
  let s1 := (s.hearHeader f).chargeAll (s.chargedBy f.sender f.opening)
  let s2 := (s1.applyClaims f.sender f.claims turnerOk).updateOwn f.claims
  (((s2.removeCarried).transferItems f true).ownEntries f).serve

/-- The line after an own frame's end without abort (R4): the count of aborts is 0. -/
def State.ownEnd (s : State) : State := (s.stopSending false).modLine fun l => { l with aborts := 0 }

/-- The read-back of an own TURN frame that is no cold opening (R4). -/
def State.turnRead (s : State) (f : TurnFrame) (turnerOk : Bool) : State :=
  let s1 := s.ownEnd
  let s2 := if f.opening then s1.openingTime else s1.compareRound f.round
  (s2.ownContent f turnerOk).takeSender (some f.sender)

/-- The read-back of a cold opening (R7): MEMBER, pacer of round 0. -/
def State.coldRead (s : State) (f : TurnFrame) (turnerOk : Bool) : State :=
  let s1 := s.ownEnd.mark fun r => { r with notMember := true }
  let s2 := s1.becomeMember.modLine fun l => { l with round := 0#16, dissenting := false }
  let s3 := s2.openRound.openingTime.modLine fun l => { l with turnTaken := true }
  (s3.ownContent f turnerOk).takeSender (some f.sender)

/-- The read-back of a JOIN (R4): the new MEMBER stands in the ladder from the next round's opening. -/
def State.joinRead (s : State) : State :=
  ((s.ownEnd.becomeMember.mark fun r => { r with notMember := true }).newcomer s.cfg.address).windowAtEnd

/-! ## Frames heard -/

/-- The end of a frame that was on the line: silence is measured from it (R15); a frame that ends in the join window
keeps a joiner from sending (R8). The end of the frame that overrode an own opening is the round's opening time
(R13). -/
def State.frameEnd (s : State) : State :=
  s.modLine fun l =>
    { l with
      onLine := none, silence := 0, overridden := false,
      sinceOpening := if l.overridden then some 0 else l.sinceOpening,
      joinBlocked := l.joinBlocked || s.position == .inWindow }

/-- A valid frame restarts the cold wait (R6, R7, R8). -/
def State.restartCold (s : State) : State :=
  s.modLine fun l =>
    { l with
      coldWait := if l.state = .listening || l.state = .joining then some 0 else l.coldWait
      coldDue := false }

/-- A duplicate address (R20): MUTE, and the fault. -/
def State.duplicate (s : State) : State :=
  (s.enterMute).recordFault .duplicateAddress (some s.cfg.address) none

/-- The opening and round steps of a valid TURN frame heard (R2 steps 1 and 2). After an own opening that it overrode,
the frame brings no second round opening event (R13). -/
def State.hearRound (s : State) (f : TurnFrame) (late : Bool) : State :=
  if f.opening && !late then
    let s1 := (s.heardOpening f).openingTime
    if s.line.state = .listening then s1.countComplete else s1
  else
    let s1 := s.compareRound f.round
    if late then s1.openingTime else s1

/-- Steps 3 and 4 of R2 for a TURN frame heard. -/
def State.hearContent (s : State) (f : TurnFrame) : State :=
  let s1 := ((s.hearHeader f).heardOther).chargeAll (s.chargedBy f.sender f.opening)
  let s2 := s1.applyClaims f.sender f.claims s1.turnerOk
  (s2.transferItems f false).hearEntries f.count f.entries f.sender f.round

/-- A valid TURN frame is heard (R2, R20). -/
def State.hearTurn (s : State) (f : TurnFrame) : State :=
  let s1 := s.frameEnd.restartCold
  if f.sender = s.cfg.address then (s1.duplicate).takeSender (some f.sender)
  else
    ((s1.hearRound f s.line.overridden).hearContent f).takeSender (some f.sender)

/-- A valid JOIN frame is heard (R17, R16, R20, R22). -/
def State.hearJoin (s : State) (f : JoinFrame) : State :=
  let s1 := s.frameEnd.restartCold
  let s2 :=
    if (s1.peer f.sender).present then
      ((s1.modPeer f.sender fun p => { p with missed := 0 }).recordFault .duplicateJoin (some f.sender)
        none).heardOther
    else if f.sender = s.cfg.address then s1.duplicate
    else
      ((s1.modPeer f.sender fun _ =>
        { present := true, missed := 0, home := false, available := false, change := true }).newcomer
          f.sender).heardOther
  s2.windowAtEnd

/-! ## A garbled frame (R2, R13, R16) -/

/-- The number of 3 ms slots in a time. -/
def slots (t : Nat) : Nat := t / slot

/-- The stations a garbled frame charges (R16): on the opening ladder 0 to k, in the round 1 to k of the ladder above
the last sender, none in the join window. Of a frame that overrode an own TURN frame the last sender is the one before
both frames, as it was where they began. DESIGN CHOICE, log entry 60. -/
def State.garbledCharges (s : State) (b : FrameStart) : List Nat :=
  match b.position with
  | .inWindow => []
  | .opening after => s.present.take ((match after with
      | some t => slots t
      | none => 0) + 1)
  | .inRound =>
    match b.lastSender with
    | some l => (s.ladder l).take (max 1 (slots b.silence))
    | none => []

/-- A check failure on a frame of another station (R2): counted and marked. -/
def State.checkFailed (s : State) : State :=
  (s.modLine fun l => { l with checkFailures := raise counterTop l.checkFailures }).markFailure

/-- A garbled frame ends (R2, R13, R16). It is attributed to the highest-numbered station it charges; that one which
charges no station leaves the last sender as it was is DESIGN CHOICE, log entry 70. -/
def State.hearGarbled (s : State) : State :=
  let b := match s.line.onLine with
    | some b => b
    | none => s.frameStart
  let charged := s.garbledCharges b
  let s1 := s.frameEnd
  let s2 := match b.position with
    | .opening _ => (if s.line.overridden then s1 else s1.garbledOpening).openingTime
    | .inRound => s1
    | .inWindow => s1
  let s3 := s2.checkFailed.chargeAll charged
  let last := match charged.getLast? with
    | some a => some a
    | none => s3.line.lastSender
  let s4 := match b.position with
    | .inWindow => s3.windowAtEnd
    | .inRound => s3.takeSender last
    | .opening _ => s3.takeSender last
  if s4.line.state = .listening && s4.line.coldDue then s4.startCold else s4

end Sys2Proof.Machine
end

