-- ==== Sys2Proof/Machine/Arrivals.lean ====
section
/-! DEFINITION. A measurement arrival (R166): the front end (R167 to R170), statistics (R71), the setpoint (R67), the rules
of each kind at an arrival (chapters 4 to 6), the overload judgment (R110) and the halting judgment (R171). -/

namespace Sys2Proof.Machine

/-! ## Front end -/

/-- The value of MD (R168): a logic input's level, or the reading converted by the MC entry where the kind does not use
MD (R200); a box's entry is a temperature, a steep's is in no stated unit. -/
def mdOf (k : Kind) (cal : ChannelCal) (raw : RawArrival) : Option Int :=
  match k with
  | .steep => some (convertUnused cal.mcLow cal.mcHigh raw.md)
  | .box => some (convertLine (signed16 cal.mcLow) (signed16 cal.mcHigh) (offRails raw.md))
  | .kiln => some (bit raw.active)
  | .turner => some (bit raw.active)
  | .unused => none

/-- The inputs of a channel after an arrival's readings (R167 to R169); a box keeps its last air-on value (R92). -/
def sampledChannel (cal : ChannelCal) (raw : RawArrival) (h : Channel) : Channel :=
  let mc := sampleInput h.kind .mc cal raw.mc h.mc
  { h with
    ma := sampleInput h.kind .ma cal raw.ma h.ma
    mb := sampleInput h.kind .mb cal raw.mb h.mb
    mc := mc
    mdValue := mdOf h.kind cal raw
    mdActive := (h.kind == .kiln || h.kind == .turner) && raw.active
    lastAirOn := if h.kind = .box then (match mc.value with
      | some v => some v
      | none => h.lastAirOn) else h.lastAirOn }

/-- The input's state in the channel. -/
def Channel.input (h : Channel) (i : Input) : InputState :=
  match i with
  | .ma => h.ma
  | .mb => h.mb
  | .mc => h.mc

/-- A SENSOR event (R170): 1 FAULT, 2 CLEAR. -/
def State.sensorEvent (s : State) (c : Fin 6) (i : Input) (word : Nat) : State :=
  s.chEvent c .sensor [word, inputCode i, 0, 0]

/-- The SENSOR event of a change of an input's faulted mark (R170). -/
def State.sensorChange (s : State) (c : Fin 6) (i : Input) (was is : Bool) : State :=
  if !was && is then s.sensorEvent c i 1
  else if was && !is then s.sensorEvent c i 2
  else s

/-- The analogue inputs in the order of R170. -/
def inputs : List Input := [.ma, .mb, .mc]

/-- The front end's part of an arrival. -/
def State.sample (s : State) (c : Fin 6) (raw : RawArrival) : State :=
  let old := s.ch c
  let s1 := s.modCh c (sampledChannel (s.cfg.cal.get c) raw)
  inputs.foldl (fun t i => t.sensorChange c i (old.input i).faulted ((s1.ch c).input i).faulted) s1

/-- The fault halts the channel (R171's table). -/
def haltsOn (h : Channel) (i : Input) : Bool :=
  let active := h.state == .running || h.state == .paused
  let live := active || h.state == .starved
  let phase (k : PhaseKind) : Bool := active && h.inPhase k
  match h.kind, i with
  | .steep, .ma => live
  | .steep, .mb =>
    phase .wet || phase .air || phase .gauge || phase .cast || h.state == .starved
  | .box, .ma => live
  | .box, .mb => phase .couch || phase .loadout
  | .kiln, .ma => live
  | .kiln, .mc => phase .sample
  | _, _ => false

/-- The halting judgment of one input (R171). -/
def State.judgeInput (s : State) (c : Fin 6) (i : Input) : State :=
  if ((s.ch c).input i).faulted && haltsOn (s.ch c) i then s.halt c (.sensor i) else s

/-- The halting judgment of an arrival (R171), input by input in the order MA, MB, MC: of two faults that both halt the
channel the first is named. The order is DESIGN CHOICE, log entry 55. -/
def State.judgeInputs (s : State) (c : Fin 6) : State := inputs.foldl (fun t i => t.judgeInput c i) s

/-! ## Setpoint and statistics -/

/-- A waiting ramp start value is taken from the first arrival that brings MA (R169); the phase of a HALTED channel,
which does not go on, takes none (DEDUCED, log entry 58). -/
def takeRampStart (h : Channel) : Channel :=
  match h.rampDue && (h.state == .running || h.state == .paused), h.ma.value with
  | true, some v => { h with rampStart := some v, rampDue := false }
  | _, _ => h

/-- The running setpoint of a started phase at an arrival: computed afresh while RUNNING (R67); in PAUSED and HALTED it
stands, and is computed only where a reset left it absent (R57, R60, R75). -/
def setpointAtArrival (h : Channel) : Channel :=
  if h.started then
    let h1 := takeRampStart h
    if h1.state = .running || h1.setpoint.isNone then { h1 with setpoint := setpointNow h1 } else h1
  else h

/-- The lesser of two optional values. -/
def optMin (a : Option Int) (v : Int) : Int := match a with
  | some x => min x v
  | none => v

/-- The greater of two optional values. -/
def optMax (a : Option Int) (v : Int) : Int := match a with
  | some x => max x v
  | none => v

/-- The top of a time of statistics, in seconds: 65535 minutes (R71). -/
def minuteTop : Nat := 60 * 65535

/-- The top of a held amount, in unit-seconds: 16,777,215 unit-minutes (R71). -/
def amountTop : Nat := 60 * 16777215

/-- MA lies outside the alarm band (R71). -/
def outsideBand (h : Channel) (ma : Int) : Bool :=
  match h.current, h.setpoint with
  | some r, some sp => usesTarget r.kind && (r.band : Int) < (ma - sp).natAbs
  | _, _ => false

/-- The statistics of MA take an arrival's value; nothing where it is absent (R71, R169). -/
def maStats (h : Channel) (x : Stats) : Stats :=
  match h.ma.value with
  | none => x
  | some v =>
    { x with
      minMA := some (optMin x.minMA v), maxMA := some (optMax x.maxMA v), sumMA := x.sumMA + v,
      count := x.count + 1,
      outside := if outsideBand h v then raise minuteTop x.outside else x.outside }

/-- The statistics of an arrival (R71). -/
def statsAtArrival (h : Channel) (water power : Nat) : Stats :=
  let x := maStats h h.stats
  { x with
    waterHeld := min amountTop (x.waterHeld + water)
    powerHeld := min amountTop (x.powerHeld + power)
    waiting := if h.wait.claim || h.wait.line then raise minuteTop x.waiting else x.waiting }

/-- Statistics accumulate while a phase is started and the channel RUNNING (R71). -/
def State.accumulate (s : State) (c : Fin 6) : State :=
  if (s.ch c).state = .running && (s.ch c).started then
    let water := s.heldAmount c .water
    let power := s.heldAmount c .power
    s.modCh c fun h => { h with stats := statsAtArrival h water power }
  else s

/-! ## Steady runs and captures (R84, R85, R94) -/

/-- The arrival's MB as a level to judge: none where it is replaced or absent (R84, R169). -/
def steadyLevel (x : InputState) : Option Int := if x.replaced then none else x.value

/-- The steady run after an arrival (R84). -/
def steadyNext (r : SteadyRun) (level : Option Int) : SteadyRun :=
  match level with
  | none => {}
  | some v =>
    if r.count = 0 then { first := v, count := 1, sum := v }
    else if (v - r.first).natAbs ≤ 5 then { r with count := r.count + 1, sum := r.sum + v }
    else { first := v, count := 1, sum := v }

/-- The gauge capture of a steady level (R85, R94, R149). -/
def gaugeCapture (cfg : Settings) (c : Fin 6) (h : Channel) (sum : Int) : EntryItem :=
  { kind := if h.kind = .box then .couchGauge else .steepGauge
    channel := some c.val
    piece := h.piece.map (·.id)
    value := .gauge (gaugeOf (meanOfTen sum).toNat (cfg.scales.get c) (cfg.offsets.get c)) }

/-- The level is steady: the capture is made and offered, and the step is CAPTURED (R85, R94). -/
def State.captureLevel (s : State) (c : Fin 6) (run : SteadyRun) : State :=
  let item := gaugeCapture s.cfg c (s.ch c) run.sum
  (s.modCh c fun h => { h with step := some .captured, steady := run }).offerCaptures c [item]

/-- A level is judged in STEADYING (R84). -/
def State.judgeLevel (s : State) (c : Fin 6) (level : Option Int) : State :=
  let run := steadyNext (s.ch c).steady level
  if 10 ≤ run.count then s.captureLevel c run else s.modCh c fun h => { h with steady := run }

/-! ## Steep (chapter 4) -/

/-- The end of a fill (R80). -/
def State.fillEnd (s : State) (c : Fin 6) (r : PhaseRecord) : State :=
  let s1 := s.modCh c fun h => { h with step := some .standing, standMark := some h.timer }
  let s2 := s1.dropOn c .water
  if r.blowerOn.isSome then
    (s2.modCh c fun h => { h with blower := some 0, blowerOn := true }).ask c
      (phaseAsk r .power (r.power.getD 0))
  else s2

/-- The end of a drain (R82). -/
def State.drainEnd (s : State) (c : Fin 6) : State :=
  let held := s.hasHeld c .power
  s.modCh c fun h =>
    { h with
      step := some .resting, standMark := some h.timer, blower := some 0, restEdges := 0,
      wait := { h.wait with claim := h.wait.claim || !held } }

/-- The end of a cast or a load-out (R87, R101): drive off, claims dropped, the unit told. -/
def State.castEnd (s : State) (c : Fin 6) : State :=
  let last : Step := if (s.ch c).kind = .box then .loadEnded else .castEnded
  ((s.modCh c fun h => { h with step := some last }).dropAll c).completeCast c

/-- An optional level is at or below the empty level of 10 mm (R82, R87, R101). -/
def isEmpty10 (x : InputState) : Bool := match x.value with
  | some v => v ≤ 10
  | none => false

/-- The level has reached the fill level (R80). -/
def isFull (x : InputState) (r : PhaseRecord) : Bool := match x.value, r.fillLevel with
  | some v, some level => (level : Int) ≤ v
  | _, _ => false

/-- The shed point of WATER in FILLING: a shed sets CLAIM_WAIT again (R80). -/
def State.fillShed (s : State) (c : Fin 6) : State :=
  if (s.postedOf c [.water]).isEmpty then s
  else
    (s.shedPoint c [.water]).modCh c fun h => { h with wait := { h.wait with claim := true } }

/-- Both transfer claims of a cast are HELD (R87, R101). -/
def State.castHeld (s : State) (c : Fin 6) : Bool :=
  s.hasHeld c (if (s.ch c).kind = .box then .loader else .castway) && s.hasHeld c .power

/-- A steep's rules at an arrival in RUNNING (R80, R82, R84, R87). -/
def State.steepRunning (s : State) (c : Fin 6) (r : PhaseRecord) : State :=
  let h := s.ch c
  match h.step with
  | some .filling => if isFull h.mb r then s.fillEnd c r else s.fillShed c
  | some .draining => if isEmpty10 h.mb then s.drainEnd c else s
  | some .steadying => s.judgeLevel c (steadyLevel h.mb)
  | some .casting => if s.castHeld c && isEmpty10 h.mb then s.castEnd c else s
  | _ => s

/-- A steep's rules at an arrival. In PAUSED the shed point of FILLING still stands (R88). -/
def State.steepArrival (s : State) (c : Fin 6) : State :=
  let h := s.ch c
  match h.started, h.current with
  | true, some r =>
    if h.state = .running then s.steepRunning c r
    else if h.state = .paused && h.step == some .filling then s.fillShed c
    else s
  | _, _ => s

/-! ## Box (chapter 5) -/

/-- The setpoint a control law uses: the running one with a phase in progress, the last end setpoint after a completion
(R95, R117). -/
def lawSetpoint (h : Channel) : Option Int :=
  if h.started && (h.state == .running || h.state == .paused) then h.setpoint else h.lastEnd

/-- The fan command of an arrival (R95); without MA or a setpoint it stands (R169). -/
def fanNext (h : Channel) (r : PhaseRecord) : Nat :=
  match h.ma.value, lawSetpoint h with
  | some ma, some sp => fanDemand (r.fanBase.getD 0) (r.fanGain.getD 0) ma sp
  | _, _ => h.fanCommand

/-- A top-up stands for the channel (R96): a POWER claim that names a base. -/
def State.topUpStands (s : State) (c : Fin 6) : Bool := (s.claimsOn c .power).any fun o => o.base.isSome

/-- The arrival is power-limited (R96). -/
def State.powerLimited (s : State) (c : Fin 6) : Bool :=
  s.hasHeld c .power && s.cap c < (s.ch c).fanCommand

/-- The top-up a box asks (R96): priority and sheddable flag of its POWER claim in the lowest slot. -/
def State.fanTopUp (s : State) (c : Fin 6) : Option Ask :=
  (s.claimsOn c .power).head?.map fun b =>
    { resource := .power
      amount := fanDraw (s.ch c).fanCommand (s.cfg.ratings.get c) - s.heldAmount c .power
      priority := b.priority, sheddable := b.sheddable, detail := none, base := some b.slot }

/-- The power-limited count reaches 5 (R96): the top-up is asked where a slot is free, else the count stays at 5 for the
next power-limited arrival. -/
def State.askTopUp (s : State) (c : Fin 6) : State :=
  match s.freeSlot c, s.fanTopUp c with
  | some n, some a => (s.askAt c n a).modCh c fun h => { h with limited := 0 }
  | _, _ => s.modCh c fun h => { h with limited := 5 }

/-- The power-limited judgment of an arrival (R96). -/
def State.judgeLimited (s : State) (c : Fin 6) : State :=
  if !s.powerLimited c || s.topUpStands c then s.modCh c fun h => { h with limited := 0 }
  else if 4 ≤ (s.ch c).limited then s.askTopUp c
  else s.modCh c fun h => { h with limited := h.limited + 1 }

/-- The fan law at an arrival, after the shed point of its claims (R95, R96, R98). -/
def State.fanLaw (s : State) (c : Fin 6) (r : PhaseRecord) : State :=
  let s1 := s.shedPoint c [.power, .water]
  (s1.modCh c fun h => { h with fanCommand := fanNext h r }).judgeLimited c

/-- A box's rules at an arrival (R94, R95, R101). -/
def State.boxArrival (s : State) (c : Fin 6) : State :=
  let h := s.ch c
  match h.drivesBy with
  | none => s
  | some r =>
    if fanLawKind r.kind then s.fanLaw c r
    else if h.state = .running then
      match h.step with
      | some .steadying => s.judgeLevel c (steadyLevel h.mb)
      | some .loading => if s.castHeld c && isEmpty10 h.mb then s.castEnd c else s
      | _ => s
    else s

/-! ## Kiln (chapter 6) -/

/-- The record by which the burner law runs (R117): the phase in progress in RUNNING, the completed one in STARVED and
PAUSED(STEP). -/
def burnsBy (h : Channel) : Option PhaseRecord :=
  let by_ : Option PhaseRecord :=
    match h.state with
    | .running => if h.started then h.current else none
    | .starved => h.completed
    | .paused => if h.pause = some .step then h.completed else none
    | .unused => none
    | .idle => none
    | .ready => none
    | .halted => none
  by_.filter fun r => burns r.kind

/-- The flame count of an arrival (R118). -/
def flameNext (h : Channel) : Nat := if h.firing = 0 || h.mdActive then 0 else raise 3 h.flame

/-- The fan condition (R117). -/
def State.fanCondition (s : State) (c : Fin 6) : Bool := s.hasHeld c .power && 30 ≤ s.fanOutput c

/-- The firing of an arrival at which the fan condition holds (R117 step 4); 0 without MA (R169) or a setpoint. -/
def firingNext (h : Channel) (r : PhaseRecord) : Nat :=
  match h.ma.value, lawSetpoint h with
  | some ma, some sp =>
    if ma < sp - 5 then min (h.firing + 5) (r.burnerMax.getD 0)
    else if sp + 5 < ma then h.firing - 5
    else min h.firing (r.burnerMax.getD 0)
  | _, _ => 0

/-- Steps 2 to 4 of the burner law (R117) and the peat feed of a PEAT in progress (R123). -/
def State.fire (s : State) (c : Fin 6) (r : PhaseRecord) : State :=
  let cond := s.fanCondition c
  s.modCh c fun h =>
    { h with
      firing := if cond then firingNext h r else 0
      peat := cond && h.state == .running && h.inPhase .peat }

/-- The burner law at an arrival (R117, R118). -/
def State.burnerLaw (s : State) (c : Fin 6) (r : PhaseRecord) : State :=
  let n := flameNext (s.ch c)
  let s1 := s.modCh c fun h => { h with flame := n }
  if 3 ≤ n then s1.halt c .flameFail else s1.fire c r

/-- The burner at an arrival: the law where it runs, else firing and flame count at 0 (R117, R118). -/
def State.burnerArrival (s : State) (c : Fin 6) : State :=
  match burnsBy (s.ch c) with
  | some r => s.burnerLaw c r
  | none => s.modCh c fun h => { h with firing := 0, flame := 0, peat := false }

/-- An arrival counts toward breakthrough (R121). -/
def State.countsBreak (s : State) (c : Fin 6) (delta : Nat) : Bool :=
  let h := s.ch c
  h.wait == {} && s.hasHeld c .power && !h.ma.replaced && !h.mb.replaced
    && (match h.ma.value, h.mb.value with
        | some ma, some mb => ma - (delta : Int) ≤ mb
        | _, _ => false)

/-- The breakthrough count at an arrival of a DRY (R121). -/
def State.judgeBreak (s : State) (c : Fin 6) (r : PhaseRecord) : State :=
  match r.breakDelta with
  | none => s
  | some delta =>
    if s.countsBreak c delta then
      if 9 ≤ (s.ch c).breakCount then
        (s.modCh c fun h => { h with breakCount := 10 }).complete c .breakthrough
      else s.modCh c fun h => { h with breakCount := h.breakCount + 1 }
    else s.modCh c fun h => { h with breakCount := 0 }

/-- The next sample number (R126 step 1). -/
def nextSample (n : Nat) : Nat := if n < 65535 then n + 1 else 1

/-- The captures of a SAMPLE (R126): KILN_SAMPLE, and DUTY where the piece has no duty basis. -/
def sampleCaptures (c : Fin 6) (p : Piece) (number moisture : Nat) : List EntryItem :=
  let sample : EntryItem :=
    { kind := .kilnSample, channel := some c.val, piece := some p.id, value := .sample number moisture }
  let duty : EntryItem :=
    { kind := .duty, channel := some c.val, piece := some p.id, value := .gauge (dutyBasis p).1,
      deficient := (dutyBasis p).2 }
  if p.duty.isSome then [sample] else [sample, duty]

/-- The moisture is made (R125, R126). -/
def State.makeMoisture (s : State) (c : Fin 6) (values : List Int) : State :=
  match (s.ch c).piece with
  | none => s
  | some p =>
    let n := nextSample s.book.sample
    let moisture := (meanOfTen (values.foldl (· + ·) 0)).toNat
    let s1 : State := { s with book := { s.book with sample := n } }
    (s1.modCh c fun h => { h with step := some .captured, readings := values }).offerCaptures c
      (sampleCaptures c p n moisture)

/-- A value of MC joins the reading set; the tenth makes the moisture (R125). -/
def State.addReading (s : State) (c : Fin 6) (v : Int) : State :=
  let values := (s.ch c).readings ++ [v]
  if 10 ≤ values.length then s.makeMoisture c values
  else s.modCh c fun h => { h with readings := values }

/-- The reading set at an arrival in READING (R125). -/
def State.readMoisture (s : State) (c : Fin 6) : State :=
  match steadyLevel (s.ch c).mc with
  | none => s.modCh c fun h => { h with readings := [] }
  | some v => s.addReading c v

/-- A kiln's rules at an arrival (R117, R121, R125): the burner law first, then the breakthrough count or the reading
set, unless the law has halted the channel. A phase that starts at this arrival has no law of its own at it. The order
is DESIGN CHOICE, log entry 52. -/
def State.kilnArrival (s : State) (c : Fin 6) : State :=
  let s1 := s.burnerArrival c
  let h := s1.ch c
  if h.state = .running then
    match h.phase, h.current with
    | some .dry, some r => s1.judgeBreak c r
    | some .sample, _ => if h.step = some .reading then s1.readMoisture c else s1
    | _, _ => s1
  else s1

/-! ## Turner (R110) -/

/-- The turner moves: TRAVELLING or TURNING. -/
def Turner.moving (t : Turner) : Bool := t.state == .travelling || t.state == .turning

/-- The overload judgment of an arrival (R110). -/
def State.judgeOverload (s : State) (active : Bool) : State :=
  if s.turner.moving && s.turnerGate then
    if active then
      if 2 ≤ s.turner.overload then (s.modTurner fun t => { t with overload := 3 }).turnerFaults
      else s.modTurner fun t => { t with overload := t.overload + 1 }
    else s.modTurner fun t => { t with overload := 0 }
  else s

/-! ## The arrival -/

/-- The rules of the channel's kind at an arrival. -/
def State.kindArrival (s : State) (c : Fin 6) (raw : RawArrival) : State :=
  match (s.ch c).kind with
  | .steep => s.steepArrival c
  | .box => s.boxArrival c
  | .kiln => s.kilnArrival c
  | .turner => s.judgeOverload raw.active
  | .unused => s

/-- A channel that receives arrivals (R166). -/
def State.arrives (s : State) (c : Fin 6) : Bool := s.live && (s.ch c).kind != .unused

/-- An arrival is delivered to channel `c` and handled (R166): front end, setpoint, statistics, refused asks (R29), kind
rules, halting judgment. That the refused asks are repeated after the statistics and before the kind's rules is DESIGN
CHOICE, log entry 67; that the setpoint is computed before the statistics, log entry 74. -/
def State.arrival (s : State) (c : Fin 6) (raw : RawArrival) : State :=
  let s1 := (s.sample c raw).modCh c fun h => setpointAtArrival { h with clock := some 0 }
  let s2 := ((s1.accumulate c).repeatAsks c).kindArrival c raw
  s2.judgeInputs c

end Sys2Proof.Machine
end

