-- ==== Sys2Proof/Machine/Restart.lean ====
section
/-! DEFINITION. Resets (R189), the end of the configuration load (R190, R191), the restart decision (R193, R194) and the
Timebase (R174, R175). -/

namespace Sys2Proof.Machine

/-! ## Taking a reset (R189) -/

/-- The Timebase while a reset is held: the crystal is started at the reset's end (R189). -/
def heldTimebase : Timebase := { ready := false, stab := none, crystal := false }

/-- The Timebase at the end of a reset (R174, R189). -/
def startedTimebase : Timebase := { ready := false, stab := some 0, crystal := true }

/-- The state a POWER_UP reset leaves, held where `held`. The queue of waiting commands and the counter of free values
are the model's own. -/
def State.poweredUp (s : State) (held : Bool) : State :=
  { State.reset with
    tb := if held then heldTimebase else startedTimebase
    loader := { State.reset.loader with held := held, loading := !held }
    free := s.free
    pending := s.pending }

/-- The saved claims of channel `c`, in slot order, whatever their local state (R189). -/
def State.savedClaims (s : State) (c : Fin 6) : List Saved :=
  (s.claimsOf c).map fun o =>
    { slot := o.slot
      ask := { resource := o.resource, amount := o.amount, priority := o.priority,
               sheddable := o.sheddable, detail := o.detail, base := o.base } }

/-- A reset finds the load of the reset before it abandoned or ended with a bad image (R189). -/
def State.keepsLists (s : State) : Bool := s.loader.loading || s.line.state == .unconfigured

/-- The channel waits in PAUSED(RESTART), where its restart list is held for its RELEASE (R193). -/
def Channel.pausedRestart (h : Channel) : Bool := h.state == .paused && h.pause == some .restart

/-- A reset leaves the channel the list an earlier one saved: the load of that earlier reset was abandoned or ended with
a bad image, be it the last load or, for a list still held in PAUSED(RESTART), one before it (R189). -/
def State.keepsList (s : State) (c : Fin 6) : Bool :=
  let h := s.ch c
  isVessel h.kind && h.restart.isSome && (s.keepsLists || (h.restartKept && h.pausedRestart))

/-- The restart list a channel has after a PIN reset is taken. -/
def State.restartList (s : State) (c : Fin 6) : Option (List Saved) :=
  if s.keepsList c then (s.ch c).restart
  else if isVessel (s.ch c).kind then some (s.savedClaims c)
  else none

/-- An input after a reset (R177). -/
def freshInput : InputState := {}

/-- What a PIN reset leaves of a channel (R75, R90, R103, R130, R145, R177). -/
def pinChannel (h : Channel) (list : Option (List Saved)) (kept : Bool) : Channel :=
  { h with
    wait := {}, setpoint := none, restart := list, restartKept := kept, steady := {}, limited := 0,
    fanCommand := 0, turnRound := none, lastAirOn := none, firing := 0, peat := false, flame := 0,
    breakCount := 0, readings := [], clock := none, ma := freshInput, mb := freshInput,
    mc := freshInput, mdValue := none, mdActive := false, xfer := { h.xfer with count := 0 } }

/-- The Line Controller after a PIN reset: as after any reset, with its line counters (R24). -/
def pinLine (l : Line) : Line :=
  { Line.start with
    checkFailures := l.checkFailures, ownAborted := l.ownAborted, missedTurns := l.missedTurns }

/-- A PIN reset is taken: RESET has been low for 1 ms and is still low (R189). -/
def State.pinTaken (s : State) : State :=
  { s with
    tb := heldTimebase
    loader := { s.loader with held := true, loading := false, loaded := false, kind := .pin }
    line := pinLine s.line
    peers := noPeers
    claims := []
    own := []
    chans := sixOf fun n => match chOf n with
      | some c => pinChannel (s.ch c) (s.restartList c) (s.keepsList c)
      | none => {}
    turner := Turner.start
    replies := []
    panel := Panel.start }

/-- The RESET input has been low for 1 ms (R189): a POWER_UP reset where the supply has come good since the last load
that ended, a PIN reset otherwise; nothing while the station is held already. -/
def State.takePin (s : State) : State :=
  if s.loader.held then s
  else if s.loader.supply then s.poweredUp true
  else s.pinTaken

/-- The reset ends: the crystal is started and the load begins (R189). -/
def State.endReset (s : State) : State :=
  if s.loader.held then
    { s with tb := startedTimebase, loader := { s.loader with held := false, loading := true } }
  else s

/-! ## The restart decision (R193, R194) -/

/-- The saved claims asked at a restart: those of an ACCEPTED transfer are asked at RELEASE (R194, R195). -/
def askedList (h : Channel) : List Saved :=
  if h.xfer.state = .accepted then [] else h.restart.getD []

/-- One saved claim is asked in its slot (R194). -/
def State.askSaved (s : State) (c : Fin 6) (x : Saved) : State :=
  (s.askAt c x.slot x.ask).modOwn c x.slot fun o => { o with restartAsk := true }

/-- The wait set a channel rebuilds (R194). -/
def State.rebuiltWait (s : State) (c : Fin 6) (l : List Saved) : WaitSet :=
  { claim := l.any fun x => x.ask.resource != .turner
    line := false
    gauge := s.book.waiting.contains c
    offer := (s.ch c).xfer.state == .offering
    turn := (s.ch c).inPhase .turn }

/-- The restart list is asked again and discarded, and the wait set rebuilt (R194). -/
def State.askRestart (s : State) (c : Fin 6) : State :=
  let l := askedList (s.ch c)
  let w := s.rebuiltWait c l
  (l.foldl (fun t x => t.askSaved c x) s).modCh c fun h =>
    { h with restart := none, restartKept := false, wait := w }

/-- A channel comes back in PAUSED(RESTART); a PAUSED event is queued (R193). -/
def State.pauseRestart (s : State) (c : Fin 6) (resume : Resume) : State :=
  (s.modCh c fun h => { h with state := .paused, pause := some .restart, resume := some resume }).chEvent
    c .paused [PauseReason.restart.code, 0, 0, 0]

/-- The channel was casting: its CAST or LOADOUT stood ACCEPTED (R193). -/
def Channel.castAccepted (h : Channel) : Bool :=
  h.xfer.state == .accepted && (h.inPhase .cast || h.inPhase .loadout)

/-- An interrupted cast comes back PAUSED(RESTART) with the piece's CAST_INTERRUPTED flag (R193). -/
def State.castRestart (s : State) (c : Fin 6) : State :=
  (s.modPiece c fun p => { p with castInterrupted := true }).pauseRestart c .running

/-- The restart list is discarded (R193). -/
def State.dropList (s : State) (c : Fin 6) : State :=
  s.modCh c fun h => { h with restart := none, restartKept := false }

/-- The state a channel takes after a PIN reset without a changed image (R193). -/
def State.decide (s : State) (c : Fin 6) : State :=
  let h := s.ch c
  match h.state with
  | .running =>
    if h.castAccepted then s.castRestart c
    else if s.loader.hold then s.pauseRestart c .running
    else s.askRestart c
  | .starved => if s.loader.hold then s.pauseRestart c .starved else s.askRestart c
  | .paused =>
    if h.pause = some .panel && h.castAccepted then s.castRestart c
    else if h.pause = some .restart then s
    else s.askRestart c
  | .idle => s.dropList c
  | .ready => s.dropList c
  | .halted => s.dropList c
  | .unused => s.dropList c

/-! ## The end of the load (R190, R191) -/

/-- A channel as a POWER_UP reset leaves it, of the kind the image gives (R75). -/
def newChannel (k : Kind) : Channel :=
  { kind := k, state := if isVessel k then .idle else .unused }

/-- A kept channel under the kind the image gives: UNUSED and TURNER channels have no state of chapter 3 (R51). -/
def keptChannel (h : Channel) (k : Kind) : Channel :=
  if isVessel k then { h with kind := k } else newChannel k

/-- The arrival clock of a channel starts, unless it is UNUSED (R166). -/
def startClock (h : Channel) : Channel := { h with clock := if h.kind = .unused then none else some 0 }

/-- All channels changed alike. -/
def State.mapCh (s : State) (f : Fin 6 → Channel → Channel) : State :=
  { s with chans := ⟨f 0 (s.ch 0), f 1 (s.ch 1), f 2 (s.ch 2), f 3 (s.ch 3), f 4 (s.ch 4), f 5 (s.ch 5)⟩ }

/-- The image's kinds, settings and digests are loaded, and the load has ended (R191 steps 1, 2 and 5). -/
def State.loadImage (s : State) (image : List Byte) : State :=
  { s with
    cfg := imageSettings image
    loader := { s.loader with
      loading := false, loaded := true, supply := false, lastDigest := some (imageDigest image),
      image := image } }

/-- The POWER_UP values of what a changed image resets (R191 step 3): Transfer Units go with the channels. -/
def State.newStation (s : State) (image : List Byte) : State :=
  { s.mapCh fun c _ => newChannel ((imageKinds image).get c) with
    castends := []
    book := Book.start
    line := { s.line with checkFailures := 0, ownAborted := 0, missedTurns := 0 } }

/-- RESTART, recorded at the end of a PIN reset's load with the own address and round 0 (R190, R191). -/
def State.recordRestart (s : State) : State := s.faultAt .restart (some s.cfg.address) none 0#16

/-- Channel states at the end of a good load (R191 steps 3, 4 and 6). `digest` is that of the last loaded image. The
restart decisions are taken from channel 0 to channel 5, and their events queued so (DESIGN CHOICE, log entry 78). -/
def State.takeStates (s : State) (image : List Byte) (digest : Option Word16) : State :=
  match s.loader.kind with
  | .powerUp => s.newStation image
  | .pin =>
    if digest = some (imageDigest image) then
      channels.foldl (fun t c => t.decide c)
        ((s.mapCh fun c h => keptChannel h ((imageKinds image).get c)).recordRestart)
    else
      (s.newStation image).recordRestart.faultAt .configChanged (some s.cfg.address) none 0#16

/-- The line state leaves CLOCKING once the crystal is ready and a good load has ended (R5). -/
def State.leaveClocking (s : State) : State :=
  if s.line.state = .clocking && s.tb.ready && s.loader.loaded then s.enterListening else s

/-- The empty reply stands in the buffer at the end of each load (R178). -/
def State.emptyReply (s : State) : State := { s with panel := { s.panel with reply := Reply.empty } }

/-- A good load ends (R191). -/
def State.goodLoad (s : State) (image : List Byte) : State :=
  let s1 := (s.loadImage image).takeStates image s.loader.lastDigest
  ((s1.mapCh fun _ h => startClock h).emptyReply).leaveClocking

/-- A bad load ends (R190): UNCONFIGURED, with what a PIN reset keeps standing aside. The address and the digests stay
those of the last good load (DESIGN CHOICE, log entries 23 and 77). -/
def State.badLoad (s : State) : State :=
  let s1 : State := { s with loader := { s.loader with loading := false, loaded := false, supply := false } }
  let s2 := s1.setLine .unconfigured
  (match s.loader.kind with
   | .powerUp => s2
   | .pin => s2.recordRestart).emptyReply

/-- The load ends with an image read whole: good or bad by the tests of R190. -/
def State.endLoad (s : State) (image : List Byte) : State :=
  if s.loader.loading && !s.loader.held then
    if goodImage image then s.goodLoad image else s.badLoad
  else s

/-- The load ends with a bad image. -/
def State.endBadLoad (s : State) : State :=
  if s.loader.loading && !s.loader.held then s.badLoad else s

/-! ## Timebase (R174, R175) -/

/-- XTAL is set (R182). -/
def State.setXtal (s : State) : State := { s with panel := { s.panel with xtal := true } }

/-- The crystal is ready (R174). -/
def State.crystalIsReady (s : State) : State :=
  if s.tb.stab.isSome && !s.tb.ready then
    ({ s with tb := { s.tb with ready := true, stab := none } } : State).setXtal.leaveClocking
  else s

/-- The stabilization wait restarts (R174). -/
def State.restartWait (s : State) : State :=
  if s.tb.stab.isSome && !s.tb.ready then { s with tb := { s.tb with stab := some 0 } } else s

/-- The crystal is lost (R175, R5). -/
def State.crystalIsLost (s : State) : State :=
  if s.tb.ready then
    let s1 := ({ s with tb := { s.tb with ready := false, stab := some 0 } } : State).setXtal
    let s2 := s1.recordFault .xtalLost (some s.cfg.address) none
    if s.line.state.hears then s2.enterClocking else s2
  else s

end Sys2Proof.Machine
end

