-- ==== Sys2Proof/Machine/Replies.lean ====
section
/-! DEFINITION. Replies of the Panel Port as bytes (R178, R179, R181, section 12.2): records and objects in the order their
owning rules list the fields. Log entry 24 says where a layout is this model's reading of that general sentence. -/

namespace Sys2Proof.Machine

/-! ## Fields -/

/-- A one-byte field. -/
def byte1 (n : Nat) : List Nat := [n % 256]

/-- A flag as a byte. -/
def flagByte (b : Bool) : List Nat := [bit b]

/-- A signed two-byte field. -/
def bytesTemp (i : Int) : List Nat := bytes2 (unsigned16 i)

/-- Zero bytes. -/
def zeros (n : Nat) : List Nat := List.replicate n 0

/-- An optional field of `n` bytes behind its presence byte, zero bytes where it is absent (section 12.2). -/
def optField {α : Type} (n : Nat) (f : α → List Nat) : Option α → List Nat
  | some a => 1 :: f a
  | none => 0 :: zeros n

/-- A 16-bit word. -/
def wordBytes (w : Word16) : List Nat := bytes2 w.toNat

/-- A timer in ticks as seconds, four bytes (section 12.2). A part of a second is left out, be the timer one that counts
up or the movement timer that counts down (R112). DESIGN CHOICE, log entry 63. -/
def timerBytes (t : Nat) : List Nat := bytes4 (t / 2000)

/-! ## Codes, from 1 in the order of the owning table (section 12.2) -/

/-- Line state codes. -/
def LineState.code : LineState → Nat
  | .unconfigured => 1
  | .clocking => 2
  | .listening => 3
  | .joining => 4
  | .member => 5
  | .mute => 6

/-- Channel state codes. -/
def ChState.code : ChState → Nat
  | .unused => 1
  | .idle => 2
  | .ready => 3
  | .running => 4
  | .paused => 5
  | .starved => 6
  | .halted => 7

/-- Resume state codes: those of the channel states. -/
def Resume.code : Resume → Nat
  | .running => 4
  | .starved => 6

/-- Claim state codes (R26). -/
def ClaimState.code : ClaimState → Nat
  | .waiting => 1
  | .holding => 2
  | .conflict => 3

/-- Local state codes (R28). -/
def LocalState.code : LocalState → Nat
  | .asked => 1
  | .waiting => 2
  | .held => 3

/-- Transfer state codes (section 7.2). -/
def XferState.code : XferState → Nat
  | .none => 1
  | .offering => 2
  | .suspended => 3
  | .accepted => 4
  | .ended => 5
  | .awaiting => 6

/-- Turner state codes (R105). -/
def TurnerState.code : TurnerState → Nat
  | .parked => 1
  | .powerWait => 2
  | .travelling => 3
  | .turning => 4
  | .faulted => 5

/-- Step codes, in the order of the tables of R77, R92 and R115. -/
def Step.code : Step → Nat
  | .filling => 1
  | .standing => 2
  | .draining => 3
  | .resting => 4
  | .steadying => 5
  | .captured => 6
  | .offering => 7
  | .casting => 8
  | .castEnded => 9
  | .settling => 1
  | .growing => 4
  | .asking => 5
  | .held => 6
  | .loading => 8
  | .loadEnded => 9
  | .gating => 1
  | .reading => 2

/-- The code of a step by the table of the channel's kind. -/
def stepCode (k : Kind) (st : Option Step) : Nat :=
  match k, st with
  | _, none => 0
  | .box, some .steadying => 2
  | .box, some .captured => 3
  | .kiln, some .captured => 3
  | _, some s => s.code

/-- Start and end mode codes (section 12.2 codes them from 1). -/
def startModeCode : StartMode → Nat
  | .fresh => 1
  | .cont => 2

/-- End mode codes. -/
def endModeCode : EndMode → Nat
  | .hold => 1
  | .blend => 2

/-- Event kind codes (R199). -/
def EventKind.code : EventKind → Nat
  | .phaseDone => 1
  | .paused => 2
  | .starved => 3
  | .halted => 4
  | .pieceIn => 5
  | .pieceOut => 6
  | .unconfirmedOut => 7
  | .offerDeclined => 8
  | .orphan => 9
  | .turnDone => 10
  | .gaugeTaken => 11
  | .shed => 12
  | .sensor => 13
  | .overrun => 14

/-- Fault kind codes (R186). -/
def FaultKind.code : FaultKind → Nat
  | .duplicateAddress => 1
  | .duplicateJoin => 2
  | .configDissent => 3
  | .claimConflict => 4
  | .tableOverflow => 5
  | .twoTurners => 6
  | .bookSkew => 7
  | .xtalLost => 8
  | .restart => 9
  | .configChanged => 10

/-- Result codes (R179, section 12.2). -/
def Result.code : Result → Nat
  | .ok => 0
  | .refused => 1
  | .acceptedPending => 2
  | .badRequest => 3

/-- Refusal reason codes (R199). -/
def Reason.code : Reason → Nat
  | .notInUse => 1
  | .turnerChannel => 2
  | .halted => 3
  | .kindNotValid => 4
  | .fieldMissing => 5
  | .outOfRange => 6
  | .queueFull => 7
  | .noPiece => 8
  | .notRunning => 9
  | .notPaused => 10
  | .alreadyPaused => 11
  | .notHalted => 12
  | .hasPiece => 13
  | .inTransfer => 14
  | .noOffer => 15
  | .discardPending => 16
  | .running => 17
  | .exciseLocked => 18
  | .dutyFixed => 19
  | .wrongStage => 20
  | .bookBusy => 21
  | .bookFull => 22

/-! ## Records -/

/-- A phase record: 46 bytes, as LOAD_PHASE carries it (section 12.2). -/
def recordBytes (r : PhaseRecord) : List Nat :=
  [r.kind.code] ++ bytes2 r.duration ++ optField 2 bytesTemp r.target
    ++ [r.ramp % 256, startModeCode r.startMode, endModeCode r.endMode, r.priority % 256, bit r.sheddable]
    ++ optField 1 byte1 r.water ++ optField 1 byte1 r.power ++ byte1 r.band
    ++ optField 2 bytes2 r.fillLevel ++ optField 1 byte1 r.fillLimit
    ++ optField 1 byte1 r.blowerOn ++ optField 1 byte1 r.blowerOff ++ optField 2 bytes2 r.lot
    ++ optField 1 (fun p => byte1 (pairByte p)) r.dest ++ optField 1 byte1 r.settle
    ++ optField 1 byte1 r.fanBase ++ optField 1 byte1 r.fanGain ++ optField 1 byte1 r.sprayOn
    ++ optField 1 byte1 r.turnLimit ++ optField 1 byte1 r.fanPercent
    ++ optField 1 byte1 r.burnerMax ++ optField 1 byte1 r.breakDelta

/-- The phase record object: the record and the started mark; an empty place gives zero bytes (R65, R181). -/
def placeBytes (r : Option PhaseRecord) (started : Bool) : List Nat :=
  match r with
  | some p => recordBytes p ++ flagByte started
  | none => zeros 47

/-- A piece record (R131). -/
def pieceBytes (p : Piece) : List Nat :=
  wordBytes p.id ++ bytes2 p.lot ++ [p.stage.code] ++ optField 3 bytes3 p.steepGauge
    ++ optField 3 bytes3 p.couchGauge ++ optField 2 bytes2 p.sample ++ optField 2 bytes2 p.moisture
    ++ optField 3 bytes3 p.duty
    ++ [p.phases, bit p.orphan, bit p.deficient, bit p.handGauged, bit p.castInterrupted,
        bit p.unconfirmedOut]

/-- The piece record object (R131). -/
def pieceObject : Option Piece → List Nat
  | some p => pieceBytes p
  | none => zeros 29

/-- The mean of MA (R71). -/
def meanOf (x : Stats) : Option Int := if x.count = 0 then none else some (meanMA x.sumMA x.count)

/-- The statistics of a phase, times in whole minutes (R71). -/
def statsBytes (x : Stats) : List Nat :=
  optField 2 bytesTemp x.minMA ++ optField 2 bytesTemp x.maxMA ++ optField 2 bytesTemp (meanOf x)
    ++ bytes2 (x.outside / 60) ++ bytes3 (x.waterHeld / 60) ++ bytes3 (x.powerHeld / 60)
    ++ bytes2 (x.waiting / 60) ++ [x.sheds]

/-- A completion record (R72). -/
def completionBytes (r : Completion) : List Nat :=
  [r.kind.code, r.reason.code, bit r.flags.blendMissed, bit r.flags.noBreak, bit r.flags.fillLate,
    bit r.flags.orphanStart]
  ++ statsBytes r.stats ++ optField 2 bytesTemp r.endSetpoint ++ optField 2 wordBytes r.piece
  ++ wordBytes r.round

/-- The completion record object (R72). -/
def completionObject : Option Completion → List Nat
  | some r => completionBytes r
  | none => zeros 34

/-- The detail of a claim as a byte (R26). -/
def detailField : Option Detail → List Nat := optField 1 fun d => detailByte (some d)

/-- A Claim Table entry (R26). -/
def claimBytes (e : ClaimEntry) : List Nat :=
  [e.station, e.channel, e.slot, e.resource.code + 1, e.amount, e.priority] ++ bytes2 e.age
    ++ [e.state.code, bit e.shed, bit e.sheddable] ++ detailField e.detail ++ flagByte e.posted

/-- The claim table entry object (R26). -/
def claimObject : Option ClaimEntry → List Nat
  | some e => claimBytes e
  | none => zeros 14

/-- A Peer Table entry (R18). -/
def peerBytes (p : Peer) : List Nat :=
  [if p.present then 1 else 2, p.missed, bit p.home, bit p.available, bit p.change]

/-- A book entry (R148): the span of a GAP alone, the value by its kind. The value has a presence byte, with no byte
after it where it is absent: DEDUCED, log entry 57. -/
def entryBytes (e : Entry) : List Nat :=
  bytes3 e.sequence.toNat
    ++ optField 2 bytes2 (if e.item.kind = .gap then some e.span else none)
    ++ [e.item.kind.code] ++ wordBytes e.round ++ optField 2 wordBytes e.item.piece ++ [e.station]
    ++ optField 1 byte1 e.item.channel
    ++ (match e.item.value with
        | .none => [0]
        | v => 1 :: valueBytes v)
    ++ [bit e.item.hand, bit e.item.replaced, bit e.item.deficient]

/-- The book entry object (R158); an empty entry has the length of a GAP's (log entry 57). -/
def entryObject : Option Entry → List Nat
  | some e => entryBytes e
  | none => zeros 19

/-- An event queue entry (R199). -/
def eventBytes (e : Event) : List Nat :=
  [e.kind.code] ++ optField 1 (fun c : Fin 6 => byte1 c.val) e.channel ++ optField 2 wordBytes e.piece
    ++ wordBytes e.round ++ e.value

/-- What POP_EVENT returns (R185). -/
def eventObject : Option Event → List Nat
  | some e => eventBytes e
  | none => zeros 12

/-- The fault record (R186). -/
def faultBytes (r : FaultRecord) : List Nat :=
  [r.kind.code] ++ optField 1 byte1 r.station ++ optField 1 byte1 r.channel ++ wordBytes r.round
    ++ flagByte r.more

/-- What READ_FAULT returns (R187). -/
def faultObject : Option FaultRecord → List Nat
  | some r => faultBytes r
  | none => zeros 8

/-! ## Channel status (R74, R166, R112, R130) -/

/-- A wait set as a byte, bit n for the n-th reason of R54 (section 12.2). -/
def waitByte (w : WaitSet) : Nat :=
  bit w.claim + bit w.line * 2 + bit w.gauge * 4 + bit w.offer * 8 + bit w.turn * 16

/-- The two bytes of a halt (R74): the reason, and the check reason of PHASE_INCONSISTENT. That the second byte gives
the input of a SENSOR halt, as R199 does in the HALTED event, is DESIGN CHOICE, log entry 75. -/
def haltBytes : Option HaltReason → List Nat
  | some r => [r.code, r.detail]
  | none => [0, 0]

/-- The fields of R74. -/
def channelBytes (h : Channel) : List Nat :=
  [h.kind.code, if h.kind = .turner then 0 else h.state.code, (h.pause.map PauseReason.code).getD 0,
    (h.resume.map Resume.code).getD 0]
  ++ haltBytes h.halt
  ++ [waitByte h.wait, bit h.stepFlag, bit h.current.isSome, bit h.next.isSome, bit h.started]
  ++ timerBytes h.timer ++ optField 2 bytesTemp h.setpoint ++ optField 2 bytesTemp h.lastEnd
  ++ [bit h.due.isSome, (h.due.map EndReason.code).getD 0, bit h.piece.isSome]
  ++ statsBytes h.stats

/-- The transfer fields of chapter 7, the partner in one pair byte (DEDUCED, log entry 69). -/
def xferBytes (x : Xfer) : List Nat :=
  [x.state.code] ++ optField 1 (fun p => byte1 (pairByte p)) x.partner ++ optField 2 wordBytes x.piece
    ++ [x.count] ++ timerBytes x.limit

/-- One input of the most recent arrival (R166). -/
def inputBytes (x : InputState) : List Nat :=
  optField 2 bytesTemp x.value ++ [bit x.replaced, bit x.faulted, x.outCount]

/-- The arrival fields and the drive outputs (R166): input by input, MA to MD, each value with its marks and its count
after it. MD has neither marks nor a count, and shows three zero bytes in their place. DESIGN CHOICE, log entry 66. -/
def State.arrivalBytes (s : State) (c : Fin 6) : List Nat :=
  let h := s.ch c
  let o := s.outputs c
  inputBytes h.ma ++ inputBytes h.mb ++ inputBytes h.mc ++ optField 2 bytesTemp h.mdValue ++ [0, 0, 0]
    ++ [o.d0, o.d1, o.d2, o.d3]

/-- The breakthrough count of a DRY with a break delta (R130). -/
def breakField (h : Channel) : Option Nat :=
  if h.inPhase .dry && ((h.current.bind (·.breakDelta)).isSome) then some h.breakCount else none

/-- The step, gate time and reading count of a SAMPLE (R130): one presence byte before the three together, zeros
otherwise. DESIGN CHOICE, log entry 64. -/
def sampleField (h : Channel) : List Nat :=
  if h.inPhase .sample then
    1 :: stepCode .kiln h.step :: timerBytes h.gate ++ [h.readings.length]
  else zeros 7

/-- The kiln fields of R130. -/
def State.kilnBytes (s : State) (c : Fin 6) : List Nat :=
  let h := s.ch c
  [h.firing, s.fanOutput c, h.flame] ++ optField 1 byte1 (breakField h) ++ sampleField h
    ++ flagByte (!h.captures.isEmpty)

/-- The local state of the turner's POWER claim (R112). -/
def State.turnerClaim (s : State) (c : Fin 6) : Nat :=
  match (s.claimsOn c .power).head? with
  | some o => o.state.code
  | none => 0

/-- An order's fields: box station, box channel, bay, order round (R105). -/
def orderBytes (o : Order) : List Nat := [o.box.station, o.box.channel, o.bay] ++ wordBytes o.round

/-- The turner fields of R112 after the kind. -/
def State.turnerBytes (s : State) (c : Fin 6) : List Nat :=
  let t := s.turner
  [t.state.code] ++ optField 1 byte1 t.position ++ optField 5 orderBytes t.order ++ timerBytes t.timer
    ++ [t.overload, s.turnerClaim c, t.turnends.length, bit t.available]

/-- The fields of the channel's kind: the step of a steep (R77) or box with its last air-on value (R91), R130, R112. -/
def State.kindBytes (s : State) (c : Fin 6) : List Nat :=
  let h := s.ch c
  match h.kind with
  | .steep => [stepCode .steep h.step]
  | .box => stepCode .box h.step :: optField 2 bytesTemp h.lastAirOn
  | .kiln => s.kilnBytes c
  | .turner => s.turnerBytes c
  | .unused => []

/-- The channel status object (R181); an UNUSED channel gives its kind and state. The transfer fields of a TURNER
channel, which has no Transfer Unit, are those of a unit in NONE (DESIGN CHOICE, log entry 76). -/
def State.channelStatus (s : State) (c : Fin 6) : List Nat :=
  if s.kindOf c = .unused then [Kind.unused.code, ChState.unused.code]
  else
    channelBytes (s.ch c) ++ xferBytes (s.ch c).xfer ++ s.arrivalBytes c ++ s.kindBytes c

/-! ## Station status (R181, R176, R158) -/

/-- The six change flags, one byte each. -/
def flagBytes (m : Mask) : List Nat :=
  [bit m.peer, bit m.lineState, bit m.xtal, bit m.bookFull, bit m.fault, bit m.event]

/-- The clock fields of R176: crystal ready, the wait running, the source of process time: crystal 1, internal
oscillator 2. No table numbers the two clocks: DESIGN CHOICE, log entry 56. -/
def clockBytes (t : Timebase) : List Nat :=
  [bit t.ready, bit (t.stab.isSome && !t.ready), if t.ready then 1 else 2]

/-- A missed span: start and count. -/
def missedBytes (m : Missed) : List Nat := bytes3 m.start.toNat ++ bytes3 m.count

/-- The captures in the wait list (R158), a SAMPLE pair counted as two (DESIGN CHOICE, log entry 73). -/
def State.waitingCaptures (s : State) : Nat :=
  total (s.book.waiting.map fun c => (s.ch c).captures.length)

/-- The book fields of R158, ELOCK's level last: 1 while the input is low and so active, 0 while it is high. DESIGN
CHOICE, log entry 65. -/
def State.bookBytes (s : State) : List Nat :=
  bytes3 s.book.count.toNat ++ [bit s.book.numbered, s.book.entries.length, s.book.pend.length,
    bit s.book.startDue]
  ++ optField 6 missedBytes s.book.missed ++ [s.waitingCaptures] ++ bytes2 s.book.sample
  ++ flagByte s.elock

/-- The station status object (R181), ATTN's level as 1 while it is active and 0 while it is not (DESIGN CHOICE, log
entry 83). -/
def State.stationStatus (s : State) : List Nat :=
  [s.cfg.address, s.line.state.code] ++ wordBytes s.line.round
    ++ [bit s.line.clean, bit s.line.dissenting, bit s.line.isolated, s.line.muteCount]
    ++ wordBytes s.cfg.settingsDigest ++ wordBytes s.cfg.calibrationDigest ++ clockBytes s.tb
    ++ s.bookBytes ++ flagByte s.loader.hold ++ flagBytes s.changeFlags
    ++ [maskByte s.panel.mask, bit s.attn, s.panel.events.length, s.panel.overflow,
        bit s.panel.record.isSome]

/-! ## The reply buffer (R178) -/

/-- The reply buffer takes the reply to the request of a code. -/
def State.answer (s : State) (code : Byte) (result : Result) (data : List Nat) : State :=
  { s with panel := { s.panel with reply := { code := code, result := result, data := toBytes data } } }

/-- OK with data. -/
def State.okData (s : State) (code : Byte) (data : List Nat) : State := s.answer code .ok data

/-- OK without data. -/
def State.ok (s : State) (code : Byte) : State := s.answer code .ok []

/-- REFUSED with a reason (section 12.2). -/
def State.refuse (s : State) (code : Byte) (r : Reason) : State := s.answer code .refused [r.code]

/-- ACCEPTED_PENDING (R179). -/
def State.taken (s : State) (code : Byte) : State := s.answer code .acceptedPending []

/-- BAD_REQUEST (R179, R198). -/
def State.bad (s : State) (code : Byte) : State := s.answer code .badRequest []

/-- A reply as the bytes shifted out (section 12.2). -/
def replyBytes (r : Reply) : List Byte :=
  r.code :: BitVec.ofNat 8 r.result.code :: BitVec.ofNat 8 r.data.length :: r.data

/-- The bit given on PDO at the n-th PCLK cycle of a transaction (R178): the reply from its first byte on, high bit
first, ones once it is exhausted and while the port takes no requests. -/
def State.pdoBit (s : State) (n : Nat) : Bool :=
  if s.busy then true
  else
    match (replyBytes s.panel.reply)[n / 8]? with
    | some b => b.getLsbD (7 - n % 8)
    | none => true

end Sys2Proof.Machine
end

