-- ==== Sys2Proof/Machine/ResetCommands.lean ====
section
/-! DEFINITION. Resets, the load and the Timebase: the meanings of POWER_UP_RESET to CRYSTAL_LOST (chapter 11, section 9.4). -/

namespace Sys2Proof.Machine

/-- The outcome of every command: the station goes on. -/
abbrev Out := Host.Outcome State Fault Refusal

/-- POWER_UP_RESET (R189): the supply comes good; held where RESET is low. -/
def execPowerUpReset (resetLow : Bool) (s : State) : Out := .next (s.poweredUp resetLow)

/-- PIN_RESET (R189): RESET has been low for 1 ms. -/
def execPinReset (s : State) : Out := .next s.takePin

/-- RESET_END (R189): RESET goes high. -/
def execResetEnd (s : State) : Out := .next s.endReset

/-- CONFIG_LOAD_GOOD (R191): the load ends with a good image. -/
def execConfigLoadGood (image : List Byte) (s : State) : Out := .next (s.endLoad image)

/-- CONFIG_LOAD_BAD (R190): the load ends with a bad image. -/
def execConfigLoadBad (s : State) : Out := .next s.endBadLoad

/-- STABILIZATION_RESTART (R174): 1 ms without an edge while the flag is clear. -/
def execStabilizationRestart (s : State) : Out := .next s.restartWait

/-- CRYSTAL_READY (R174): the stabilization timer reaches 250 ms. -/
def execCrystalReady (s : State) : Out := .next s.crystalIsReady

/-- CRYSTAL_LOST (R175): 1 ms without an edge while the flag is set. -/
def execCrystalLost (s : State) : Out := .next s.crystalIsLost

end Sys2Proof.Machine
end

