-- ==== Sys2Proof/Machine/LineCommands.lean ====
section
/-! DEFINITION. The line: the meanings of COLD_WAIT_EXPIRY to PEER_LOST and of LINE_FRAME_START (chapter 1), and of the two
transfer timers of chapter 7. A command that names an instant is that instant (log entry 2). -/

namespace Sys2Proof.Machine

/-- The station hears the line and sends nothing: a frame on it can be heard. -/
def State.hearing (s : State) : Bool := s.line.state.hears && s.line.sending.isNone

/-- The station may start a frame (R1): crystal ready, line silent. -/
def State.maySend (s : State) : Bool := s.tb.ready && s.lineIdle

/-- The effect of COLD_WAIT_EXPIRY (R7): the cold opening is sent, or waits for the end of the frame on the line. -/
def State.coldExpires (s : State) : State :=
  if s.line.state = .listening && s.line.coldWait.isSome then
    if s.maySend then s.startCold
    else s.modLine fun l => { l with coldWait := none, coldDue := true }
  else s

/-- COLD_WAIT_EXPIRY (R7). -/
def execColdWaitExpiry (s : State) : Out := .next s.coldExpires

/-- JOIN_COLD_WAIT_EXPIRY (R8): back to LISTENING. While the own JOIN is being sent it does nothing: the station returns to
LISTENING only where the JOIN has ended without making it MEMBER. DESIGN CHOICE, log entry 59. -/
def execJoinColdWaitExpiry (s : State) : Out :=
  .next (if s.line.state = .joining && s.line.sending.isNone then s.enterListening else s)

/-- A joiner may send in this window (R8): no frame has started in it. -/
def State.mayJoin (s : State) : Bool :=
  s.line.state == .joining && s.maySend && !s.line.joinBlocked && s.position == .inWindow

/-- JOIN_DELAY_EXPIRY (R8): the JOIN frame is sent. -/
def execJoinDelayExpiry (s : State) : Out := .next (if s.mayJoin then s.startJoin else s)

/-- The own place on the opening ladder (R12). -/
def State.openingPlace (s : State) : Option Nat := placeOf s.cfg.address s.present

/-- The line has been silent since O, for a station numbered 1 or more (R12). -/
def State.silentSinceO (s : State) : Bool := match s.afterO with
  | some t => t ≤ s.line.silence
  | none => true

/-- The line stands between the close of its join window and the next opening, with an opening time held (R12). -/
def State.beforeOpening (s : State) : Bool :=
  s.line.sinceOpening.isSome && (match s.line.roundPart with
    | .closed _ => true
    | .turns => false
    | .window _ => false)

/-- The opening instant of place `k` has come: the times stand at it at least. -/
def State.atOpening (s : State) (k : Nat) : State :=
  s.modLine fun l =>
    { l with
      sinceOpening := l.sinceOpening.map fun t => max t (s.period + k * slot)
      roundPart := (match l.roundPart with
        | .closed since => .closed (max since (k * slot))
        | p => p)
      silence := max l.silence (k * slot) }

/-- The effect of OPENING_INSTANT_REACHED (R12, R13). -/
def State.opens (s : State) : State :=
  match s.openingPlace with
  | some k =>
    if s.line.state = .member && s.maySend && s.beforeOpening && (k == 0 || s.silentSinceO) then
      (s.atOpening k).startOpening
    else s
  | none => s

/-- OPENING_INSTANT_REACHED (R12). -/
def execOpeningInstantReached (s : State) : Out := .next s.opens

/-- The own place on the silence ladder, from 0 (R15). -/
def State.turnPlace (s : State) : Option Nat :=
  match s.line.lastSender with
  | some x => placeOf s.cfg.address (s.ladder x)
  | none => none

/-- The effect of TURN_SLOT_REACHED (R15): the MEMBER starts its turn. -/
def State.takesTurn (s : State) : State :=
  match s.turnPlace with
  | some p =>
    if s.line.state = .member && s.maySend && !s.line.turnTaken && s.line.roundPart == .turns then
      (s.modLine fun l => { l with silence := max l.silence ((p + 1) * slot) }).startTurn false false
        s.line.round
    else s
  | none => s

/-- TURN_SLOT_REACHED (R15). -/
def execTurnSlotReached (s : State) : Out := .next s.takesTurn

/-- OWN_FRAME_ABORTED (R1). `otherOnLine`: another frame stays on the line. -/
def execOwnFrameAborted (otherOnLine : Bool) (s : State) : Out :=
  .next (match s.line.sending with
    | some own => s.aborted own otherOnLine
    | none => s)

/-- The abort that brings the consecutive-abort count to 2 (R1, R9): an own frame in progress ends by it, and the station
goes MUTE. -/
def State.abortsTwice (s : State) : State :=
  let s1 := match s.line.sending with
    | some own => s.abortEnds own false
    | none => s
  (s1.modLine fun l => { l with aborts := 2 }).enterMute

/-- MUTE_ENTRY (R9): the consecutive-abort count reaches 2 in MEMBER or JOINING. -/
def execMuteEntry (s : State) : Out :=
  .next (if (s.line.state = .member || s.line.state = .joining) && 1 ≤ s.line.aborts then s.abortsTwice
    else s)

/-- OWN_TURN_READ_BACK (R4). -/
def execOwnTurnReadBack (s : State) : Out :=
  .next (match s.line.sending with
    | some (.turn f false ok) => s.turnRead f ok
    | _ => s)

/-- OWN_JOIN_READ_BACK (R4). -/
def execOwnJoinReadBack (s : State) : Out :=
  .next (match s.line.sending with
    | some (.join _) => s.joinRead
    | _ => s)

/-- COLD_OPENING_READ_BACK (R7). -/
def execColdOpeningReadBack (s : State) : Out :=
  .next (match s.line.sending with
    | some (.turn f true ok) => s.coldRead f ok
    | _ => s)

/-- VALID_TURN_FRAME_HEARD (R2). Bytes that are no valid TURN frame are a check failure (R197; log entry 8). -/
def execValidTurnFrameHeard (frame : List Byte) (s : State) : Out :=
  .next (if s.hearing then (match decodeTurn frame with
      | some f => s.hearTurn f
      | none => s.hearGarbled)
    else s)

/-- VALID_JOIN_FRAME_HEARD (R17). Bytes that are no valid JOIN frame are a check failure (R197; log entry 8). -/
def execValidJoinFrameHeard (frame : List Byte) (s : State) : Out :=
  .next (if s.hearing then (match decodeJoin frame with
      | some f => s.hearJoin f
      | none => s.hearGarbled)
    else s)

/-- GARBLED_FRAME (R2, R13, R16). -/
def execGarbledFrame (s : State) : Out := .next (if s.hearing then s.hearGarbled else s)

/-- The effect of JOIN_WINDOW_OPENS (R15, R16): the whole ladder is charged. -/
def State.windowBySilence (s : State) : State :=
  match s.line.lastSender with
  | some x =>
    if s.line.state.hears && s.lineIdle && s.line.roundPart == .turns then
      (s.chargeAll (s.ladder x)).openWindow
    else s
  | none => s

/-- JOIN_WINDOW_OPENS (R15). -/
def execJoinWindowOpens (s : State) : Out := .next s.windowBySilence

/-- JOIN_WINDOW_CLOSES (R17). -/
def execJoinWindowCloses (s : State) : Out :=
  .next (if s.line.state.hears && s.lineIdle && s.position == .inWindow then s.closeWindow else s)

/-- JOINING_ENTRY (R6): the complete-round count reaches 2. -/
def execJoiningEntry (s : State) : Out :=
  .next (if s.line.state = .listening && s.line.openingHeard && 1 ≤ s.line.rounds then
      (s.modLine fun l => { l with rounds := 2 }).enterJoining
    else s)

/-- MUTE_TIMER_EXPIRY (R9). -/
def execMuteTimerExpiry (s : State) : Out := .next s.muteDown

/-- MUTE_END (R9): the MUTE count reaches 0. -/
def execMuteEnd (s : State) : Out :=
  .next (if s.line.state = .mute && s.line.muteCount ≤ 1 then s.enterListening else s)

/-- ISOLATION_TIMER_EXPIRY (R22). -/
def execIsolationTimerExpiry (s : State) : Out :=
  .next (if s.line.state = .member && s.line.isolation.isSome then s.isolate else s)

/-- PEER_LOST (R19): the missed-turn count of a station reaches 3. -/
def execPeerLost (station : Nat) (s : State) : Out :=
  .next (if s.line.state.hears && 2 ≤ (s.peer station).missed then s.charge station else s)

/-- LINE_FRAME_START (R15): the silence being measured ends, and where the frame began is kept (R16). -/
def execLineFrameStart (s : State) : Out :=
  .next (if s.line.state.hears && s.lineIdle then s.startFrame else s)

/-- The ACCEPT_LIMIT timer of channel `c` runs (R142): AWAITING from another station. -/
def State.limitRuns (s : State) (c : Fin 6) : Bool :=
  s.vessel c && (s.ch c).xfer.state == .awaiting
    && (s.ch c).xfer.partner.map (·.station) != some s.cfg.address

/-- ORPHAN_ACCEPT_LIMIT (R142). -/
def execOrphanAcceptLimit (channel : Fin 6) (s : State) : Out :=
  .next (if s.limitRuns channel then s.makeOrphan channel 2 else s)

/-- OFFER_UNANSWERED (R133): the offer round count reaches 8. -/
def execOfferUnanswered (channel : Fin 6) (s : State) : Out :=
  .next (if s.vessel channel && s.countsOffers channel && 7 ≤ (s.ch channel).xfer.count then
      s.offerUnanswered channel
    else s)

end Sys2Proof.Machine
end

