-- ==== Sys2Proof/Machine/ArrivalCommands.lean ====
section
/-! DEFINITION. MEASUREMENT_ARRIVAL (R166) and the judgments of an arrival that stand as commands of their own: each acts
where its count stands one short of its limit or at it (log entry 3). -/

namespace Sys2Proof.Machine

/-- MEASUREMENT_ARRIVAL (R166). -/
def execMeasurementArrival (channel : Fin 6) (raw : RawArrival) (s : State) : Out :=
  .next (if s.arrives channel then s.arrival channel raw else s)

/-- An input at its third out-of-range arrival (R169, R170). -/
def faultedInput (x : InputState) : InputState :=
  { x with outCount := 3, faulted := true, value := x.lastGood, replaced := true }

/-- The channel with an input's state changed. -/
def setInput (h : Channel) (i : Input) (x : InputState) : Channel :=
  match i with
  | .ma => { h with ma := x }
  | .mb => { h with mb := x }
  | .mc => { h with mc := x }

/-- The input's count stands at 2 or 3 and it is not faulted yet. -/
def State.faultDue (s : State) (c : Fin 6) (i : Input) : Bool :=
  let x := (s.ch c).input i
  s.arrives c && (quantityOf (s.ch c).kind i).isSome && 2 ≤ x.outCount && !x.faulted

/-- SENSOR_FAULT (R170, R171). -/
def execSensorFault (channel : Fin 6) (input : Input) (s : State) : Out :=
  .next (if s.faultDue channel input then
      ((s.modCh channel fun h => setInput h input (faultedInput (h.input input))).sensorEvent channel input
        1).judgeInputs channel
    else s)

/-- The channel is RUNNING in a started phase. -/
def State.runs (s : State) (c : Fin 6) : Bool :=
  s.vessel c && (s.ch c).state == .running && (s.ch c).started

/-- The run stands at 9 arrivals, the level lies in its band (R84), and no capture of the channel waits. -/
def State.nearlySteady (s : State) (c : Fin 6) (level : Nat) : Bool :=
  let r := (s.ch c).steady
  s.runs c && (s.ch c).step == some .steadying && r.count == 9
    && ((level : Int) - r.first).natAbs ≤ 5 && !s.book.waiting.contains c

/-- LEVEL_STEADY (R84, R85, R94): the run's tenth arrival brings `level`. -/
def execLevelSteady (channel : Fin 6) (level : Nat) (s : State) : Out :=
  .next (if s.nearlySteady channel level then s.judgeLevel channel (some level) else s)

/-- The reading set stands at 9 values (R125), and no capture of the channel waits. -/
def State.nearlyRead (s : State) (c : Fin 6) : Bool :=
  s.runs c && (s.ch c).step == some .reading && (s.ch c).readings.length == 9
    && !s.book.waiting.contains c

/-- MOISTURE_MADE (R126): the set's tenth value is `reading`. -/
def execMoistureMade (channel : Fin 6) (reading : Nat) (s : State) : Out :=
  .next (if s.nearlyRead channel then s.addReading channel reading else s)

/-- The tenth breakthrough arrival can come (R121). -/
def State.nearlyThrough (s : State) (c : Fin 6) : Bool :=
  s.runs c && (s.ch c).inPhase .dry && ((s.ch c).current.bind (·.breakDelta)).isSome
    && (s.ch c).wait == {} && s.hasHeld c .power && 9 ≤ (s.ch c).breakCount

/-- BREAKTHROUGH (R121). -/
def execBreakthrough (channel : Fin 6) (s : State) : Out :=
  .next (if s.nearlyThrough channel then
      (s.modCh channel fun h => { h with breakCount := 10 }).complete channel .breakthrough
    else s)

/-- The third arrival without flame can come (R118). -/
def State.nearlyOut (s : State) (c : Fin 6) : Bool :=
  s.vessel c && (s.ch c).kind == .kiln && (burnsBy (s.ch c)).isSome && 1 ≤ (s.ch c).firing
    && 2 ≤ (s.ch c).flame

/-- FLAME_FAIL (R118). -/
def execFlameFail (channel : Fin 6) (s : State) : Out :=
  .next (if s.nearlyOut channel then
      (s.modCh channel fun h => { h with flame := 3 }).halt channel .flameFail
    else s)

/-- The fan law runs on a box (R95). -/
def State.fanRuns (s : State) (c : Fin 6) : Bool :=
  s.vessel c && (s.ch c).kind == .box && ((s.ch c).drivesKind.map fanLawKind).getD false

/-- The fifth power-limited arrival can come, with no top-up standing (R96). -/
def State.nearlyLimited (s : State) (c : Fin 6) : Bool :=
  s.fanRuns c && s.powerLimited c && !s.topUpStands c && 4 ≤ (s.ch c).limited

/-- POWER_LIMITED_TOP_UP (R96). -/
def execPowerLimitedTopUp (channel : Fin 6) (s : State) : Out :=
  .next (if s.nearlyLimited channel then s.askTopUp channel else s)

/-- The third overload arrival can come (R110). -/
def State.nearlyOverloaded (s : State) (c : Fin 6) : Bool :=
  s.live && (s.ch c).kind == .turner && s.turner.moving && s.turnerGate && 2 ≤ s.turner.overload

/-- TURNER_OVERLOAD_FAULT (R110). -/
def execTurnerOverloadFault (channel : Fin 6) (s : State) : Out :=
  .next (if s.nearlyOverloaded channel then
      (s.modTurner fun t => { t with overload := 3 }).turnerFaults
    else s)

end Sys2Proof.Machine
end

