-- ==== Sys2Proof/Machine/TimerCommands.lean ====
section
/-! DEFINITION. The process timers: the meanings of PHASE_DURATION_REACHED to TURNER_TURN_DONE. Each brings its timer to
its limit and acts where nothing but time stood against it (log entry 2). -/

namespace Sys2Proof.Machine

/-- A wait reason freezes the phase timer (R54). -/
def WaitSet.freezes (w : WaitSet) : Bool := w.claim || w.line || w.gauge || w.offer

/-- The phase timer runs: RUNNING in a started phase, nothing freezes it (R53, R54). -/
def State.timerRuns (s : State) (c : Fin 6) : Bool := s.runs c && !(s.ch c).wait.freezes

/-- A cause of completion can come: the timer runs, or the channel is PAUSED in a started phase (R55, R57). -/
def State.mayFinish (s : State) (c : Fin 6) : Bool :=
  s.timerRuns c || (s.vessel c && (s.ch c).state == .paused && (s.ch c).started)

/-- The phase timer brought to a value at least, and not past its top (R53). -/
def State.timerAt (s : State) (c : Fin 6) (t : Nat) : State :=
  s.modCh c fun h => { h with timer := max h.timer (min t timerTop) }

/-- The phase timer value at which a phase ends by time (R81, R83, R97, R122 to R124, R128), or its cast does (R87,
R101). The timer's top ends a WET in STANDING and an AIR in RESTING: reached in FILLING or DRAINING it ends nothing, and
the phase completes as its stand or rest begins. DEDUCED, log entry 42. -/
def durationLimit (h : Channel) (r : PhaseRecord) : Option Nat :=
  match r.kind with
  | .wet => if h.step = some .standing then some timerTop else none
  | .air => if h.step = some .resting then some timerTop else none
  | .cast => if h.step = some .casting then some (minutes r.duration) else none
  | .loadout => if h.step = some .loading then some (minutes r.duration) else none
  | .grow => some (minutes r.duration)
  | .dry => some (minutes r.duration)
  | .peat => some (minutes r.duration)
  | .cure => some (minutes r.duration)
  | .strip => some (minutes r.duration)
  | .gauge => none
  | .couch => none
  | .turn => none
  | .load => none
  | .sample => none

/-- The flags a phase sets as its duration is reached: NO_BREAK of a DRY with a break delta (R122). -/
def durationFlags (h : Channel) (r : PhaseRecord) : Channel :=
  if r.kind = .dry && r.breakDelta.isSome then { h with flags := { h.flags with noBreak := true } } else h

/-- What the duration does (R53, R87, R101, R122, R128). A cast ends by it only while RUNNING. -/
def State.durationDone (s : State) (c : Fin 6) (r : PhaseRecord) : State :=
  match r.kind with
  | .cast => if s.timerRuns c then s.castEnd c else s
  | .loadout => if s.timerRuns c then s.castEnd c else s
  | .strip => s.finish c .stripped
  | _ => (s.modCh c fun h => durationFlags h r).finish c .time

/-- The effect of PHASE_DURATION_REACHED. -/
def State.durationReached (s : State) (c : Fin 6) : State :=
  match (s.ch c).current with
  | none => s
  | some r =>
    match durationLimit (s.ch c) r with
    | none => s
    | some t =>
      if s.mayFinish c && (s.ch c).due.isNone then (s.timerAt c t).durationDone c r else s

/-- PHASE_DURATION_REACHED (R53). -/
def execPhaseDurationReached (channel : Fin 6) (s : State) : Out := .next (s.durationReached channel)

/-- The timer value at which a stand or rest is over (R81, R83). -/
def standLimit (h : Channel) : Option Nat :=
  match h.phase, h.current, h.standMark with
  | some .wet, some r, some m => if h.step = some .standing then some (m + minutes r.duration) else none
  | some .air, some r, some m => if h.step = some .resting then some (m + minutes r.duration) else none
  | _, _, _ => none

/-- STAND_TIME_REACHED (R81, R83). -/
def execStandTimeReached (channel : Fin 6) (s : State) : Out :=
  .next (match standLimit (s.ch channel) with
    | some t =>
      if s.mayFinish channel && (s.ch channel).due.isNone then
        (s.timerAt channel t).finish channel .time
      else s
    | none => s)

/-- The timer value of a fill limit not reached yet (R80). -/
def fillLimitOf (h : Channel) : Option Nat :=
  if h.inPhase .wet && h.step == some .filling && !h.flags.fillLate then
    (h.current.bind (·.fillLimit)).map minutes
  else none

/-- FILL_LIMIT_REACHED (R80). -/
def execFillLimitReached (channel : Fin 6) (s : State) : Out :=
  .next (match fillLimitOf (s.ch channel) with
    | some t =>
      if s.timerRuns channel then
        (s.timerAt channel t).modCh channel fun h => { h with flags := { h.flags with fillLate := true } }
      else s
    | none => s)

/-- The timer value of a settle's end (R93). -/
def settleLimit (h : Channel) : Option Nat :=
  if h.inPhase .couch && h.step == some .settling then (h.current.bind (·.settle)).map minutes else none

/-- SETTLE_END (R93). -/
def execSettleEnd (channel : Fin 6) (s : State) : Out :=
  .next (match settleLimit (s.ch channel) with
    | some t =>
      if s.timerRuns channel then
        (s.timerAt channel t).modCh channel fun h => { h with step := some .steadying, steady := {} }
      else s
    | none => s)

/-- The timer value of a turn limit (R100). -/
def turnLimitOf (h : Channel) : Option Nat :=
  if h.inPhase .turn then (h.current.bind (·.turnLimit)).map minutes else none

/-- TURN_LIMIT_REACHED (R100). -/
def execTurnLimitReached (channel : Fin 6) (s : State) : Out :=
  .next (match turnLimitOf (s.ch channel) with
    | some t =>
      if s.mayFinish channel && (s.ch channel).due.isNone then
        (s.timerAt channel t).turnEnds channel .turnMissed
      else s
    | none => s)

/-- The kinds a BLEND end can act on: those that use a target setpoint and that their duration times. A TURN's and a
SAMPLE's duration has no effect (R99, section 6.7), so they have no blend window and end under BLEND as under HOLD, with
no flag. DEDUCED, log entry 39. -/
def blends : PhaseKind → Bool
  | .turn => false
  | .sample => false
  | k => usesTarget k

/-- The timer value at which the blend window begins (R68), until it has begun. -/
def blendLimit (h : Channel) : Option Nat :=
  match h.phase, h.current with
  | some _, some r =>
    if blends r.kind && r.endMode == .blend && h.blend == .no then (blendMinute r).map minutes else none
  | _, _ => none

/-- The target of a record whose kind uses one (R68). -/
def targetOf (r : PhaseRecord) : Option Int := if usesTarget r.kind then r.target else none

/-- The blend window begins at phase time `t` (R68). -/
def beginBlend (h : Channel) (t : Nat) : Channel :=
  match h.next.bind targetOf with
  | some t' => { h with blend := .moving t t' }
  | none => { h with blend := .missed, flags := { h.flags with blendMissed := true } }

/-- BLEND_WINDOW_BEGINS (R68). -/
def execBlendWindowBegins (channel : Fin 6) (s : State) : Out :=
  .next (match blendLimit (s.ch channel) with
    | some t =>
      if s.timerRuns channel then (s.timerAt channel t).modCh channel fun h => beginBlend h t else s
    | none => s)

/-! ## Blower and spray clocks (R77, R81, R83, R92, R97) -/

/-- The on-time and the whole cycle of a blower, in ticks (R81). -/
def blowerCycle (h : Channel) : Option (Nat × Nat) :=
  match h.drivesBy with
  | some r =>
    match r.kind, r.blowerOn, r.blowerOff with
    | .wet, some n, some f => some (minutes n, minutes (n + f))
    | _, _, _ => none
  | none => none

/-- A clock brought to its next on-edge, or left where it stands in an on-interval. -/
def toOnEdge (t on_ cycle : Nat) : Nat := if t % cycle < on_ then t else (t / cycle + 1) * cycle

/-- A clock brought to its next off-edge, or left where it stands in an off-interval. -/
def toOffEdge (t on_ cycle : Nat) : Nat := if t % cycle < on_ then t / cycle * cycle + on_ else t

/-- The effect of BLOWER_ON_EDGE (R81). -/
def State.blowerOnEdge (s : State) (c : Fin 6) : State :=
  match blowerCycle (s.ch c), (s.ch c).blower with
  | some (on_, cycle), some t =>
    if s.vessel c && !(s.ch c).blowerOn then
      s.modCh c fun h => { h with blower := some (toOnEdge t on_ cycle), blowerOn := true }
    else s
  | _, _ => s

/-- BLOWER_ON_EDGE (R81). -/
def execBlowerOnEdge (channel : Fin 6) (s : State) : Out := .next (s.blowerOnEdge channel)

/-- The effect of BLOWER_OFF_EDGE (R81): the blower stops, and its POWER claim comes to its shed point (R48). -/
def State.blowerOffEdge (s : State) (c : Fin 6) : State :=
  match blowerCycle (s.ch c), (s.ch c).blower with
  | some (on_, cycle), some t =>
    if s.vessel c && (s.ch c).blowerOn then
      (s.modCh c fun h => { h with blower := some (toOffEdge t on_ cycle), blowerOn := false }).shedPoint
        c [.power]
    else s
  | _, _ => s

/-- BLOWER_OFF_EDGE (R81). -/
def execBlowerOffEdge (channel : Fin 6) (s : State) : Out := .next (s.blowerOffEdge channel)

/-- The next 15-minute edge of an AIR rest (R83). -/
def restEdge (h : Channel) : Nat := minutes (15 * (h.restEdges + 1))

/-- The rest of an AIR is marked off by its blower clock (R83, R89). -/
def Channel.resting (h : Channel) : Bool := h.drivesKind == some .air && h.step == some .resting

/-- The shed point of an AIR rest: a shed of the base or of the top-up sets CLAIM_WAIT on the phase in progress (R83). That
either does is DEDUCED, log entry 43; that none does after the completion, in STARVED and PAUSED(STEP), log entry 50. -/
def State.restShed (s : State) (c : Fin 6) : State :=
  if (s.postedOf c [.power]).isEmpty then s
  else
    (s.shedPoint c [.power]).modCh c fun h =>
      { h with wait := { h.wait with claim := h.wait.claim || h.started } }

/-- The effect of AIR_REST_EDGE (R83). -/
def State.airRestEdge (s : State) (c : Fin 6) : State :=
  match (s.ch c).blower with
  | some t =>
    if s.vessel c && (s.ch c).resting then
      (s.modCh c fun h =>
        { h with blower := some (max t (restEdge h)), restEdges := h.restEdges + 1 }).restShed c
    else s
  | none => s

/-- AIR_REST_EDGE (R83). -/
def execAirRestEdge (channel : Fin 6) (s : State) : Out := .next (s.airRestEdge channel)

/-- One spray cycle, 600 s (R97). -/
def sprayCycle : Nat := seconds 600

/-- The spray-on part of a cycle, where it has both edges (R97). -/
def sprayPart (h : Channel) : Option Nat :=
  match h.drivesBy with
  | some r =>
    match r.kind, r.sprayOn with
    | .grow, some n => if 1 ≤ n && n ≤ 9 then some (minutes n) else none
    | _, _ => none
  | none => none

/-- The effect of SPRAY_INTERVAL_EDGE (R97). -/
def State.sprayEdge (s : State) (c : Fin 6) : State :=
  match sprayPart (s.ch c), (s.ch c).spray with
  | some on_, some t =>
    if s.vessel c then
      s.modCh c fun h =>
        if h.sprayOn then { h with spray := some (toOffEdge t on_ sprayCycle), sprayOn := false }
        else { h with spray := some (toOnEdge t on_ sprayCycle), sprayOn := true }
    else s
  | _, _ => s

/-- SPRAY_INTERVAL_EDGE (R97). -/
def execSprayIntervalEdge (channel : Fin 6) (s : State) : Out := .next (s.sprayEdge channel)

/-- The gate pulse, 30 s (R125). -/
def gatePulse : Nat := seconds 30

/-- The gate of a SAMPLE is open (R125). -/
def State.gateOpen (s : State) (c : Fin 6) : Bool :=
  s.runs c && (s.ch c).inPhase .sample && (s.ch c).step == some .gating

/-- GATE_PULSE_END (R125). -/
def execGatePulseEnd (channel : Fin 6) (s : State) : Out :=
  .next (if s.gateOpen channel then
      s.modCh channel fun h =>
        { h with gate := max h.gate gatePulse, step := some .reading, readings := [] }
    else s)

/-! ## The turner (R107, R108) -/

/-- The movement timer counts (R107): the POWER claim is HELD. -/
def State.moves (s : State) : Bool :=
  s.live && s.turner.moving && (match s.turnerCh with
    | some c => s.hasHeld c .power
    | none => false)

/-- TRAVEL_END (R107). -/
def execTravelEnd (s : State) : Out :=
  .next (if s.moves && s.turner.state == .travelling then s.travelDone else s)

/-- TURNER_TURN_DONE (R108). -/
def execTurnerTurnDone (s : State) : Out :=
  .next (if s.moves && s.turner.state == .turning then s.turningDone else s)

end Sys2Proof.Machine
end

