-- ==== Sys2Proof/Machine/PanelCommands.lean ====
section
/-! DEFINITION. The channel requests of the panel controller: LOAD_PHASE to HAND_GAUGE (chapters 3, 7, 8 and 11; R180). A
request that comes while a reset or a load is in progress is not taken (R178). -/

namespace Sys2Proof.Machine

/-! ## How a request is taken -/

/-- A request of the panel: not taken while a reset or its load is in progress (R178). -/
def State.request (s : State) (f : State → State) : Out := .next (if s.busy then s else f s)

/-- A channel request: a channel above 5 is BAD_REQUEST (R198), an UNUSED channel refuses with NOT_IN_USE, a TURNER
channel answers as `turner` gives (R51, R180). -/
def State.channelRequest (s : State) (code : Byte) (channel : Nat) (turner : State → State)
    (f : Fin 6 → State → State) : Out :=
  s.request fun t =>
    match chOf channel with
    | none => t.bad code
    | some c =>
      match t.kindOf c with
      | .unused => t.refuse code .notInUse
      | .turner => turner t
      | .steep => f c t
      | .box => f c t
      | .kiln => f c t

/-- A request to a vessel: a TURNER channel refuses it with TURNER_CHANNEL (R51). -/
def State.vesselRequest (s : State) (code : Byte) (channel : Nat) (f : Fin 6 → State → State) : Out :=
  s.channelRequest code channel (fun t => t.refuse code .turnerChannel) f

/-! ## LOAD_PHASE (R63, R52, R56, R68) -/

/-- The first check of R63 and R180 that fails. -/
def loadRefusal (h : Channel) (r : PhaseRecord) : Option Reason :=
  if h.discardPending then some .discardPending
  else if h.state = .halted then some .halted
  else if !kindAllowed h.kind r.kind then some .kindNotValid
  else if !fieldsPresent r then some .fieldMissing
  else if !fieldsInRange r then some .outOfRange
  else if h.current.isSome && h.next.isSome then some .queueFull
  else none

/-- A record placed in NEXT inside the window of a phase that has missed its blend starts the blend (R68). -/
def lateBlend (h : Channel) (r : PhaseRecord) : Channel :=
  match h.current, targetOf r with
  | some p, some t' =>
    if h.started && h.blend == .missed && h.timer < minutes p.duration then
      { h with blend := .moving h.timer t' }
    else h
  | _, _ => h

/-- A record in the first empty place of the queue (R65); an IDLE channel becomes READY (R52). -/
def placeRecord (h : Channel) (r : PhaseRecord) : Channel :=
  if h.current.isNone then
    { h with current := some r, started := false, state := if h.state = .idle then .ready else h.state }
  else lateBlend { h with next := some r } r

/-- LOAD_PHASE at a vessel. In STARVED the phase starts at once (R56), an orphan's without ORPHAN_START (log entry 53). -/
def State.loadAt (r : PhaseRecord) (c : Fin 6) (s : State) : State :=
  match loadRefusal (s.ch c) r with
  | some reason => s.refuse 1#8 reason
  | none =>
    let s1 := s.modCh c fun h => placeRecord h r
    (if (s.ch c).state = .starved then s1.startPhase c false else s1).ok 1#8

/-- LOAD_PHASE (R63). A record whose fields do not fit their bytes cannot be sent, and is BAD_REQUEST. -/
def execLoadPhase (channel : Nat) (record : PhaseRecord) (s : State) : Out :=
  s.vesselRequest 1#8 channel fun c t => if record.fits then t.loadAt record c else t.bad 1#8

/-! ## HOLD (R57) -/

/-- HOLD at a vessel. -/
def State.holdAt (c : Fin 6) (s : State) : State :=
  match (s.ch c).state with
  | .running => (s.pause c .panel (some .running)).ok 2#8
  | .starved => (s.pause c .panel (some .starved)).ok 2#8
  | .paused => s.refuse 2#8 .alreadyPaused
  | .idle => s.refuse 2#8 .notRunning
  | .ready => s.refuse 2#8 .notRunning
  | .halted => s.refuse 2#8 .halted
  | .unused => s.refuse 2#8 .notInUse

/-- HOLD (R57, R180). -/
def execHold (channel : Nat) (s : State) : Out := s.vesselRequest 2#8 channel State.holdAt

/-! ## RELEASE (R58, R52, R133, R142, R195) -/

/-- The channel is RUNNING again (R58). -/
def State.runAgain (s : State) (c : Fin 6) : State :=
  (s.modCh c fun h => { h with state := .running, pause := none, resume := none }).follow c

/-- A due completion completes the phase, else the channel runs again (R55, R58). -/
def State.resumeRunning (s : State) (c : Fin 6) : State :=
  match (s.ch c).due with
  | some reason => (s.runAgain c).complete c reason
  | none => s.runAgain c

/-- CURRENT starts if it holds a record, else the channel is STARVED (R58). `orphan`: the completion record of the phase
carries ORPHAN_START, which R142 gives to the phase a RELEASE from PAUSED(ORPHAN) starts; an orphan's first phase that
starts otherwise carries none. DEDUCED, log entry 53. -/
def State.resumeStarved (s : State) (c : Fin 6) (orphan : Bool) : State :=
  if (s.ch c).current.isSome then s.startPhase c orphan else s.starve c

/-- RELEASE from PAUSED(CLEARED) (R58). An orphan placed there starts without ORPHAN_START (log entry 53). -/
def State.releaseCleared (s : State) (c : Fin 6) : State :=
  if (s.ch c).piece.isSome then s.resumeStarved c false
  else if (s.ch c).current.isSome then
    s.modCh c fun h => { h with state := .ready, pause := none, resume := none }
  else s.modCh c idleChannel

/-- The source offers again to the same destination (R133). -/
def State.offerAgain (s : State) (c : Fin 6) : State :=
  let s1 := (s.modXfer c fun x => { x with state := .offering, count := 0 }).offerWait c true
  (s1.modCh c fun h => { h with step := some .offering }).runAgain c

/-- RELEASE from a pause of a transfer (R58): a due completion completes the phase before anything else (R55), as where the
read-back of R138 came in the pause; else the source offers again. -/
def State.releaseOffer (s : State) (c : Fin 6) : State :=
  if (s.ch c).due.isSome then s.resumeRunning c else s.offerAgain c

/-- RELEASE from PAUSED(RESTART) (R195). -/
def State.releaseRestart (s : State) (c : Fin 6) : State :=
  let s1 := s.askRestart c
  let s2 := if (s1.ch c).xfer.state = .accepted then s1.askTransfer c else s1
  match (s2.ch c).resume with
  | some .starved => s2.resumeStarved c false
  | some .running => s2.resumeRunning c
  | none => s2.resumeRunning c

/-- RELEASE of a PAUSED channel, by its pause reason (R58). -/
def State.releasePaused (s : State) (c : Fin 6) : State :=
  match (s.ch c).pause with
  | some .panel =>
    if (s.ch c).resume = some .starved then s.resumeStarved c false else s.resumeRunning c
  | some .step => s.resumeStarved c false
  | some .cleared => s.releaseCleared c
  | some .restart => s.releaseRestart c
  | some .offerUnanswered => s.releaseOffer c
  | some .offerDeclined => s.releaseOffer c
  | some .destLost => s.releaseOffer c
  | some .orphan => s.resumeStarved c true
  | none => s

/-- RELEASE at a vessel (R58, R52; DISCARD_PENDING before every other refusal, R180). -/
def State.releaseAt (c : Fin 6) (s : State) : State :=
  if (s.ch c).discardPending then s.refuse 3#8 .discardPending
  else
    match (s.ch c).state with
    | .ready => if (s.ch c).kind = .steep then (s.startPhase c false).ok 3#8 else s.refuse 3#8 .noPiece
    | .paused => (s.releasePaused c).ok 3#8
    | .running => s.refuse 3#8 .notPaused
    | .starved => s.refuse 3#8 .notPaused
    | .halted => s.refuse 3#8 .notPaused
    | .idle => s.refuse 3#8 .notPaused
    | .unused => s.refuse 3#8 .notInUse

/-- RELEASE (R58). -/
def execRelease (channel : Nat) (s : State) : Out := s.vesselRequest 3#8 channel State.releaseAt

/-! ## SET_STEP, CLEAR_HALT, CHANNEL_RESET (R59, R61, R62, R112, R144) -/

/-- SET_STEP (R59). -/
def execSetStep (channel : Nat) (value : Bool) (s : State) : Out :=
  s.vesselRequest 4#8 channel fun c t => (t.modCh c fun h => { h with stepFlag := value }).ok 4#8

/-- What CLEAR_HALT leaves of the channel (R61), every drive commanded off. The step stays as the halt left it. DESIGN
CHOICE, log entry 62. -/
def clearedChannel (h : Channel) : Channel :=
  { h with
    state := .paused, pause := some .cleared, resume := none, halt := none, current := none,
    next := none, started := false, due := none, setpoint := none, rampStart := none, rampDue := false,
    blend := .no, fanCommand := 0, firing := 0, peat := false, asksDue := [] }

/-- CLEAR_HALT at a source in ACCEPTED (R144). -/
def State.clearTransfer (s : State) (c : Fin 6) : State :=
  if (s.ch c).xfer.state = .accepted then
    if (s.ch c).xfer.driveStarted then
      (s.modPiece c fun p => { p with castInterrupted := true }).completeCast c
    else (s.cancelPartner c).endXfer c
  else s

/-- CLEAR_HALT at a vessel (R61, R144). -/
def State.clearHaltAt (c : Fin 6) (s : State) : State :=
  if (s.ch c).state = .halted then
    let s1 := (s.clearTransfer c).modCh c clearedChannel
    (s1.chEvent c .paused [PauseReason.cleared.code, 0, 0, 0]).ok 5#8
  else s.refuse 5#8 .notHalted

/-- CLEAR_HALT at the TURNER channel (R112). -/
def State.clearTurner (s : State) : State :=
  if s.turner.state = .faulted then
    (s.modTurner fun t =>
      { t with state := .parked, position := none, overload := 0, available := true }).ok 5#8
  else s.refuse 5#8 .notHalted

/-- CLEAR_HALT (R61, R112). -/
def execClearHalt (channel : Nat) (s : State) : Out :=
  s.channelRequest 5#8 channel State.clearTurner State.clearHaltAt

/-- What CHANNEL_RESET leaves of the channel (R62). -/
def resetChannel (h : Channel) : Channel :=
  { idleChannel h with
    stats := {}, shedsAside := 0, flags := {}, records := [], lastEnd := none, stepFlag := false,
    restart := none, restartKept := false, leftPiece := none }

/-- CHANNEL_RESET at a vessel (R62). -/
def State.channelResetAt (c : Fin 6) (s : State) : State :=
  if (s.ch c).piece.isSome then s.refuse 6#8 .hasPiece
  else if (s.ch c).xfer.state = .accepted || (s.ch c).xfer.state = .awaiting then
    s.refuse 6#8 .inTransfer
  else ((s.dropAll c).modCh c resetChannel).ok 6#8

/-- CHANNEL_RESET (R62). -/
def execChannelReset (channel : Nat) (s : State) : Out := s.vesselRequest 6#8 channel State.channelResetAt

/-! ## WITHDRAW_OFFER (R141) -/

/-- What WITHDRAW_OFFER leaves of the channel (R141). No step is shown after it. DESIGN CHOICE, log entry 62. -/
def withdrawnChannel (h : Channel) : Channel :=
  { h with
    state := .starved, pause := none, resume := none, due := none, current := none, next := none,
    started := false, completed := none, restart := none, restartKept := false, step := none, setpoint := none,
    asksDue := [] }

/-- The kind of the record in CURRENT, as a code. -/
def currentCode (h : Channel) : Nat := match h.current with
  | some r => r.kind.code
  | none => 0

/-- The offer is withdrawn (R141). -/
def State.withdraw (s : State) (c : Fin 6) : State :=
  ((s.endOffer c).modCh c withdrawnChannel).chEvent c .starved [currentCode (s.ch c), 0, 0, 0]

/-- WITHDRAW_OFFER at a vessel (R141). -/
def State.withdrawAt (c : Fin 6) (s : State) : State :=
  match (s.ch c).xfer.state with
  | .none => s.refuse 7#8 .noOffer
  | .awaiting => s.refuse 7#8 .noOffer
  | .accepted => s.refuse 7#8 .inTransfer
  | .ended => s.refuse 7#8 .inTransfer
  | .offering =>
    if (s.ch c).discardPending then s.refuse 7#8 .discardPending else (s.withdraw c).ok 7#8
  | .suspended =>
    if (s.ch c).discardPending then s.refuse 7#8 .discardPending else (s.withdraw c).ok 7#8

/-- WITHDRAW_OFFER (R141). -/
def execWithdrawOffer (channel : Nat) (s : State) : Out := s.vesselRequest 7#8 channel State.withdrawAt

/-! ## DISCARD (R146, R147, R164) -/

/-- ELOCK is sampled (R162). -/
def State.sampleElock (s : State) (low : Bool) : State := { s with elock := low }

/-- The checks of R146 after the first, in order. -/
def State.discardRefusal (s : State) (c : Fin 6) (p : Piece) : Option Reason :=
  let h := s.ch c
  if h.discardPending then some .discardPending
  else if h.state = .running then some .running
  else if h.xfer.state = .accepted || h.xfer.state = .ended then some .inTransfer
  else if gauged p then (if s.elock then some .exciseLocked else s.bookRefusal)
  else none

/-- The DISCARD entry of a gauged piece (R164). -/
def discardEntry (c : Fin 6) (p : Piece) : EntryItem :=
  { kind := .discard, channel := some c.val, piece := some p.id, value := .gauge (lastGauge p) }

/-- DISCARD at a vessel (R146). -/
def State.discardAt (c : Fin 6) (s : State) : State :=
  match (s.ch c).piece with
  | none => s.refuse 8#8 .noPiece
  | some p =>
    match s.discardRefusal c p with
    | some r => s.refuse 8#8 r
    | none =>
      if gauged p then
        ((s.placeEntry (discardEntry c p)).modCh c fun h => { h with discardPending := true }).taken 8#8
      else (s.discardPiece c).ok 8#8

/-- DISCARD (R146). -/
def execDiscard (channel : Nat) (elockLow : Bool) (s : State) : Out :=
  s.vesselRequest 8#8 channel fun c t => (t.sampleElock elockLow).discardAt c

/-! ## HAND_GAUGE (R163) -/

/-- A DUTY capture for the piece is held in the wait list or pending (R163 check 6). -/
def State.dutyOnItsWay (s : State) (c : Fin 6) (p : Piece) : Bool :=
  ((s.ch c).captures.any fun e => e.kind == .duty && e.piece == some p.id)
    || s.book.pend.any fun e => e.item.kind == .duty && e.item.piece == some p.id

/-- The entry kind of a hand gauge. -/
def handEntryKind : HandKind → EntryKind
  | .steep => .steepGauge
  | .couch => .couchGauge

/-- The checks of R163 after the second, in order. -/
def State.handRefusal (s : State) (c : Fin 6) (k : HandKind) (p : Piece) : Option Reason :=
  let h := s.ch c
  if s.elock then some .exciseLocked
  else if h.discardPending then some .discardPending
  else if h.xfer.state = .accepted || h.xfer.state = .ended then some .inTransfer
  else if p.duty.isSome || s.dutyOnItsWay c p then some .dutyFixed
  else if k = .couch && p.stage = .steep then some .wrongStage
  else s.bookRefusal

/-- The piece has a gauge of the kind, or a pending entry of it (R163). -/
def State.hasGauge (s : State) (k : HandKind) (p : Piece) : Bool :=
  (match k with
   | .steep => p.steepGauge.isSome
   | .couch => p.couchGauge.isSome)
  || s.book.pend.any fun e => e.item.kind == handEntryKind k && e.item.piece == some p.id

/-- The entry of a hand gauge (R163). -/
def State.handEntry (s : State) (c : Fin 6) (k : HandKind) (p : Piece) (g : Nat) : EntryItem :=
  { kind := handEntryKind k, channel := some c.val, piece := some p.id, value := .gauge g,
    hand := true, replaced := s.hasGauge k p }

/-- HAND_GAUGE at a vessel (R163). -/
def State.handGaugeAt (k : HandKind) (g : Nat) (c : Fin 6) (s : State) : State :=
  match (s.ch c).piece with
  | none => s.refuse 9#8 .noPiece
  | some p =>
    match s.handRefusal c k p with
    | some r => s.refuse 9#8 r
    | none => (s.placeEntry (s.handEntry c k p g)).taken 9#8

/-- HAND_GAUGE (R163). A gauge past three bytes cannot be sent, and is BAD_REQUEST. -/
def execHandGauge (channel : Nat) (kind : HandKind) (gauge : Nat) (elockLow : Bool) (s : State) : Out :=
  s.vesselRequest 9#8 channel fun c t =>
    if gauge < 16777216 then (t.sampleElock elockLow).handGaugeAt kind gauge c else t.bad 9#8

end Sys2Proof.Machine
end

