-- ==== Sys2Proof/Machine/StationCommands.lean ====
section
/-! DEFINITION. The station requests of the panel controller: TAKE_BOOK, SET_RESTART_HOLD, the READs, CLEAR_CHANGES,
SET_ATTENTION_MASK, POP_EVENT, READ_FAULT, and BAD_REQUEST (chapter 10). -/

namespace Sys2Proof.Machine

/-! ## TAKE_BOOK and SET_RESTART_HOLD (R157, R192) -/

/-- The book after TAKE_BOOK: entries removed, places filled from the missed span (R157). -/
def State.takenBook (s : State) (sequence : Seq) : Book :=
  let b := s.book.remove sequence
  fillGaps s.line.round s.cfg.address bookSize b

/-- BOOK_FULL is set where the filling brings the book to its 128th entry again (R156). -/
def State.filledAgain (s : State) (sequence : Seq) : Bool :=
  (s.book.remove sequence).entries.length < bookSize
    && (s.takenBook sequence).entries.length == bookSize

/-- TAKE_BOOK's effect: the wait list is served after it (R157, R159). -/
def State.takeBook (s : State) (sequence : Seq) : State :=
  ({ s with
      book := s.takenBook sequence
      panel := { s.panel with bookFull := s.panel.bookFull || s.filledAgain sequence } } : State).serve

/-- The data of TAKE_BOOK's reply: entries removed, entries held, book count (R157). -/
def State.takeBookData (s : State) (sequence : Seq) : List Nat :=
  [s.book.entries.length - (s.book.remove sequence).entries.length,
    (s.takenBook sequence).entries.length] ++ bytes3 (s.takenBook sequence).count.toNat

/-- TAKE_BOOK (R157). -/
def execTakeBook (sequence : Seq) (s : State) : Out :=
  s.request fun t => (t.takeBook sequence).okData 10#8 (t.takeBookData sequence)

/-- SET_RESTART_HOLD (R180, R192): OK with the flag as it now stands. -/
def execSetRestartHold (value : Bool) (s : State) : Out :=
  s.request fun t =>
    ({ t with loader := { t.loader with hold := value } } : State).okData 11#8 (flagByte value)

/-! ## READ (R181) -/

/-- The code of READ. -/
def readCode : Byte := 12#8

/-- READ of an object of a channel; a channel above 5 is BAD_REQUEST. -/
def State.readChannel (s : State) (channel : Nat) (f : Fin 6 → State → List Nat) : Out :=
  s.request fun t =>
    match chOf channel with
    | some c => t.okData readCode (f c t)
    | none => t.bad readCode

/-- READ of an indexed object; an index past its range is BAD_REQUEST (R179). -/
def State.readIndex (s : State) (ok : Bool) (f : State → List Nat) : Out :=
  s.request fun t => if ok then t.okData readCode (f t) else t.bad readCode

/-- READ of station status (R181). ELOCK's level at the request is shown (R158). -/
def execReadStationStatus (elockLow : Bool) (s : State) : Out :=
  s.request fun t =>
    (t.sampleElock elockLow).okData readCode (t.sampleElock elockLow).stationStatus

/-- READ of channel status (R74, R166, R112, R130). -/
def execReadChannelStatus (channel : Nat) (s : State) : Out :=
  s.readChannel channel fun c t => t.channelStatus c

/-- The record in a place of the queue and its started mark; an UNUSED channel gives an empty record (R181). -/
def State.placeObject (s : State) (c : Fin 6) (p : Place) : List Nat :=
  if s.kindOf c = .unused then placeBytes none false
  else
    match p with
    | .current => placeBytes (s.ch c).current (s.ch c).started
    | .next => placeBytes (s.ch c).next false

/-- READ of a phase record (R65). -/
def execReadPhaseRecord (channel : Nat) (place : Place) (s : State) : Out :=
  s.readChannel channel fun c t => t.placeObject c place

/-- READ of a piece record (R131); an UNUSED channel gives an empty record. -/
def execReadPieceRecord (channel : Nat) (s : State) : Out :=
  s.readChannel channel fun c t =>
    pieceObject (if t.kindOf c = .unused then none else (t.ch c).piece)

/-- The n-th newest completion record of a channel (R72); none for an UNUSED one. -/
def State.completionAt (s : State) (c : Fin 6) (n : Nat) : Option Completion :=
  if s.kindOf c = .unused then none else (s.ch c).records[n]?

/-- READ of a completion record (R72): n from 0 to 3. -/
def execReadCompletionRecord (channel index : Nat) (s : State) : Out :=
  if index ≤ 3 then s.readChannel channel fun c t => completionObject (t.completionAt c index)
  else s.request fun t => t.bad readCode

/-- READ of a claim table entry (R26): n from 0 to 127. -/
def execReadClaimTableEntry (index : Nat) (s : State) : Out :=
  s.readIndex (index ≤ 127) fun t => claimObject t.claims[index]?

/-- READ of the Peer Table (R18). -/
def execReadPeerTable (s : State) : Out :=
  s.request fun t => t.okData readCode (t.peers.flatMap peerBytes)

/-- READ of a book entry (R158): n from 0 to 127. -/
def execReadBookEntry (index : Nat) (s : State) : Out :=
  s.readIndex (index ≤ 127) fun t => entryObject t.book.entries[index]?

/-- The three line counters (R23). -/
def lineCounters (l : Line) : List Nat :=
  bytes2 l.checkFailures ++ bytes2 l.ownAborted ++ bytes2 l.missedTurns

/-- READ of the line counters: returned, then set to 0 (R23). -/
def execReadLineCounters (s : State) : Out :=
  s.request fun t =>
    (t.modLine fun l => { l with checkFailures := 0, ownAborted := 0, missedTurns := 0 }).okData readCode
      (lineCounters t.line)

/-- The five piece counters (R132). -/
def pieceCounters (b : Book) : List Nat :=
  bytes2 b.created ++ bytes2 b.received ++ bytes2 b.handed ++ bytes2 b.finished ++ bytes2 b.discarded

/-- READ of the piece counters (R132). -/
def execReadPieceCounters (s : State) : Out :=
  s.request fun t => t.okData readCode (pieceCounters t.book)

/-! ## Flags, events, faults (R182 to R187) -/

/-- CLEAR_CHANGES (R182): OK with the six flags after the clear. -/
def execClearChanges (mask : Byte) (s : State) : Out :=
  s.request fun t =>
    (t.clearFlags (maskOf mask)).okData 13#8 (flagBytes (t.clearFlags (maskOf mask)).changeFlags)

/-- The attention mask replaced (R183). -/
def State.setMask (s : State) (m : Mask) : State := { s with panel := { s.panel with mask := m } }

/-- SET_ATTENTION_MASK (R183): OK with the mask and ATTN as they now stand, an active ATTN as 1 (DESIGN CHOICE, log entry
83). -/
def execSetAttentionMask (mask : Byte) (s : State) : Out :=
  s.request fun t =>
    (t.setMask (maskOf mask)).okData 14#8 [maskByte (maskOf mask), bit (t.setMask (maskOf mask)).attn]

/-- The queue without its oldest entry (R185). -/
def State.popped (s : State) : State :=
  { s with panel := { s.panel with events := s.panel.events.drop 1 } }

/-- POP_EVENT (R185). -/
def execPopEvent (s : State) : Out :=
  s.request fun t => t.popped.okData 15#8 (eventObject t.panel.events.head?)

/-- The fault record emptied and FAULT cleared (R187). -/
def State.faultRead (s : State) : State :=
  { s with panel := { s.panel with record := none, fault := false } }

/-- READ_FAULT (R187). -/
def execReadFault (s : State) : Out :=
  s.request fun t => t.faultRead.okData 16#8 (faultObject t.panel.record)

/-- BAD_REQUEST (R179, R198): the reply names the request's first byte; where no byte came whole, the code is a free
value (log entry 9). -/
def execBadRequest (bytes : List Byte) (s : State) : Out :=
  s.request fun t =>
    match bytes with
    | b :: _ => t.bad b
    | [] => ({ t with free := t.free + 1 } : State).bad (Config.cutShortCode t.free)

end Sys2Proof.Machine
end

