-- ==== Sys2Proof/Machine/Tick.lean ====
section
/-! DEFINITION. What the station does with no command waiting: the timer event that is due, or one tick of 0.5 ms (log
entry 1). Line times run on the crystal alone (R5, R176); process times run on either clock. -/

namespace Sys2Proof.Machine

/-! ## Events that are due -/

/-- An event is due. -/
def when (b : Bool) (i : Instr) : List Instr := if b then [i] else []

/-- A time that runs has come to its limit. -/
def reached (limit : Nat) : Option Nat → Bool
  | some t => limit ≤ t
  | none => false

/-- A limit, where there is one, has been reached. -/
def past (limit : Option Nat) (t : Nat) : Bool :=
  match limit with
  | some n => n ≤ t
  | none => false

/-- The stabilization time, 250 ms (R174). -/
def stabilization : Nat := ms 250

/-- The own opening instant has come (R12). -/
def State.openingDue (s : State) : Bool :=
  s.line.state == .member && s.maySend && s.beforeOpening
    && (match s.openingPlace, s.afterO with
        | some k, some t => k * slot ≤ t && (k == 0 || s.silentSinceO)
        | _, _ => false)

/-- The own slot of the silence ladder has come (R15). -/
def State.turnDue (s : State) : Bool :=
  s.line.state == .member && s.maySend && !s.line.turnTaken && s.line.roundPart == .turns
    && (match s.turnPlace with
        | some p => (p + 1) * slot ≤ s.line.silence
        | none => false)

/-- The silence that opens the join window has come (R15). -/
def State.windowDue (s : State) : Bool :=
  s.lineIdle && s.line.roundPart == .turns
    && (match s.line.lastSender with
        | some x => ((s.ladder x).length + 1) * slot ≤ s.line.silence
        | none => false)

/-- The time since the join window opened. -/
def State.windowTime (s : State) : Option Nat :=
  match s.line.roundPart with
  | .window e => some e
  | .turns => none
  | .closed _ => none

/-- Line events that are due (chapter 1). -/
def State.lineDue (s : State) : List Instr :=
  let l := s.line
  if s.tb.ready && l.state.hears then
    when (l.state == .listening && reached s.coldLimit l.coldWait) .coldWaitExpiry
      ++ when (l.state == .joining && l.sending.isNone && reached s.coldLimit l.coldWait) .joinColdWaitExpiry
      ++ when (s.mayJoin && reached s.joinDelay s.windowTime) .joinDelayExpiry
      ++ when s.openingDue .openingInstantReached
      ++ when s.turnDue .turnSlotReached
      ++ when s.windowDue .joinWindowOpens
      ++ when (s.lineIdle && reached windowLength s.windowTime) .joinWindowCloses
      ++ when (l.state == .mute && reached s.period l.muteTimer) .muteTimerExpiry
      ++ when (l.state == .member && reached (2 * s.period) l.isolation) .isolationTimerExpiry
  else []

/-- ACCEPT_LIMIT, 240 minutes of process time (R142). -/
def acceptLimit : Nat := minutes 240

/-- The blower clock of a WET stands in the other part of its cycle than the blower (R81). -/
def blowerDue (h : Channel) (toOn : Bool) : Bool :=
  match blowerCycle h, h.blower with
  | some (n, cycle), some t => h.blowerOn == !toOn && decide (t % cycle < n) == toOn
  | _, _ => false

/-- The spray clock stands in the other part of its cycle than the spray (R97). -/
def sprayDue (h : Channel) : Bool :=
  match sprayPart h, h.spray with
  | some n, some t => decide (t % sprayCycle < n) != h.sprayOn
  | _, _ => false

/-- Process events of channel `c` that are due. -/
def State.channelDue (s : State) (c : Fin 6) : List Instr :=
  let h := s.ch c
  let runs := s.timerRuns c && h.due.isNone
  let at_ (limit : Option Nat) : Bool := runs && past limit h.timer
  when (at_ (fillLimitOf h)) (.fillLimitReached c)
    ++ when (at_ (settleLimit h)) (.settleEnd c)
    ++ when (at_ (blendLimit h)) (.blendWindowBegins c)
    ++ when (at_ (turnLimitOf h)) (.turnLimitReached c)
    ++ when (at_ (standLimit h)) (.standTimeReached c)
    ++ when (at_ (h.current.bind (durationLimit h))) (.phaseDurationReached c)
    ++ when (s.vessel c && blowerDue h true) (.blowerOnEdge c)
    ++ when (s.vessel c && blowerDue h false) (.blowerOffEdge c)
    ++ when (s.vessel c && h.resting && reached (restEdge h) h.blower) (.airRestEdge c)
    ++ when (s.vessel c && sprayDue h) (.sprayIntervalEdge c)
    ++ when (s.gateOpen c && gatePulse ≤ h.gate) (.gatePulseEnd c)
    ++ when (s.limitRuns c && acceptLimit ≤ h.xfer.limit) (.orphanAcceptLimit c)

/-- Turner events that are due (R107, R108). -/
def State.turnerDue (s : State) : List Instr :=
  let timeUp := s.moves && s.turner.order.isSome && s.turner.timer == 0
  when (timeUp && s.turner.state == .travelling) .travelEnd
    ++ when (timeUp && s.turner.state == .turning) .turnerTurnDone

/-- The events that are due, in the order the station takes them (log entry 1). -/
def State.dueList (s : State) : List Instr :=
  when (!s.loader.held && !s.tb.ready && reached stabilization s.tb.stab) .crystalReady
    ++ s.lineDue ++ channels.flatMap s.channelDue ++ s.turnerDue

/-! ## One tick -/

/-- A time that runs goes on by one tick. -/
def tickTime (t : Option Nat) : Option Nat := t.map (· + 1)

/-- The join window, or the time since it closed, goes on. -/
def tickPart : RoundPart → RoundPart
  | .turns => .turns
  | .window e => .window (e + 1)
  | .closed e => .closed (e + 1)

/-- The line timers go on (R12, R15, R17, R22, R24). -/
def tickLine (l : Line) : Line :=
  { l with
    coldWait := tickTime l.coldWait
    muteTimer := tickTime l.muteTimer
    isolation := tickTime l.isolation
    sinceOpening := tickTime l.sinceOpening
    roundPart := tickPart l.roundPart
    silence := if l.onLine.isNone && l.sending.isNone then l.silence + 1 else l.silence }

/-- The process timers of channel `c` go on (R53, R77, R92, R125, R142, R166). The blower and spray clocks run while the
channel drives by a record. -/
def State.tickChannel (s : State) (c : Fin 6) (h : Channel) : Channel :=
  { h with
    timer := if s.timerRuns c then min (h.timer + 1) timerTop else h.timer
    blower := if s.vessel c && h.drivesBy.isSome then tickTime h.blower else h.blower
    spray := if s.vessel c && h.drivesBy.isSome then tickTime h.spray else h.spray
    gate := if s.gateOpen c then h.gate + 1 else h.gate
    clock := h.clock.map (raise (seconds 1))
    xfer := if s.limitRuns c then { h.xfer with limit := h.xfer.limit + 1 } else h.xfer }

/-- One tick of 0.5 ms. While a reset is held nothing runs; while its load goes on only the stabilization wait does. -/
def State.tick (s : State) : State :=
  let s1 : State :=
    if s.loader.held then s
    else { s with tb := { s.tb with stab := if s.tb.ready then s.tb.stab else tickTime s.tb.stab } }
  let s2 := if s.tb.ready && s.line.state.hears then s1.modLine tickLine else s1
  if s.live then
    (s2.mapCh fun c h => s.tickChannel c h).modTurner fun t =>
      { t with timer := if s.moves then t.timer - 1 else t.timer }
  else s2

end Sys2Proof.Machine
end

