-- ==== Sys2Proof/Machine/Dispatch.lean ====
section
/-! DEFINITION. The effect of each command on everything but the queue: one arm per row of the table. -/

namespace Sys2Proof.Machine

/-- The effect of a command. -/
def exec (i : Instr) (s : State) : Host.Outcome State Fault Refusal :=
  match i with
  | .powerUpReset resetLow => Sys2Proof.Machine.execPowerUpReset resetLow s
  | .pinReset => Sys2Proof.Machine.execPinReset s
  | .resetEnd => Sys2Proof.Machine.execResetEnd s
  | .configLoadGood image => Sys2Proof.Machine.execConfigLoadGood image s
  | .configLoadBad => Sys2Proof.Machine.execConfigLoadBad s
  | .stabilizationRestart => Sys2Proof.Machine.execStabilizationRestart s
  | .crystalReady => Sys2Proof.Machine.execCrystalReady s
  | .crystalLost => Sys2Proof.Machine.execCrystalLost s
  | .coldWaitExpiry => Sys2Proof.Machine.execColdWaitExpiry s
  | .joinColdWaitExpiry => Sys2Proof.Machine.execJoinColdWaitExpiry s
  | .joinDelayExpiry => Sys2Proof.Machine.execJoinDelayExpiry s
  | .openingInstantReached => Sys2Proof.Machine.execOpeningInstantReached s
  | .turnSlotReached => Sys2Proof.Machine.execTurnSlotReached s
  | .ownFrameAborted otherOnLine => Sys2Proof.Machine.execOwnFrameAborted otherOnLine s
  | .muteEntry => Sys2Proof.Machine.execMuteEntry s
  | .ownTurnReadBack => Sys2Proof.Machine.execOwnTurnReadBack s
  | .ownJoinReadBack => Sys2Proof.Machine.execOwnJoinReadBack s
  | .coldOpeningReadBack => Sys2Proof.Machine.execColdOpeningReadBack s
  | .validTurnFrameHeard frame => Sys2Proof.Machine.execValidTurnFrameHeard frame s
  | .validJoinFrameHeard frame => Sys2Proof.Machine.execValidJoinFrameHeard frame s
  | .garbledFrame => Sys2Proof.Machine.execGarbledFrame s
  | .joinWindowOpens => Sys2Proof.Machine.execJoinWindowOpens s
  | .joinWindowCloses => Sys2Proof.Machine.execJoinWindowCloses s
  | .joiningEntry => Sys2Proof.Machine.execJoiningEntry s
  | .muteTimerExpiry => Sys2Proof.Machine.execMuteTimerExpiry s
  | .muteEnd => Sys2Proof.Machine.execMuteEnd s
  | .isolationTimerExpiry => Sys2Proof.Machine.execIsolationTimerExpiry s
  | .peerLost station => Sys2Proof.Machine.execPeerLost station s
  | .orphanAcceptLimit channel => Sys2Proof.Machine.execOrphanAcceptLimit channel s
  | .offerUnanswered channel => Sys2Proof.Machine.execOfferUnanswered channel s
  | .measurementArrival channel raw => Sys2Proof.Machine.execMeasurementArrival channel raw s
  | .sensorFault channel input => Sys2Proof.Machine.execSensorFault channel input s
  | .levelSteady channel level => Sys2Proof.Machine.execLevelSteady channel level s
  | .moistureMade channel reading => Sys2Proof.Machine.execMoistureMade channel reading s
  | .breakthrough channel => Sys2Proof.Machine.execBreakthrough channel s
  | .flameFail channel => Sys2Proof.Machine.execFlameFail channel s
  | .powerLimitedTopUp channel => Sys2Proof.Machine.execPowerLimitedTopUp channel s
  | .turnerOverloadFault channel => Sys2Proof.Machine.execTurnerOverloadFault channel s
  | .phaseDurationReached channel => Sys2Proof.Machine.execPhaseDurationReached channel s
  | .standTimeReached channel => Sys2Proof.Machine.execStandTimeReached channel s
  | .fillLimitReached channel => Sys2Proof.Machine.execFillLimitReached channel s
  | .settleEnd channel => Sys2Proof.Machine.execSettleEnd channel s
  | .turnLimitReached channel => Sys2Proof.Machine.execTurnLimitReached channel s
  | .blendWindowBegins channel => Sys2Proof.Machine.execBlendWindowBegins channel s
  | .blowerOnEdge channel => Sys2Proof.Machine.execBlowerOnEdge channel s
  | .blowerOffEdge channel => Sys2Proof.Machine.execBlowerOffEdge channel s
  | .airRestEdge channel => Sys2Proof.Machine.execAirRestEdge channel s
  | .sprayIntervalEdge channel => Sys2Proof.Machine.execSprayIntervalEdge channel s
  | .gatePulseEnd channel => Sys2Proof.Machine.execGatePulseEnd channel s
  | .travelEnd => Sys2Proof.Machine.execTravelEnd s
  | .turnerTurnDone => Sys2Proof.Machine.execTurnerTurnDone s
  | .loadPhase channel record => Sys2Proof.Machine.execLoadPhase channel record s
  | .hold channel => Sys2Proof.Machine.execHold channel s
  | .release channel => Sys2Proof.Machine.execRelease channel s
  | .setStep channel value => Sys2Proof.Machine.execSetStep channel value s
  | .clearHalt channel => Sys2Proof.Machine.execClearHalt channel s
  | .channelReset channel => Sys2Proof.Machine.execChannelReset channel s
  | .withdrawOffer channel => Sys2Proof.Machine.execWithdrawOffer channel s
  | .discard channel elockLow => Sys2Proof.Machine.execDiscard channel elockLow s
  | .handGauge channel kind gauge elockLow => Sys2Proof.Machine.execHandGauge channel kind gauge elockLow s
  | .takeBook sequence => Sys2Proof.Machine.execTakeBook sequence s
  | .setRestartHold value => Sys2Proof.Machine.execSetRestartHold value s
  | .readStationStatus elockLow => Sys2Proof.Machine.execReadStationStatus elockLow s
  | .readChannelStatus channel => Sys2Proof.Machine.execReadChannelStatus channel s
  | .readPhaseRecord channel place => Sys2Proof.Machine.execReadPhaseRecord channel place s
  | .readPieceRecord channel => Sys2Proof.Machine.execReadPieceRecord channel s
  | .readCompletionRecord channel index => Sys2Proof.Machine.execReadCompletionRecord channel index s
  | .readClaimTableEntry index => Sys2Proof.Machine.execReadClaimTableEntry index s
  | .readPeerTable => Sys2Proof.Machine.execReadPeerTable s
  | .readBookEntry index => Sys2Proof.Machine.execReadBookEntry index s
  | .readLineCounters => Sys2Proof.Machine.execReadLineCounters s
  | .readPieceCounters => Sys2Proof.Machine.execReadPieceCounters s
  | .clearChanges mask => Sys2Proof.Machine.execClearChanges mask s
  | .setAttentionMask mask => Sys2Proof.Machine.execSetAttentionMask mask s
  | .popEvent => Sys2Proof.Machine.execPopEvent s
  | .readFault => Sys2Proof.Machine.execReadFault s
  | .badRequest bytes => Sys2Proof.Machine.execBadRequest bytes s
  | .lineFrameStart => Sys2Proof.Machine.execLineFrameStart s

end Sys2Proof.Machine
end

