-- ==== Sys2Proof/Machine/Step.lean ====
section
/-! DEFINITION. One step: the command at the front of the queue, or, with none waiting, the event that is due or one tick
of time (log entry 1); and the host's way of placing a command (log entry 7). -/

namespace Sys2Proof.Machine

/-- The station with nothing waiting: the first event that is due takes place, else one tick passes. -/
def State.idle (s : State) : Host.Outcome State Fault Refusal :=
  match s.dueList with
  | i :: _ => exec i s
  | [] => .next s.tick

/-- One step of the station. -/
def step (s : State) : Host.Outcome State Fault Refusal :=
  match s.pending with
  | i :: rest => exec i { s with pending := rest }
  | [] => s.idle

/-- The state with the command a word spells at the front of its queue; no word spells one (log entry 7). -/
def State.withFetchWord (s : State) (nbits w : Nat) : State :=
  match decodeTableWord nbits w with
  | some i => { s with pending := i :: s.pending }
  | none => s

end Sys2Proof.Machine
end

