-- ==== Sys2Proof/Safety.lean ====
section
/-! DEFINITION. What counts as safe, in the terms the statements use: the Claim Table within its allowances (R27), the
buffers within their sizes, drives off; and the words the statements share. -/

namespace Sys2Proof.Machine

/-! ## The Claim Table (R26, R27) -/

/-- The entries stand in ascending order of station, channel and slot, no identity twice (R26). -/
def Ordered (t : List ClaimEntry) : Prop := t.Pairwise fun a b => a.key < b.key

/-- The held sum of every resource lies within its allowance (R27). -/
def State.WithinAllowances (s : State) : Prop := ∀ r, heldSum s.claims r ≤ allowance s.cfg r

/-- Through a reset and its load the station hears and sends nothing and its Claim Table is empty (R5, R44, R189). -/
def State.Shut (s : State) : Prop :=
  s.busy = true →
    s.claims = [] ∧ s.line.state = .clocking ∧ s.line.sending = none ∧ s.loader.loaded = false

/-- The Claim Table is safe: in order, at most 128 entries, within its allowances, and empty where it must be. -/
def State.ClaimsSafe (s : State) : Prop :=
  Ordered s.claims ∧ s.claims.length ≤ claimRoom ∧ s.WithinAllowances ∧ s.Shut

/-! ## Buffers (R28, R72, R111, R135, R137, R148, R150, R159, R184) -/

/-- The Own Claim List: in list order, no identity twice, slots 0 to 2, so at most 18 claims (R28). -/
def OwnBounded (l : List OwnClaim) : Prop :=
  l.length ≤ 18 ∧ (l.Pairwise fun a b => a.key < b.key) ∧ ∀ o ∈ l, o.slot < 3

/-- A channel keeps four completion records at most (R72), and its restart list names slots 0 to 2 (R189). -/
def Channel.Bounded (h : Channel) : Prop := h.records.length ≤ 4 ∧ ∀ x ∈ h.restart.getD [], x.slot < 3

/-- The Gauge Book: 128 entries, four pending entries, and a wait list of one offer per channel (R148, R150, R159). -/
def Book.Bounded (b : Book) : Prop :=
  b.entries.length ≤ bookSize ∧ b.pend.length ≤ 4 ∧ b.waiting.length ≤ 6 ∧ b.waiting.Nodup

/-- The lists of the station keep their sizes. -/
def State.Bounded (s : State) : Prop :=
  s.replies.length ≤ 8 ∧ s.castends.length ≤ 6 ∧ s.turner.turnends.length ≤ 4
    ∧ s.book.Bounded ∧ s.panel.events.length ≤ 16 ∧ s.panel.overflow ≤ 255
    ∧ OwnBounded s.own ∧ ∀ c, (s.ch c).Bounded

/-! ## Drives -/

/-- Every drive of a channel is off. -/
def allOff : Drives := ⟨0, 0, 0, 0⟩

/-- The station's drives are off (R173, R189). -/
def State.AllOff (s : State) : Prop := ∀ c, s.outputs c = allOff

/-! ## Frames of the statements -/

/-- Every channel but `c` is as it was. -/
def State.OthersKept (s t : State) (c : Fin 6) : Prop := ∀ d, d ≠ c → t.ch d = s.ch d

/-- No claim of channel `c` is left in the Own Claim List. -/
def State.NoClaims (s : State) (c : Fin 6) : Prop := ∀ o ∈ s.own, o.channel ≠ c

/-- Every claim of another channel is as it was. -/
def State.OtherClaimsKept (s t : State) (c : Fin 6) : Prop :=
  (t.own.filter fun o => o.channel != c) = s.own.filter fun o => o.channel != c

/-- No claim of the channels but `c` and the TURNER channel differs, nor anything else of those channels. -/
def State.VesselsKept (s t : State) (c : Fin 6) : Prop :=
  ∀ d, d ≠ c → (s.ch d).kind ≠ .turner → t.ch d = s.ch d ∧ t.claimsOf d = s.claimsOf d

/-- A phase has just started: RUNNING at phase time 0 (R53). -/
def Channel.JustStarted (h : Channel) : Prop := h.state = .running ∧ h.started = true ∧ h.timer = 0

/-- The newest completion record is of a kind and an end reason (R72). -/
def Channel.EndedBy (h : Channel) (kind : PhaseKind) (reason : EndReason) : Prop :=
  ∃ r, h.records.head? = some r ∧ r.kind = kind ∧ r.reason = reason

/-- What follows at a start of the record `r` (R53, R66, R120): a failed check halts the channel; a LOAD completes at its
start; any other phase has just started. -/
def Channel.StartedBy (h' : Channel) (check : Option CheckReason) (r : PhaseRecord) : Prop :=
  match check with
  | some reason => h'.state = .halted ∧ h'.halt = some (.inconsistent reason)
  | none => if r.kind = .load then h'.EndedBy .load .cast else h'.JustStarted ∧ h'.current = some r

/-- The requests of the panel controller. -/
def panelRequest : Instr → Bool
  | .loadPhase _ _ => true
  | .hold _ => true
  | .release _ => true
  | .setStep _ _ => true
  | .clearHalt _ => true
  | .channelReset _ => true
  | .withdrawOffer _ => true
  | .discard _ _ => true
  | .handGauge _ _ _ _ => true
  | .takeBook _ => true
  | .setRestartHold _ => true
  | .readStationStatus _ => true
  | .readChannelStatus _ => true
  | .readPhaseRecord _ _ => true
  | .readPieceRecord _ => true
  | .readCompletionRecord _ _ => true
  | .readClaimTableEntry _ => true
  | .readPeerTable => true
  | .readBookEntry _ => true
  | .readLineCounters => true
  | .readPieceCounters => true
  | .clearChanges _ => true
  | .setAttentionMask _ => true
  | .popEvent => true
  | .readFault => true
  | .badRequest _ => true
  | _ => false

/-! ## A TURN frame of another station, heard -/

/-- The bytes spell a TURN frame of another station that the station hears, no opening frame, at a moment at which no
charge loses a station. -/
def State.Hears (s : State) (bytes : List Byte) (f : TurnFrame) : Prop :=
  s.hearing = true ∧ decodeTurn bytes = some f ∧ f.sender ≠ s.cfg.address ∧ f.opening = false
    ∧ s.peers.length = 24 ∧ ∀ p ∈ s.peers, p.missed ≤ 1

/-- The read-back of an own TURN frame, with the TURNER flags it was judged by, at a moment at which no charge loses a
station. -/
def State.ReadsBack (s : State) (f : TurnFrame) (ok : Bool) : Prop :=
  s.line.sending = some (.turn f false ok) ∧ ∀ p ∈ s.peers, p.missed ≤ 1

/-- The transfer items and turn ends a frame carries are those given. -/
def CarriesJust (f : TurnFrame) (o : List OfferItem) (r : List ReplyItem) (x : List CastendItem)
    (e : List TurnendItem) : Prop :=
  f.offers = o ∧ f.replies = r ∧ f.castends = x ∧ f.turnends = e

/-- Entries of a frame as they are appended from a sequence on (R151, R154). -/
def entriesFrom (start : Seq) (round : Word16) (station : Nat) (l : List EntryItem) : List Entry :=
  l.zipIdx.map fun x =>
    { sequence := start + BitVec.ofNat 24 x.2, span := 1, item := x.1, round := round, station := station }

/-- The reply a request leaves, and nothing else of it. -/
def State.replied (s : State) (code : Byte) (result : Result) (data : List Nat) : State :=
  { s with panel := { s.panel with reply := ⟨code, result, toBytes data⟩ } }

end Sys2Proof.Machine
end

