-- ==== Sys2Proof/Certificates/Slice0/Obligations.lean ====
section
/-! DEFINITION. The statements for the provers. A statement that a command completes gives the next state, or the parts of
it that the rules name together with what stays as it was. -/

open Sys2Proof Sys2Proof.Machine

/-! ## Steps -/

/-- A step with a command waiting is exec of the command at the front, on the state with the queue's rest. -/
def Obligations.StepRunsFrontCommand : Prop :=
  ∀ (i : Instr) (rest : List Instr) (s : State),
    step { s with pending := i :: rest } = exec i { s with pending := rest }

/-- With nothing waiting the first due event takes place, else one tick passes (the model's choice, log entry 1). -/
def Obligations.IdleStepTakesDueEventOrTick : Prop :=
  ∀ s : State, s.pending = [] →
    (∀ i l, s.dueList = i :: l → step s = exec i s) ∧ (s.dueList = [] → step s = .next s.tick)

/-- Every command of every row answers a next state from every state, and none touches the queue of waiting
commands. That no command faults or is refused, also one whose event cannot come in the state it finds, is the
model's choice (log entry 4). -/
def Obligations.EveryCommandGoesOn : Prop :=
  ∀ (i : Instr) (s : State), ∃ t, exec i s = .next t ∧ t.pending = s.pending

/-- A tick of 0.5 ms moves the times that run by one, leaves those that stand, and moves nothing else (that there is
such a tick, and its length, is the model's choice, log entry 1). The phase timer runs in a RUNNING channel whose
wait set holds no more than TURN_WAIT, up to 245,700 s (R53, R54, R57); the arrival clock runs in every state
(R166); the blower and spray clocks while the channel drives by a record (R77, R92; that they stand in PAUSED for
CLEARED and RESTART by R61 and R193, log entry 1), the gate time in GATING (R125), ACCEPT_LIMIT towards another
station (R142), the turner's movement timer down while its POWER is HELD (R107), the stabilization wait while the
crystal is not ready (R174). Line times run where the crystal is ready and the station hears the line, and silence
while no frame is on it (R176, R15). -/
def Obligations.TickMovesTimesAlone : Prop :=
  ∀ s : State,
    s.tick = { s with
      tb := { s.tb with stab := s.tick.tb.stab }, line := s.tick.line, chans := s.tick.chans,
      turner := { s.turner with timer := s.tick.turner.timer } }
    ∧ s.tick.line = { s.line with
        coldWait := s.tick.line.coldWait, muteTimer := s.tick.line.muteTimer,
        isolation := s.tick.line.isolation, sinceOpening := s.tick.line.sinceOpening,
        roundPart := s.tick.line.roundPart, silence := s.tick.line.silence }
    ∧ ∀ c, s.tick.ch c = { s.ch c with
        timer := (s.tick.ch c).timer, blower := (s.tick.ch c).blower, spray := (s.tick.ch c).spray,
        gate := (s.tick.ch c).gate, clock := (s.tick.ch c).clock
        xfer := { (s.ch c).xfer with limit := (s.tick.ch c).xfer.limit } }
    ∧ s.tick.tb.stab
        = (if s.loader.held = false ∧ s.tb.ready = false then s.tb.stab.map (· + 1) else s.tb.stab)
    ∧ (s.tb.ready = true ∧ s.line.state.hears = true →
        s.tick.line.coldWait = s.line.coldWait.map (· + 1)
        ∧ s.tick.line.muteTimer = s.line.muteTimer.map (· + 1)
        ∧ s.tick.line.isolation = s.line.isolation.map (· + 1)
        ∧ s.tick.line.sinceOpening = s.line.sinceOpening.map (· + 1)
        ∧ s.tick.line.roundPart = (match s.line.roundPart with
            | .turns => .turns
            | .window e => .window (e + 1)
            | .closed e => .closed (e + 1))
        ∧ s.tick.line.silence = (if s.line.onLine = none ∧ s.line.sending = none then s.line.silence + 1
            else s.line.silence))
    ∧ (¬ (s.tb.ready = true ∧ s.line.state.hears = true) → s.tick.line = s.line)
    ∧ s.tick.turner.timer = (if s.moves = true then s.turner.timer - 1 else s.turner.timer)
    ∧ (s.live = false → ∀ c, s.tick.ch c = s.ch c)
    ∧ (s.live = true → ∀ c,
        let h := s.ch c
        let vessel := isVessel h.kind = true
        (s.tick.ch c).clock = h.clock.map (fun n => if n < 2000 then n + 1 else n)
        ∧ (s.tick.ch c).timer = (if vessel ∧ h.state = .running ∧ h.started = true ∧ h.wait.claim = false
            ∧ h.wait.line = false ∧ h.wait.gauge = false ∧ h.wait.offer = false then
              min (h.timer + 1) 491400000 else h.timer)
        ∧ (s.tick.ch c).blower
            = (if vessel ∧ h.drivesBy.isSome = true then h.blower.map (· + 1) else h.blower)
        ∧ (s.tick.ch c).spray
            = (if vessel ∧ h.drivesBy.isSome = true then h.spray.map (· + 1) else h.spray)
        ∧ (s.tick.ch c).gate = (if vessel ∧ h.state = .running ∧ h.inPhase .sample = true
            ∧ h.step = some .gating then h.gate + 1 else h.gate)
        ∧ (s.tick.ch c).xfer.limit = (if vessel ∧ h.xfer.state = .awaiting
            ∧ h.xfer.partner.map (·.station) ≠ some s.cfg.address then h.xfer.limit + 1 else h.xfer.limit))

/-! ## Invariants -/

/-- Headline: every step, a command or a tick, keeps the Claim Table in order, within its 128 entries, and the held
sum of every resource within its allowance (R26, R27; that through a reset and its load the table stays empty is the
part of the invariant that makes it hold in every state). -/
def Obligations.HeldSumsStayWithinAllowances : Prop :=
  ∀ s t : State, s.ClaimsSafe → step s = .next t → t.ClaimsSafe

/-- Headline: every step keeps the lists of the station within the sizes the rules give them: own claims (R28),
completion records (R72), pending TURNENDs (R111), replies (R135), CASTENDs (R137), book and pending entries (R148,
R150), wait list (R159), events (R184). -/
def Obligations.BuffersStayBounded : Prop :=
  ∀ s t : State, s.Bounded → step s = .next t → t.Bounded

/-- The state after reset has the invariant of the Claim Table. The state after reset has its lists within their
sizes. -/
def Obligations.ResetMeetsInvariants : Prop :=
  (State.reset.ClaimsSafe)
  ∧ (State.reset.Bounded)

/-! ## Resets, the load and the Timebase -/

/-- The state after a POWER_UP reset has ended (R24, R44, R113, R132, R165, R188, R189). POWER_UP_RESET gives the
state after reset, held while RESET is low (R189). The model's choice in it: the settings until a load has ended
(log entry 6), ELOCK's level as sampled (log entry 26), the queue and the count of free values. The end of a held
reset starts the crystal and the load (R189). -/
def Obligations.PowerUpResetGivesReset : Prop :=
  (let s := State.reset
  s.line.state = .clocking ∧ s.line.round = 0#16 ∧ s.line.clean = false
    ∧ s.line.checkFailures = 0 ∧ s.line.ownAborted = 0 ∧ s.line.missedTurns = 0
    ∧ s.present = [] ∧ s.claims = [] ∧ s.own = [] ∧ s.replies = [] ∧ s.castends = []
    ∧ s.turner.state = .parked ∧ s.turner.position = none ∧ s.turner.available = true
    ∧ s.book.entries = [] ∧ s.book.count = 0#24 ∧ s.book.numbered = false ∧ s.book.pend = []
    ∧ s.book.startDue = true ∧ s.book.created = 0 ∧ s.book.discarded = 0
    ∧ s.panel.events = [] ∧ s.panel.overflow = 0 ∧ s.panel.record = none ∧ s.changeFlags = {}
    ∧ s.panel.mask = {} ∧ s.attn = false ∧ s.tb.ready = false ∧ s.tb.stab = some 0
    ∧ s.loader.loading = true ∧ s.loader.hold = false ∧ s.AllOff)
  ∧ (∀ (low : Bool) (s : State),
    exec (.powerUpReset low) s = .next { State.reset with
      tb := { ready := false, stab := if low then none else some 0, crystal := !low }
      loader := { State.reset.loader with held := low, loading := !low }
      free := s.free, pending := s.pending })
  ∧ (∀ s : State, s.loader.held = true →
    exec .resetEnd s = .next { s with
      tb := { ready := false, stab := some 0, crystal := true }
      loader := { s.loader with held := false, loading := true } })

/-- A PIN reset clears the line, the tables, the reply list and the panel, keeps the book, the CASTEND list, the
pieces, phases and records, and saves each vessel's claims; a list that an earlier reset saved stays where the load
of that reset was abandoned or ended with a bad image; every drive is off (R189, R24, R44, R75, R135, R137, R165,
R188). That such a list stays also after a later good load while its channel still waits in PAUSED for RESTART, by
its mark restartKept, and that any other list is saved anew, is the model's choice (log entry 22, DEDUCED). Where
the supply has come good since the last load that ended, the reset is a POWER_UP reset, held; while the station is
held already it changes nothing (R189). -/
def Obligations.PinResetKeepsAndClears : Prop :=
  (∀ s : State, s.loader.held = false → s.loader.supply = false →
    ∃ t, exec .pinReset s = .next t
      ∧ t.loader = { s.loader with held := true, loading := false, loaded := false, kind := .pin }
      ∧ t.line.state = .clocking ∧ t.line.round = 0#16 ∧ t.line.checkFailures = s.line.checkFailures
      ∧ t.present = [] ∧ t.claims = [] ∧ t.own = [] ∧ t.replies = [] ∧ t.panel.events = []
      ∧ t.panel.record = none ∧ t.turner.state = .parked ∧ t.turner.position = none
      ∧ t.book = s.book ∧ t.castends = s.castends ∧ t.cfg = s.cfg ∧ t.AllOff
      ∧ ∀ c, (t.ch c).piece = (s.ch c).piece ∧ (t.ch c).current = (s.ch c).current
        ∧ (t.ch c).next = (s.ch c).next ∧ (t.ch c).timer = (s.ch c).timer
        ∧ (t.ch c).records = (s.ch c).records ∧ (t.ch c).state = (s.ch c).state
        ∧ (t.ch c).wait = {}
        ∧ (isVessel (s.ch c).kind = true →
            let stands := s.keepsLists = true
              ∨ (s.ch c).restartKept = true ∧ (s.ch c).state = .paused ∧ (s.ch c).pause = some .restart
            (∀ l, (s.ch c).restart = some l → stands →
              (t.ch c).restart = some l ∧ (t.ch c).restartKept = true)
            ∧ ((s.ch c).restart = none ∨ ¬ stands →
              (t.ch c).restart = some (s.savedClaims c) ∧ (t.ch c).restartKept = false)))
  ∧ (∀ s : State, s.loader.held = false → s.loader.supply = true →
    exec .pinReset s = exec (.powerUpReset true) s)
  ∧ (∀ s : State, s.loader.held = true → exec .pinReset s = .next s)

/-- A good load takes the settings, kinds and digests of the image, starts the arrival clocks, and leaves CLOCKING
where the crystal is ready (R5, R166, R178, R191). After a PIN reset a good load records RESTART, or CONFIG_CHANGED
over it where the image differs, and a changed image leaves the channels, the Transfer Units, the Gauge Book with
its counters and serial, and the line counters as POWER_UP does (R190, R191). -/
def Obligations.GoodLoadTakesImage : Prop :=
  (∀ (image : List Byte) (s : State),
    s.loader.loading = true → s.loader.held = false → goodImage image = true →
    ∃ t, exec (.configLoadGood image) s = .next t
      ∧ t.cfg = imageSettings image
      ∧ t.loader = { s.loader with
                                  loading := false, loaded := true, supply := false, image := image,
                                  lastDigest := some (imageDigest image) }
      ∧ t.panel.reply = ⟨0#8, .ok, []⟩
      ∧ t.line.state = (if s.line.state = .clocking ∧ s.tb.ready = true then .listening else s.line.state)
      ∧ t.claims = s.claims ∧ t.peers = s.peers ∧ t.tb = s.tb
      ∧ (∀ c, (t.ch c).kind = (imageKinds image).get c
        ∧ (t.ch c).clock = if (imageKinds image).get c = .unused then none else some 0)
      ∧ ((s.loader.kind = .powerUp ∨ s.loader.lastDigest ≠ some (imageDigest image)) →
          t.book = Book.start ∧ t.castends = []
          ∧ t.line.checkFailures = 0 ∧ t.line.ownAborted = 0 ∧ t.line.missedTurns = 0
          ∧ ∀ c, t.ch c = {
              kind := (imageKinds image).get c
              state := if isVessel ((imageKinds image).get c) = true then .idle else .unused
              clock := if (imageKinds image).get c = .unused then none else some 0 }))
  ∧ (∀ (image : List Byte) (s : State),
    s.loader.loading = true → s.loader.held = false → goodImage image = true → s.loader.kind = .pin →
    ∃ t, exec (.configLoadGood image) s = .next t ∧ t.panel.fault = true
      ∧ (s.loader.lastDigest = some (imageDigest image) →
          t.panel.record = some {
            kind := .restart, station := some (imageSettings image).address,
            channel := none, round := 0#16, more := s.panel.record.isSome }
          ∧ t.book = s.book ∧ t.castends = s.castends
          ∧ t.line.checkFailures = s.line.checkFailures ∧ t.line.ownAborted = s.line.ownAborted
          ∧ t.line.missedTurns = s.line.missedTurns
          ∧ ∀ c, (t.ch c).records = (s.ch c).records ∨ isVessel ((imageKinds image).get c) = false)
      ∧ (s.loader.lastDigest ≠ some (imageDigest image) →
          t.panel.record = some {
            kind := .configChanged, station := some (imageSettings image).address,
            channel := none, round := 0#16, more := true }))

/-- A bad load leaves the station UNCONFIGURED: every channel shows as UNUSED, every drive is off, what was kept
stands aside (that the settings, with the address and the digests, stay those of the last good load is the model's
choice, log entry 77), and RESTART is recorded after a PIN reset (R5, R190). -/
def Obligations.BadLoadUnconfigures : Prop :=
  ∀ s : State, s.loader.loading = true → s.loader.held = false →
    ∃ t, exec .configLoadBad s = .next t
      ∧ t = { s with loader := t.loader, line := { s.line with state := .unconfigured }, panel := t.panel }
      ∧ t.loader = { s.loader with loading := false, loaded := false, supply := false }
      ∧ (∀ c, t.kindOf c = .unused) ∧ t.AllOff ∧ t.panel.reply = ⟨0#8, .ok, []⟩
      ∧ (s.loader.kind = .pin →
          t.panel.fault = true ∧ t.panel.record.map (·.kind) = some .restart)

/-- The stabilization wait starts again at 0 (R174). The crystal becomes ready: the flag and XTAL are set, and
CLOCKING is left where a good load has ended (R174, R5). The crystal is lost on a station that hears the line: the
flag is cleared, XTAL set, XTAL_LOST recorded, the line state CLOCKING with the crystal mark, the Claim Table empty;
from MEMBER the departure asks every claim again (R175, R5, R10, R33, R44). A crystal loss in UNCONFIGURED leaves
the line state (R175). -/
def Obligations.CrystalReadyAndLost : Prop :=
  (∀ s : State, s.tb.stab.isSome = true → s.tb.ready = false →
    exec .stabilizationRestart s = .next { s with tb := { s.tb with stab := some 0 } })
  ∧ (∀ s : State, s.tb.stab.isSome = true → s.tb.ready = false →
    ∃ t, exec .crystalReady s = .next t
      ∧ t = { s with tb := { s.tb with ready := true, stab := none }, line := t.line, panel := t.panel }
      ∧ t.panel.xtal = true
      ∧ t.line.state = (if s.line.state = .clocking ∧ s.loader.loaded = true then .listening
          else s.line.state))
  ∧ (∀ s : State, s.tb.ready = true → s.line.state.hears = true →
    ∃ t, exec .crystalLost s = .next t
      ∧ t.tb = { s.tb with ready := false, stab := some 0 } ∧ t.panel.xtal = true ∧ t.panel.fault = true
      ∧ t.panel.record = some {
          kind := .xtalLost, station := some s.cfg.address, channel := none,
          round := s.line.round, more := s.panel.record.isSome }
      ∧ t.line.state = .clocking ∧ t.line.record.crystal = true ∧ t.line.sending = none
      ∧ t.line.ownAborted = s.line.ownAborted ∧ t.book = s.book ∧ t.castends = s.castends
      ∧ t.claims = []
      ∧ (s.line.state = .member →
          (∀ o ∈ t.own, o.state = .asked) ∧ (t.peer s.cfg.address).present = false
            ∧ t.line.clean = false)
      ∧ (s.line.state ≠ .member → t.peers = s.peers ∧ (s.turner.order = none → t.own = s.own)))
  ∧ (∀ s : State, s.tb.ready = true → s.line.state = .unconfigured →
    ∃ t, exec .crystalLost s = .next t ∧ t.line = s.line ∧ t.tb.ready = false ∧ t.panel.xtal = true
      ∧ t.panel.record.map (·.kind) = some .xtalLost)

/-! ## The line -/

/-- A cold opening on a silent line: a TURN frame with the opening flag, round 0 and no ENTRY items, on an UNCLEAN
view (R7); on an active line it waits for the frame's end. The read-back of a cold opening: MEMBER, round 0 on an
UNCLEAN view marked member-throughout (R7, R13). -/
def Obligations.ColdOpeningMakesMember : Prop :=
  (∀ s : State, s.line.state = .listening → s.line.coldWait.isSome = true →
    (s.maySend = true →
      ∃ t f ok, exec .coldWaitExpiry s = .next t ∧ t.line.sending = some (.turn f true ok)
        ∧ f.opening = true ∧ f.round = 0#16 ∧ f.sender = s.cfg.address ∧ f.home = s.cfg.homeTurner
        ∧ f.digest = s.cfg.settingsDigest ∧ f.count = s.book.count ∧ f.entries = []
        ∧ t.line.clean = false ∧ t.line.coldWait = none ∧ t.line.state = .listening
        ∧ t = { s with line := t.line, own := t.own, turner := t.turner, replies := t.replies,
                       castends := t.castends })
    ∧ (s.maySend = false →
      exec .coldWaitExpiry s = .next { s with line := { s.line with coldWait := none, coldDue := true } }))
  ∧ (∀ (s : State) (f : TurnFrame) (ok : Bool), s.line.sending = some (.turn f true ok) →
    ∃ t, exec .coldOpeningReadBack s = .next t
      ∧ t.line.state = .member ∧ t.line.round = 0#16 ∧ t.line.clean = false
      ∧ t.line.record.notMember = false ∧ t.line.aborts = 0 ∧ t.line.dissenting = false
      ∧ t.line.sending = none ∧ t.line.sinceOpening = some 0 ∧ t.line.lastSender = some f.sender
      ∧ t.cfg = s.cfg ∧ t.loader = s.loader ∧ t.tb = s.tb)

/-- What an entry into LISTENING sets (R6), from JOINING, at the end of MUTE, and at the mute timer's last expiry
(R8, R9). A mute timer that expires with more to wait takes one from the count and starts again (R9). -/
def Obligations.EntriesIntoListening : Prop :=
  (∀ (i : Instr) (s : State),
    (i = .joinColdWaitExpiry ∧ s.line.state = .joining ∧ s.line.sending = none)
      ∨ ((i = .muteEnd ∨ i = .muteTimerExpiry) ∧ s.line.state = .mute ∧ s.line.muteCount ≤ 1) →
    exec i s = .next { s with
      line := { s.line with
        state := .listening, aborts := 0, rounds := 0, openingHeard := false, coldWait := some 0,
        coldDue := false, muteCount := 0, muteTimer := none }
      panel := { s.panel with lineState := true } })
  ∧ (∀ s : State, s.line.state = .mute → 2 ≤ s.line.muteCount →
    exec .muteTimerExpiry s = .next { s with
      line := { s.line with muteCount := s.line.muteCount - 1, muteTimer := some 0 } })

/-- The joiner's delay has run on a silent line in the join window: its JOIN frame is sent (R8, R3). The read-back
of a JOIN makes the station MEMBER in a round marked not-member-throughout (R4, R22). -/
def Obligations.JoinMakesMember : Prop :=
  (∀ s : State, s.mayJoin = true →
    exec .joinDelayExpiry s = .next { s with
      line := { s.line with
        onLine := some s.frameStart, joinBlocked := true
        sending := some (.join ⟨s.cfg.address, s.line.round, s.cfg.settingsDigest⟩) } })
  ∧ (∀ (s : State) (f : JoinFrame), s.line.sending = some (.join f) →
    1 ≤ s.cfg.address → s.cfg.address ≤ s.peers.length →
    ∃ t, exec .ownJoinReadBack s = .next t
      ∧ t.line.state = .member ∧ t.line.aborts = 0 ∧ t.line.sending = none
      ∧ t.line.record.notMember = true ∧ t.line.round = s.line.round
      ∧ (t.peer s.cfg.address).present = true ∧ (t.peer s.cfg.address).missed = 0
      ∧ (s.othersPresent = true → t.line.isolation = some 0)
      ∧ t = { s with line := t.line, peers := t.peers, panel := t.panel })

/-- A MEMBER at its opening instant has its round opening event and sends an opening frame of the next round (R12,
R13, R11, R21, R38). -/
def Obligations.OpeningInstantOpensRound : Prop :=
  ∀ (s : State) (k : Nat), s.line.state = .member → s.maySend = true → s.beforeOpening = true →
    s.openingPlace = some k → (k = 0 ∨ s.silentSinceO = true) →
    ∃ t f ok, exec .openingInstantReached s = .next t ∧ t.line.sending = some (.turn f false ok)
      ∧ f.opening = true ∧ f.round = s.line.round + 1 ∧ f.sender = s.cfg.address
      ∧ t.line.round = s.line.round + 1 ∧ t.line.clean = s.line.record.unmarked
      ∧ t.line.record = { isolation := s.line.isolated } ∧ t.line.dissenting = false
      ∧ t.line.turnTaken = true ∧ t.line.state = .member
      ∧ t.own.map (·.age) = s.own.map (fun o => if o.age < 4095 then o.age + 1 else o.age)
      ∧ t.own.map (·.state) = s.own.map (·.state) ∧ t.claims = s.claims ∧ t.peers = s.peers

/-- A MEMBER whose slot has come sends its TURN frame in its round (R15, R3). Nothing else of the line changes but
the record of where the frame began and the silence before it (brought to the slot, log entry 2); the lists keep
their items, marked as those the frame carries, and the own claims change in their mark of how the frame carries
them alone. The frame carries every claim item; each with HOLD is for a claim that is HELD, or, on a CLEAN view
without the isolation mark, for a WAITING one whose take is lawful in the table as the items before it leave it (R3,
R31); and the shed flag is set exactly on the claims of WATER and POWER of priority 6 or 7 that are not HELD and
whose take is not lawful there (R46). -/
def Obligations.TurnSlotSendsTurn : Prop :=
  ∀ (s : State) (p : Nat), s.line.state = .member → s.maySend = true → s.line.turnTaken = false →
    s.line.roundPart = .turns → s.turnPlace = some p →
    ∃ t f ok, exec .turnSlotReached s = .next t ∧ t.line.sending = some (.turn f false ok)
      ∧ f.opening = false ∧ f.round = s.line.round ∧ f.sender = s.cfg.address
      ∧ f.digest = s.cfg.settingsDigest ∧ f.count = s.book.count ∧ t.line.turnTaken = true
      ∧ (s.line.dissenting = true → f.claims = [] ∧ f.entries = [])
      ∧ (s.line.clean = false → f.entries = [])
      ∧ t.line = { s.line with sending := t.line.sending, turnTaken := true, onLine := t.line.onLine,
                               silence := t.line.silence }
      ∧ t.line.onLine.isSome = true ∧ s.line.silence ≤ t.line.silence
      ∧ t = { s with line := t.line, own := t.own,
                     turner := { s.turner with turnends := t.turner.turnends }, replies := t.replies,
                     castends := t.castends }
      ∧ t.own.map (fun o => { o with sent := .fresh }) = s.own.map (fun o => { o with sent := .fresh })
      ∧ t.replies.map (·.item) = s.replies.map (·.item)
      ∧ (t.replies.filter (·.inFrame)).map (·.item) = f.replies
      ∧ t.castends.map (·.item) = s.castends.map (·.item)
      ∧ (t.castends.filter (·.inFrame)).map (·.item) = f.castends
      ∧ t.turner.turnends.map (·.item) = s.turner.turnends.map (·.item)
      ∧ (t.turner.turnends.filter (·.inFrame)).map (·.item) = f.turnends
      ∧ t.own.map (·.state) = s.own.map (·.state)
      ∧ (s.own.length ≤ 18 → f.claims = s.claimItems
          ∧ ∀ pre i post, f.claims = pre ++ i :: post →
              let before := pre.foldl (applyItem s.cfg s.turnerOk s.claims s.cfg.address f.claims)
                (removalStep s.cfg.address f.claims s.claims)
              let ok := lawful s.cfg s.turnerOk before.table (entryOf s.cfg.address i .waiting i.shed)
              ∃ o ∈ s.own, o.channel.val = i.channel ∧ o.slot = i.slot
                ∧ (i.hold = true → o.state = .held
                    ∨ (o.state = .waiting ∧ s.line.clean = true ∧ s.line.record.isolation = false ∧ ok = true))
                ∧ (i.shed = true ↔ o.state ≠ .held ∧ (o.resource = .water ∨ o.resource = .power)
                    ∧ 6 ≤ o.priority ∧ ok = false))

/-- An aborted own frame is counted and marked, and nothing of it takes effect; the second in a row of a TURN or
JOIN sends the station to MUTE (R1, R7). A garbled frame is a check failure, counted and marked, and leaves
settings, load and Timebase (R2). -/
def Obligations.AbortedFrameTakesNoEffect : Prop :=
  (∀ (s : State) (own : OwnFrame) (other : Bool), s.line.sending = some own →
    ∃ t, exec (.ownFrameAborted other) s = .next t
      ∧ t.line.sending = none
      ∧ t.line.ownAborted = (if s.line.ownAborted < 65535 then s.line.ownAborted + 1 else s.line.ownAborted)
      ∧ t.line.record.checkFailure = true ∧ t.book = s.book ∧ t.castends = s.castends ∧ t.replies = s.replies
      ∧ ((s.line.aborts = 0 ∨ ∃ f ok, own = .turn f true ok) → t = { s with line := t.line })
      ∧ ((∃ f ok, own = .turn f true ok) →
          t.line.aborts = s.line.aborts ∧ t.line.state = s.line.state ∧ t.line.coldWait = some 0)
      ∧ (¬ (∃ f ok, own = .turn f true ok) → s.line.aborts = 0 →
          t.line.aborts = 1 ∧ t.line.state = s.line.state)
      ∧ (¬ (∃ f ok, own = .turn f true ok) → 1 ≤ s.line.aborts → t.line.state = .mute))
  ∧ (∀ s : State, s.hearing = true →
    ∃ t, exec .garbledFrame s = .next t
      ∧ t.line.checkFailures
          = (if s.line.checkFailures < 65535 then s.line.checkFailures + 1 else s.line.checkFailures)
      ∧ t.line.record.checkFailure = true ∧ t.cfg = s.cfg ∧ t.loader = s.loader ∧ t.tb = s.tb)

/-- The second consecutive abort: MUTE, and from MEMBER the departure (R9, R10, R33). -/
def Obligations.MuteEntryDeparts : Prop :=
  ∀ s : State, (s.line.state = .member ∨ s.line.state = .joining) → 1 ≤ s.line.aborts →
    ∃ t, exec .muteEntry s = .next t
      ∧ t.line.state = .mute ∧ t.line.muteCount = 16 ∧ t.line.muteTimer = some 0 ∧ t.line.aborts = 2
      ∧ t.panel.lineState = true ∧ t.book = s.book ∧ t.castends = s.castends ∧ t.replies = s.replies
      ∧ (s.line.state = .member →
          t.claims = [] ∧ (∀ o ∈ t.own, o.state = .asked) ∧ (t.peer s.cfg.address).present = false
            ∧ (t.peer s.cfg.address).change = (decide (s.cfg.address - 1 < s.peers.length))
            ∧ t.line.clean = false ∧ t.line.dissenting = false ∧ t.line.isolated = false
            ∧ t.line.isolation = none ∧ t.line.record.notMember = true)
      ∧ (s.line.state = .joining → t.claims = s.claims ∧ t.own = s.own ∧ t.peers = s.peers
            ∧ t.chans = s.chans)

/-- The read-back of an own TURN frame: the abort count is 0, the sender's entry takes the header, and silence is
measured from its end; an own opening keeps its round, another frame's is compared (R4, R14, R15, R18). Where the
frame carries claims alone, no charge loses a station, no merge is under way and the turner is another station's,
its list is applied to the own table (R34) and every own claim is brought up to date with it: a claim that the frame
took is HELD with age 0 and unvoided; an asked one that the table now holds waits; one the table does not hold is
asked; one asked or voided since the frame was built stays (R32). -/
def Obligations.OwnTurnReadBackTakesEffect : Prop :=
  (∀ (s : State) (f : TurnFrame) (ok : Bool), s.line.sending = some (.turn f false ok) →
    1 ≤ f.sender → f.sender ≤ s.peers.length →
    ∃ t, exec .ownTurnReadBack s = .next t
      ∧ t.line.sending = none ∧ t.line.aborts = 0 ∧ t.line.silence = 0 ∧ t.line.onLine = none
      ∧ t.line.lastSender = some f.sender
      ∧ t.line.round = (if f.opening = true then s.line.round else f.round)
      ∧ (t.peer f.sender).present = true ∧ (t.peer f.sender).missed = 0
      ∧ (t.peer f.sender).home = f.home ∧ (t.peer f.sender).available = f.available
      ∧ t.cfg = s.cfg ∧ t.loader = s.loader ∧ t.tb = s.tb)
  ∧ (∀ (s : State) (f : TurnFrame) (ok : Bool), s.line.sending = some (.turn f false ok) →
    CarriesJust f [] [] [] [] → f.entries = [] → s.cfg.homeTurner = false → (∀ p ∈ s.peers, p.missed ≤ 1) →
    (∀ o ∈ s.own, o.sent ≠ .merged ∧ ∀ n, o.sent ≠ .base n) →
    ∃ t, exec .ownTurnReadBack s = .next t
      ∧ t.claims = posted s.cfg (applyList s.cfg ok f.sender f.claims s.claims).table
      ∧ t.own = s.own.map (t.broughtUp f.claims)
      ∧ ∀ o ∈ s.own,
        (t.broughtUp f.claims o).channel = o.channel ∧ (t.broughtUp f.claims o).slot = o.slot
        ∧ (o.sent = .take →
            (t.broughtUp f.claims o).state = .held ∧ (t.broughtUp f.claims o).age = 0
              ∧ (t.broughtUp f.claims o).voided = false ∧ (t.broughtUp f.claims o).amount = o.amount)
        ∧ (o.sent = .wait → t.entryOfOwn o = none → (t.broughtUp f.claims o).state = .asked)
        ∧ (o.sent = .wait → (t.entryOfOwn o).isSome = true → o.state = .asked →
            (t.broughtUp f.claims o).state = .waiting)
        ∧ (o.sent = .fresh → t.broughtUp f.claims o = o))

/-- A valid TURN frame of another station: its round number stands, its header is in the Peer Table, its sender is
the last sender, and silence is measured from its end (R2, R13, R14, R15, R18). A valid TURN frame that names the
own address, heard: MUTE, the fault, and the frame's content discarded (R20). -/
def Obligations.TurnFrameHeard : Prop :=
  (∀ (s : State) (bytes : List Byte) (f : TurnFrame), s.hearing = true → decodeTurn bytes = some f →
    f.sender ≠ s.cfg.address → s.peers.length = 24 →
    ∃ t, exec (.validTurnFrameHeard bytes) s = .next t
      ∧ t.line.round = f.round ∧ t.line.lastSender = some f.sender ∧ t.line.onLine = none
      ∧ t.line.silence = 0 ∧ t.line.sending = none ∧ t.line.overridden = false
      ∧ (t.peer f.sender).present = true ∧ (t.peer f.sender).missed = 0
      ∧ (t.peer f.sender).home = f.home ∧ (t.peer f.sender).available = f.available
      ∧ t.line.checkFailures = s.line.checkFailures
      ∧ t.cfg = s.cfg ∧ t.loader = s.loader ∧ t.tb = s.tb)
  ∧ (∀ (s : State) (bytes : List Byte) (f : TurnFrame), s.hearing = true → decodeTurn bytes = some f →
    f.sender = s.cfg.address →
    ∃ t, exec (.validTurnFrameHeard bytes) s = .next t
      ∧ t.line.state = .mute ∧ t.line.muteCount = 16 ∧ t.line.muteTimer = some 0
      ∧ t.panel.record = some {
          kind := .duplicateAddress, station := some s.cfg.address, channel := none,
          round := s.line.round, more := s.panel.record.isSome }
      ∧ t.panel.fault = true ∧ t.line.round = s.line.round ∧ t.book = s.book ∧ t.replies = s.replies
      ∧ t.castends = s.castends
      ∧ (s.line.state ≠ .member → t.claims = s.claims ∧ t.peers = s.peers ∧ t.chans = s.chans))

/-- A valid JOIN frame: a new station's entry becomes PRESENT with its flags clear; a PRESENT one is a
DUPLICATE_JOIN; the own address outside MEMBER is a duplicate address (R17, R16, R20). That a PRESENT sender's
missed-turn count becomes 0 is the model's choice (log entry 12, DEDUCED). -/
def Obligations.JoinFrameHeard : Prop :=
  ∀ (s : State) (bytes : List Byte) (f : JoinFrame), s.hearing = true → decodeJoin bytes = some f →
    s.peers.length = 24 →
    ∃ t, exec (.validJoinFrameHeard bytes) s = .next t
      ∧ t.line.round = s.line.round ∧ t.line.onLine = none ∧ t.line.silence = 0
      ∧ t.book = s.book ∧ t.castends = s.castends ∧ t.replies = s.replies
      ∧ ((s.peer f.sender).present = false → f.sender ≠ s.cfg.address →
          t.peer f.sender = { present := true, change := true }
          ∧ (∀ a, a ≠ f.sender → 1 ≤ a → t.peer a = s.peer a)
          ∧ t.claims = s.claims ∧ t.own = s.own ∧ t.chans = s.chans ∧ t.panel = s.panel)
      ∧ ((s.peer f.sender).present = true →
          t.panel.record = some {
            kind := .duplicateJoin, station := some f.sender, channel := none,
            round := s.line.round, more := s.panel.record.isSome }
          ∧ (t.peer f.sender).present = true ∧ (t.peer f.sender).missed = 0
          ∧ t.claims = s.claims ∧ t.own = s.own ∧ t.chans = s.chans)
      ∧ ((s.peer f.sender).present = false → f.sender = s.cfg.address →
          t.line.state = .mute ∧ t.panel.record.map (·.kind) = some .duplicateAddress)

/-- The join window opened by silence charges the whole ladder once (R15, R16, R19). The join window closes on a
silent line, a frame starts on it, and a LISTENING station becomes JOINING (R17, R15, R6). -/
def Obligations.JoinWindowAndFrames : Prop :=
  (∀ (s : State) (x : Nat), s.line.state.hears = true → s.lineIdle = true → s.line.roundPart = .turns →
    s.line.lastSender = some x →
    ∃ t, exec .joinWindowOpens s = .next t
      ∧ t.line.roundPart = .window 0 ∧ t.line.joinBlocked = false ∧ t.line.round = s.line.round
      ∧ ∀ a ∈ addresses, t.peer a =
          if a ∈ s.ladder x ∧ a ≠ s.cfg.address then
            (if 2 ≤ (s.peer a).missed then { change := true }
             else { s.peer a with missed := (s.peer a).missed + 1 })
          else s.peer a)
  ∧ ((∀ (s : State) (e : Nat), s.line.state.hears = true → s.lineIdle = true → s.line.roundPart = .window e →
    exec .joinWindowCloses s = .next { s with line := { s.line with roundPart := .closed 0 } })
  ∧ (∀ s : State, s.line.state.hears = true → s.lineIdle = true →
    ∃ t, exec .lineFrameStart s = .next t
      ∧ t = { s with line := { s.line with
          onLine := some ⟨s.line.silence, s.position, s.line.lastSender⟩
          joinBlocked := s.line.joinBlocked || decide (s.position = .inWindow) } })
  ∧ (∀ s : State, s.line.state = .listening → s.line.openingHeard = true → 1 ≤ s.line.rounds →
    exec .joiningEntry s = .next { s with
      line := { s.line with state := .joining, rounds := 2, coldWait := some 0, coldDue := false }
      panel := { s.panel with lineState := true } }))

/-- The isolation timer expires: isolated, with the mark, no claim HELD any more, MEMBER still, and of the own table
only the posted flags of the claims that were HELD are cleared (R22, R33, R30). A station's third missed turn: its
entry is ABSENT and its claims are gone (R19, R43). At that loss a channel AWAITING from it makes its copy an orphan
with SOURCE_LOST (R142; that an IDLE one is STARVED is the model's choice, log entry 21); a channel ACCEPTED by it
marks the piece UNCONFIRMED_OUT where its drive has started, and else offers again from PAUSED(DEST_LOST), or,
HALTED, frees the destination (R143); a unit in any other state stays. -/
def Obligations.LossesVoidAndExpire : Prop :=
  (∀ s : State, s.line.state = .member → s.line.isolation.isSome = true →
    ∃ t, exec .isolationTimerExpiry s = .next t
      ∧ t.line = { s.line with
          isolated := true, isolation := some 0, record := { s.line.record with isolation := true } }
      ∧ t.own = s.own.map (fun o =>
          if o.state = .held then { o with state := .waiting, age := 0, voided := true, sent := .fresh }
          else o)
      ∧ (∀ c r, t.hasHeld c r = false)
      ∧ t.claims = s.claims.map (fun e =>
          if e.station = s.cfg.address
              ∧ ∃ o ∈ s.own, o.state = .held ∧ o.channel.val = e.channel ∧ o.slot = e.slot
          then { e with posted := false } else e)
      ∧ t = { s with line := t.line, own := t.own, claims := t.claims, chans := t.chans })
  ∧ (∀ (s : State) (a : Nat), s.line.state.hears = true → (s.peer a).present = true →
    2 ≤ (s.peer a).missed → a ≠ s.cfg.address →
    ∃ t, exec (.peerLost a) s = .next t
      ∧ t.peer a = { change := true } ∧ (∀ e ∈ t.claims, e.station ≠ a)
      ∧ (∀ e ∈ s.claims, e.station ≠ a → ∃ e' ∈ t.claims, e'.key = e.key ∧ e'.state = e.state
          ∧ e'.amount = e.amount)
      ∧ t.line.round = s.line.round ∧ t.line.state = s.line.state)
  ∧ (∀ (s : State) (a : Nat) (c : Fin 6), s.line.state.hears = true → (s.peer a).present = true →
    2 ≤ (s.peer a).missed → a ≠ s.cfg.address → isVessel (s.ch c).kind = true →
    (s.ch c).xfer.partner.map (·.station) = some a →
    ∃ t, exec (.peerLost a) s = .next t ∧
      let h := s.ch c
      let alone := ∀ d, d ≠ c → (s.ch d).xfer.partner.map (·.station) ≠ some a
      let quiet := s.cfg.homeTurner = false ∧ s.panel.events = [] ∧ s.panel.overflow = 0
      (∀ p, h.xfer.state = .awaiting → h.xfer.copy = some p →
        (t.ch c).piece = some { p with
            stage := if h.xfer.loadout then .kiln else .box, orphan := true, unconfirmedOut := false }
          ∧ (t.ch c).xfer = {} ∧ (t.ch c).lastEnd = none
          ∧ (t.ch c).state = (if h.state = .ready then .paused
              else if h.state = .idle then .starved else h.state)
          ∧ (t.ch c).pause = (if h.state = .ready then some .orphan
              else if h.state = .idle then none else h.pause)
          ∧ (alone → t.book = { s.book with
              received := if s.book.received < 65535 then s.book.received + 1 else s.book.received })
          ∧ (alone → quiet →
              t.panel.events.head? = some ⟨.orphan, some c, some p.id, s.line.round, [1, 0, 0, 0]⟩))
      ∧ (h.xfer.state = .accepted → h.xfer.driveStarted = true →
          t.ch c = { h with piece := h.piece.map fun p => { p with unconfirmedOut := true } }
            ∧ t.claimsOf c = s.claimsOf c)
      ∧ (h.xfer.state = .accepted → h.xfer.driveStarted = false → h.state ≠ .halted →
          (t.ch c).xfer = { h.xfer with state := .suspended } ∧ (t.ch c).step = some .offering
            ∧ (t.ch c).state = .paused ∧ (t.ch c).pause = some .destLost ∧ t.NoClaims c
            ∧ (t.ch c).piece = h.piece ∧ (t.ch c).timer = h.timer
            ∧ (alone → t.castends = s.castends)
            ∧ (alone → quiet → t.panel.events
                = [⟨.paused, some c, h.piece.map (·.id), s.line.round, [7, 0, 0, 0]⟩]))
      ∧ (∀ d id, h.xfer.state = .accepted → h.xfer.driveStarted = false → h.state = .halted →
          h.xfer.partner = some d → h.xfer.piece = some id →
          t.ch c = { h with xfer := {} }
            ∧ (alone → t.castends = placeCastend ⟨c.val, d, .cancelled id⟩ s.castends))
      ∧ (h.xfer.state ≠ .awaiting → h.xfer.state ≠ .accepted →
          t.ch c = h ∧ t.claimsOf c = s.claimsOf c))

/-! ## Transfers -/

/-- The ACCEPT_LIMIT: the copy of the offer becomes the piece, an orphan at its new stage, and the unit is NONE; a
READY channel is PAUSED(ORPHAN), a HALTED or PAUSED one keeps its state (R142, R139); that an IDLE one is STARVED is
the model's choice (log entry 21). The eighth round without an answer: the offer is SUSPENDED and the source
PAUSED(OFFER_UNANSWERED) (R133). -/
def Obligations.TransferLimitsAct : Prop :=
  (∀ (s : State) (c : Fin 6) (p : Piece), s.limitRuns c = true → (s.ch c).xfer.copy = some p →
    ∃ t, exec (.orphanAcceptLimit c) s = .next t
      ∧ (t.ch c).piece = some { p with
          stage := if (s.ch c).xfer.loadout then .kiln else .box, orphan := true, unconfirmedOut := false }
      ∧ (t.ch c).xfer = {}
      ∧ (t.ch c).state = (if (s.ch c).state = .ready then .paused
          else if (s.ch c).state = .idle then .starved else (s.ch c).state)
      ∧ (t.ch c).pause = (if (s.ch c).state = .ready then some .orphan
          else if (s.ch c).state = .idle then none else (s.ch c).pause)
      ∧ t.book = { s.book with
          received := if s.book.received < 65535 then s.book.received + 1 else s.book.received }
      ∧ t = { s with chans := t.chans, book := t.book, panel := t.panel } ∧ s.OthersKept t c)
  ∧ (∀ (s : State) (c : Fin 6), s.vessel c = true → s.countsOffers c = true → 7 ≤ (s.ch c).xfer.count →
    ∃ t, exec (.offerUnanswered c) s = .next t
      ∧ (t.ch c).xfer = { (s.ch c).xfer with state := .suspended, count := 8 }
      ∧ (t.ch c).state = .paused ∧ (t.ch c).pause = some .offerUnanswered ∧ (t.ch c).wait.offer = false
      ∧ (t.ch c).piece = (s.ch c).piece ∧ (t.ch c).timer = (s.ch c).timer
      ∧ t = { s with chans := t.chans, panel := t.panel } ∧ s.OthersKept t c)

/-- The transfer items of a TURN frame of another station, each where it is the only one of its frame. OFFER: the
first of the checks that applies gives the reply, and without one the channel awaits the piece (R134). ACCEPT: the
source's unit is ACCEPTED and asks its transfer claims, but in PAUSED(RESTART); DECLINE: SUSPENDED and
PAUSED(OFFER_DECLINED); an ACCEPT of no such transfer is answered CANCELLED (R136). CASTEND COMPLETE: the awaited
piece is placed and counted, the unit is NONE, and in READY the first phase starts; it confirms an orphan; CANCELLED
frees the destination; any other is ignored (R139, R140). That an IDLE destination is STARVED is the model's choice
(log entry 21). -/
def Obligations.TransferItemsHeard : Prop :=
  (∀ (s : State) (bytes : List Byte) (f : TurnFrame) (c : Fin 6) (o : OfferItem), s.Hears bytes f →
    CarriesJust f [o] [] [] [] → o.dest = ⟨s.cfg.address, c.val⟩ →
    ∃ t, exec (.validTurnFrameHeard bytes) s = .next t ∧
      let h := s.ch c
      let source : Pair := ⟨f.sender, o.source⟩
      let again := h.xfer.state = .awaiting ∧ h.xfer.partner = some source
        ∧ h.xfer.piece = some o.content.id
      let elsewhere := ∃ d, d ≠ c ∧ ((s.ch d).piece.map (·.id) = some o.content.id
        ∨ (s.ch d).xfer.state = .awaiting ∧ (s.ch d).xfer.piece = some o.content.id)
      let wrongPlace := h.kind ≠ if o.loadout then .kiln else .box
      let wrongRecord := h.current.map (·.kind) ≠ some (if o.loadout then .load else .couch)
      let holds := h.piece.isSome = true ∨ elsewhere
      let unready := h.state ≠ .ready ∨ h.xfer.state = .awaiting
      let answered := fun d => t.replies = placeReply ⟨c.val, source, o.content.id, d⟩ s.replies
      (wrongPlace → answered (some .wrongKind) ∧ (h.kind ≠ .turner → t.ch c = h))
      ∧ (¬ wrongPlace → again → answered none ∧ t.ch c = h)
      ∧ (¬ wrongPlace → ¬ again → h.state = .halted → answered (some .halted) ∧ t.ch c = h)
      ∧ (¬ wrongPlace → ¬ again → h.state ≠ .halted → holds → answered (some .hasPiece) ∧ t.ch c = h)
      ∧ (¬ wrongPlace → ¬ again → h.state ≠ .halted → ¬ holds → unready →
          answered (some .notReady) ∧ t.ch c = h)
      ∧ (¬ wrongPlace → ¬ again → ¬ holds → ¬ unready → wrongRecord →
          answered (some .wrongKind) ∧ t.ch c = h)
      ∧ (¬ wrongPlace → ¬ again → ¬ holds → ¬ unready → ¬ wrongRecord →
          answered none ∧ t.ch c = { h with xfer := {
            state := .awaiting, partner := some source, piece := some o.content.id,
            loadout := o.loadout, copy := some o.content } })
      ∧ s.VesselsKept t c)
  ∧ (∀ (s : State) (bytes : List Byte) (f : TurnFrame) (c : Fin 6) (r : ReplyItem), s.Hears bytes f →
    CarriesJust f [] [r] [] [] → r.source = ⟨s.cfg.address, c.val⟩ → isVessel (s.ch c).kind = true →
    ∃ t, exec (.validTurnFrameHeard bytes) s = .next t ∧
      let h := s.ch c
      let dest : Pair := ⟨f.sender, r.channel⟩
      let offered := h.xfer.state = .offering ∧ h.xfer.piece = some r.id ∧ h.xfer.partner = some dest
      let strange := h.xfer.state = .none ∨ h.xfer.piece ≠ some r.id ∨ h.xfer.state = .suspended
      (offered → r.decline = none →
        (t.ch c).xfer = { h.xfer with state := .accepted, acceptedOnce := true, driveStarted := false }
          ∧ (t.ch c).wait.offer = false ∧ (t.ch c).state = h.state ∧ t.castends = s.castends
          ∧ (h.pause = some .restart → t.claimsOf c = s.claimsOf c)
          ∧ ∀ k, h.pause ≠ some .restart → h.current = some k →
              (t.ch c).step = some (if h.xfer.loadout then .loading else .casting)
                ∧ (t.ch c).wait.claim = true
                ∧ (s.claimsOf c = [] → t.claimsOf c = [
                    askedClaim c 0 ⟨if h.xfer.loadout then .loader else .castway, 1, k.priority, false,
                      some (.dest dest), none⟩,
                    askedClaim c 1 ⟨.power, k.power.getD 0, k.priority, false, none, none⟩]))
      ∧ (∀ d, offered → r.decline = some d →
          (t.ch c).xfer = { h.xfer with state := .suspended } ∧ (t.ch c).wait.offer = false
            ∧ (t.ch c).state = .paused ∧ (t.ch c).pause = some .offerDeclined
            ∧ t.claimsOf c = s.claimsOf c ∧ t.castends = s.castends)
      ∧ (¬ offered → t.ch c = h
          ∧ t.castends = if r.decline = none ∧ strange then
              placeCastend ⟨c.val, dest, .cancelled r.id⟩ s.castends else s.castends)
      ∧ s.VesselsKept t c)
  ∧ (∀ (s : State) (bytes : List Byte) (f : TurnFrame) (c : Fin 6) (x : CastendItem), s.Hears bytes f →
    CarriesJust f [] [] [x] [] → x.dest = ⟨s.cfg.address, c.val⟩ → (s.ch c).kind ≠ .turner →
    ∃ t, exec (.validTurnFrameHeard bytes) s = .next t ∧
      let h := s.ch c
      let awaits := fun id => h.xfer.state = .awaiting ∧ h.xfer.partner = some ⟨f.sender, x.source⟩
        ∧ h.xfer.piece = some id
      (∀ p, x.outcome = .complete p → awaits p.id →
        let placed := some { p with
          stage := if h.xfer.loadout then .kiln else .box, orphan := false, unconfirmedOut := false }
        (t.ch c).xfer = {}
          ∧ t.book.received = (if s.book.received < 65535 then s.book.received + 1 else s.book.received)
          ∧ (h.state = .halted ∨ h.state = .paused →
              t.ch c = { h with piece := placed, xfer := {}, completedHere := false, lastEnd := none })
          ∧ (h.state = .idle → (t.ch c).state = .starved ∧ (t.ch c).piece = placed)
          ∧ (∀ r, h.state = .ready → h.kind = .box → h.current = some r → r.kind = .couch →
              (t.ch c).JustStarted ∧ (t.ch c).step = some .settling ∧ (t.ch c).piece = placed)
          ∧ (∀ r, h.state = .ready → h.kind = .kiln → h.current = some r → r.kind = .load →
              (t.ch c).EndedBy .load .cast ∧ (t.ch c).completedHere = true))
      ∧ (∀ p q, x.outcome = .complete p → ¬ awaits p.id → h.piece = some q → q.id = p.id →
          q.orphan = true →
          t.ch c = { h with piece := some { q with orphan := false } } ∧ t.book.received = s.book.received)
      ∧ (∀ id, x.outcome = .cancelled id →
          t.ch c = (if awaits id then { h with xfer := {} } else h) ∧ t.book.received = s.book.received)
      ∧ (∀ p, x.outcome = .complete p → ¬ awaits p.id →
          (∀ q, h.piece = some q → q.id = p.id → q.orphan = false) →
          t.ch c = h ∧ t.book.received = s.book.received)
      ∧ ((h.state ≠ .ready ∨ ∀ p, x.outcome ≠ .complete p) → s.VesselsKept t c))

/-- TURNEND of a turn in progress, of its order or a later one, ends the TURN: TURNED for OK, TURN_MISSED else, due
at RELEASE in PAUSED, the TURNER claim dropped and TURN_WAIT cleared; any other is ignored (R100). A TURNER entry
that becomes HOLDING gives a PARKED turner its order, with its POWER asked, and a FAULTED one the TURNEND FAULT; a
moving or waiting one is left as it is (R106, R105). The order's entry that stops holding abandons the turn: PARKED,
the position by the state abandoned, its claim dropped, TURNEND ABANDONED in the list (R109); the movement timer 0
is the model's choice (log entry 44). -/
def Obligations.TurnsOrderedAndEnded : Prop :=
  (∀ (s : State) (bytes : List Byte) (f : TurnFrame) (c : Fin 6) (e : TurnendItem), s.Hears bytes f →
    CarriesJust f [] [] [] [e] → e.box = ⟨s.cfg.address, c.val⟩ → (s.ch c).kind ≠ .turner →
    ∃ t, exec (.validTurnFrameHeard bytes) s = .next t ∧
      let h := s.ch c
      let reason : EndReason := if e.outcome = .ok then .turned else .turnMissed
      let accepted := h.kind = .box ∧ h.inPhase .turn = true ∧ (h.state = .running ∨ h.state = .paused)
        ∧ ∃ r, h.turnRound = some r ∧ (e.round - r).toNat < 32768
      (accepted → h.state = .running →
          (t.ch c).EndedBy .turn reason ∧ (h.next = none → (t.ch c).wait.turn = false))
      ∧ (accepted → h.state = .paused → h.due = none →
          (t.ch c).due = some reason ∧ (t.ch c).state = .paused ∧ (t.ch c).wait.turn = false
            ∧ t.claimsOn c .turner = [])
      ∧ (¬ accepted → t.ch c = h ∧ t.claimsOf c = s.claimsOf c))
  ∧ (∀ (s : State) (bytes : List Byte) (f : TurnFrame) (i : ClaimItem) (k : Fin 6) (n : Nat),
    s.Hears bytes f → CarriesJust f [] [] [] [] → f.claims = [i] → s.cfg.homeTurner = true →
    s.turnerCh = some k → i.resource = .turner → i.hold = true → i.amount = 1 →
    i.detail = some (.bay n) → s.claims = [] → s.turnerOk = true → f.home = false →
    (s.peer f.sender).home = false →
    ∃ t, exec (.validTurnFrameHeard bytes) s = .next t
      ∧ (s.turner.state = .parked →
          t.turner = { s.turner with
            state := .powerWait, order := some ⟨⟨f.sender, i.channel⟩, n, f.round⟩ }
          ∧ (s.claimsOf k = [] → t.claimsOf k =
              [askedClaim k 0 ⟨.power, s.cfg.turnerPower, 5, false, none, none⟩]))
      ∧ (s.turner.state = .faulted →
          t.turner = { s.turner with
            turnends := placeTurnend ⟨⟨f.sender, i.channel⟩, .fault, f.round⟩ s.turner.turnends })
      ∧ (s.turner.state ≠ .parked → s.turner.state ≠ .faulted → t.turner = s.turner))
  ∧ (∀ (s : State) (bytes : List Byte) (f : TurnFrame) (e : ClaimEntry) (k : Fin 6) (o : Order),
    s.Hears bytes f → CarriesJust f [] [] [] [] → f.claims = [] → s.cfg.homeTurner = true →
    s.turnerCh = some k → s.claims = [e] → e.resource = .turner → e.state = .holding →
    e.station = f.sender → s.turner.order = some o → o.box = ⟨e.station, e.channel⟩ →
    ∃ t, exec (.validTurnFrameHeard bytes) s = .next t ∧ t.claims = [] ∧ t.NoClaims k
      ∧ t.turner = { s.turner with
          state := .parked, order := none, timer := 0
          position := if s.turner.state = .travelling then none
            else if s.turner.state = .turning then some o.bay else s.turner.position
          turnends := placeTurnend ⟨o.box, .abandoned, o.round⟩ s.turner.turnends })

/-- At the read-back of an own CASTEND COMPLETE for a piece its source holds, the piece leaves, handed is counted,
the last end setpoint is absent, PIECE_OUT or UNCONFIRMED_OUT is queued (before PHASE_DONE by log entry 16, DEDUCED)
and the unit is NONE; the CAST or LOADOUT in progress completes with CAST in RUNNING (also a second one, started
while the unit was ENDED, the model's choice, log entry 71), is due in PAUSED, and in HALTED and PAUSED(CLEARED) no
phase completes; a destination on the same station receives the piece (R138, R139). An own ENTRY item read back
leaves the pending list, brings the piece it names up to date, makes a DISCARD, and queues GAUGE_TAKEN; START clears
the START-due mark (R151, R147). At the last capture of a GAUGE, COUCH or SAMPLE the phase completes with GAUGED or
SAMPLED, or is due in PAUSED (R85, R94, R127). -/
def Obligations.OwnReadBackHandsOverAndBooks : Prop :=
  (∀ (s : State) (f : TurnFrame) (ok : Bool) (c : Fin 6) (d : Pair) (p q : Piece), s.ReadsBack f ok →
    CarriesJust f [] [] [⟨c.val, d, .complete p⟩] [] → f.entries = [] → isVessel (s.ch c).kind = true →
    (s.ch c).piece = some q → q.id = p.id →
    ∃ t, exec .ownTurnReadBack s = .next t ∧
      let h := s.ch c
      let casting := h.inPhase .cast = true ∨ h.inPhase .loadout = true
      (t.ch c).piece = none ∧ (t.ch c).lastEnd = none ∧ (t.ch c).xfer = {}
      ∧ t.book.handed = (if s.book.handed < 65535 then s.book.handed + 1 else s.book.handed)
      ∧ t.castends = s.castends.filter (fun x => !x.inFrame)
      ∧ (∀ r, h.current = some r → casting → h.state = .running →
          (∃ rec, (t.ch c).records.head? = some rec ∧ rec.kind = r.kind ∧ rec.reason = .cast
            ∧ rec.piece = some p.id)
          ∧ (h.next = none → (t.ch c).state = .idle)
          ∧ (h.next.isSome = true →
              (t.ch c).state = .halted ∧ (t.ch c).halt = some (.inconsistent .afterFinal)))
      ∧ (casting → h.state = .paused → h.due = none →
          (t.ch c).due = some .cast ∧ (t.ch c).state = .paused ∧ (t.ch c).records = h.records)
      ∧ (h.state = .halted ∨ h.state = .paused ∧ h.pause = some .cleared ∧ h.started = false →
          (t.ch c).state = h.state ∧ (t.ch c).pause = h.pause ∧ (t.ch c).due = h.due
            ∧ (t.ch c).records = h.records)
      ∧ (s.cfg.homeTurner = false → s.panel.events = [] → s.panel.overflow = 0 →
          t.panel.events.head? = some ⟨if q.unconfirmedOut = true then .unconfirmedOut else .pieceOut, some c,
            some p.id, t.line.round, [if q.unconfirmedOut = true then 0 else 3, pairByte d, 0, 0]⟩)
      ∧ (∀ e : Fin 6, e ≠ c → d = ⟨s.cfg.address, e.val⟩ → ((s.ch e).kind = .box ∨ (s.ch e).kind = .kiln) →
          (s.ch e).xfer.state = .awaiting → (s.ch e).xfer.partner = some ⟨f.sender, c.val⟩ →
          (s.ch e).xfer.piece = some p.id →
          (t.ch e).piece.map (·.id) = some p.id ∧ (t.ch e).xfer = {}
            ∧ t.book.received = (if s.book.received < 65535 then s.book.received + 1 else s.book.received)))
  ∧ (∀ (s : State) (f : TurnFrame) (ok : Bool) (c : Fin 6) (e : EntryItem) (pe : PendingEntry)
      (rest : List PendingEntry), s.ReadsBack f ok → CarriesJust f [] [] [] [] → f.entries = [e] →
    s.book.pend = pe :: rest → pe.item = e → e.kind ≠ .start → e.channel = some c.val →
    s.book.numbered = true → f.count = s.book.count → isVessel (s.ch c).kind = true →
    ∃ t, exec .ownTurnReadBack s = .next t ∧
      let h := s.ch c
      let captures := h.inPhase .gauge = true ∨ h.inPhase .couch = true ∨ h.inPhase .sample = true
      let last := pe.capture = true ∧ h.step = some .captured
        ∧ ∀ x ∈ rest, x.capture = true → x.item.channel ≠ some c.val
      let completes := captures ∧ last ∧ h.state = .running
      (s.book.waiting = [] → t.book.pend.map (·.item) = rest.map (·.item))
      ∧ (s.cfg.homeTurner = false → s.panel.events = [] → s.panel.overflow = 0 →
          t.panel.events.head? = some ⟨.gaugeTaken, some c, e.piece, t.line.round,
            0 :: bytes3 s.book.count.toNat⟩)
      ∧ (∀ p, h.piece = some p → e.piece = some p.id →
          (e.kind = .discard →
            (t.ch c).piece = none ∧ (t.ch c).state = .idle ∧ t.NoClaims c
              ∧ t.book.discarded
                = (if s.book.discarded < 65535 then s.book.discarded + 1 else s.book.discarded))
          ∧ (pe.capture = false ∨ captures →
            ∃ n, (completes → n = if p.phases < 255 then p.phases + 1 else p.phases)
              ∧ (¬ completes → n = p.phases)
              ∧ (∀ g, e.kind = .steepGauge → e.value = .gauge g → (t.ch c).piece = some { p with
                  steepGauge := some g, handGauged := p.handGauged || e.hand, phases := n })
              ∧ (∀ g, e.kind = .couchGauge → e.value = .gauge g → (t.ch c).piece = some { p with
                  couchGauge := some g, handGauged := p.handGauged || e.hand, phases := n })
              ∧ (∀ number m, e.kind = .kilnSample → e.value = .sample number m →
                  (t.ch c).piece = some { p with sample := some number, moisture := some m, phases := n })
              ∧ (∀ g, e.kind = .duty → e.value = .gauge g → p.duty = none → (t.ch c).piece = some { p with
                  duty := some g, deficient := p.deficient || e.deficient, phases := n })
              ∧ (∀ g, e.kind = .duty → e.value = .gauge g → p.duty.isSome = true →
                  (t.ch c).piece = some { p with phases := n })))
      ∧ (h.piece.map (·.id) ≠ e.piece ∨ h.piece = none → pe.capture = false → (t.ch c).piece = h.piece)
      ∧ (e.kind ≠ .discard →
          (∀ r, h.current = some r → completes →
            (t.ch c).EndedBy r.kind (if h.kind = .kiln then .sampled else .gauged))
          ∧ (captures → last → h.state = .paused → h.due = none →
              (t.ch c).due = some (if h.kind = .kiln then .sampled else .gauged)
                ∧ (t.ch c).state = .paused ∧ (t.ch c).records = h.records)
          ∧ (¬ last → (t.ch c).records = h.records ∧ (t.ch c).state = h.state ∧ (t.ch c).due = h.due)))
  ∧ (∀ (s : State) (f : TurnFrame) (ok : Bool) (e : EntryItem), s.ReadsBack f ok →
    CarriesJust f [] [] [] [] → f.entries = [e] → e.kind = .start →
    ∃ t, exec .ownTurnReadBack s = .next t ∧ t.book.startDue = false
      ∧ (s.book.waiting = [] → t.book.pend = s.book.pend))

/-- At the read-back of a merging frame the base takes the sum of the two claims where both are still HELD, by the
amounts they then have (of a claim lowered since the build the model's choice, log entry 61), and the top-up's slot
is free; otherwise each keeps its amount (R41). Of a merge item, own or heard, whose two entries were HOLDING the
base entry is HOLDING with their sum, the top-up's entry is gone and the held sum is as before; otherwise it is a
take of the base, HOLDING where lawful, CONFLICT with its fault where not (R42). GRANTED clears LINE_WAIT with the
channel's last voided claim and CLAIM_WAIT where every claim the phase cannot go on without is HELD, a restart's asks
among them (R54, R194; of a base and its top-up either is enough, log entry 43, DEDUCED), and gives a TURN its step
and round (R99); of a turner in POWER_WAIT it starts the turn, or the travel of the bays between, or of 32 (R107). -/
def Obligations.OwnReadBackMergesAndGrants : Prop :=
  (∀ (s : State) (f : TurnFrame) (ok : Bool) (b : OwnClaim) (n : Nat), s.ReadsBack f ok →
    CarriesJust f [] [] [] [] → f.entries = [] → s.cfg.homeTurner = false → OwnBounded s.own → b ∈ s.own →
    b.sent = .base n →
    (∀ x ∈ s.own, x.channel = b.channel → x ≠ b → (∀ k, x.sent ≠ .base k) ∧ (x.sent = .merged → x.slot = n)) →
    ∃ t o, exec .ownTurnReadBack s = .next t ∧ t.ownAt b.channel b.slot = some o
      ∧ o.resource = b.resource ∧ o.priority = b.priority ∧ o.age = b.age
      ∧ ((t.entryOfOwn b).isSome = true → b.state ≠ .asked → o.state = b.state)
      ∧ (∀ u ∈ s.own, u.channel = b.channel → u.sent = .merged → b.state = .held → u.state = .held →
          o.amount = b.amount + u.amount ∧ t.ownAt b.channel u.slot = none)
      ∧ (∀ u ∈ s.own, u.channel = b.channel → u.sent = .merged → (b.state ≠ .held ∨ u.state ≠ .held) →
          o.amount = b.amount ∧ t.ownAt b.channel u.slot = some u)
      ∧ ((∀ u ∈ s.own, u.channel = b.channel → u.sent ≠ .merged) → o.amount = b.amount))
  ∧ (∀ (s : State) (f : TurnFrame) (i : Instr) (x : ClaimItem) (b u : ClaimEntry) (n : Nat),
    ((∃ ok, i = .ownTurnReadBack ∧ s.ReadsBack f ok) ∨ ∃ bytes, i = .validTurnFrameHeard bytes ∧ s.Hears bytes f) →
    CarriesJust f [] [] [] [] → f.entries = [] → s.cfg.homeTurner = false → f.claims = [x] → x.hold = true →
    x.merged = some n → n ≠ x.slot → (x.resource = .water ∨ x.resource = .power) → Ordered s.claims →
    b ∈ s.claims → b.station = f.sender → b.channel = x.channel → b.slot = x.slot → b.resource = x.resource →
    u ∈ s.claims → u.station = f.sender → u.channel = x.channel → u.slot = n → u.resource = x.resource →
    ∃ t e, exec i s = .next t ∧ e ∈ t.claims ∧ e.key = b.key ∧ e.amount = x.amount ∧ e.age = x.age
      ∧ e.priority = x.priority ∧ (∀ e' ∈ t.claims, e'.key ≠ u.key)
      ∧ (b.state = .holding → u.state = .holding → x.amount = b.amount + u.amount →
          e.state = .holding
            ∧ ((∀ e' ∈ s.claims, e'.station = f.sender → e' = b ∨ e' = u) →
                heldSum t.claims x.resource = heldSum s.claims x.resource))
      ∧ (b.state ≠ .holding ∨ u.state ≠ .holding →
          let rest := s.claims.filter fun e' => e'.station != f.sender || e'.key == b.key
          let fits := lawful s.cfg false rest (entryOf f.sender x .waiting false)
          e.state = (if fits = true then .holding else .conflict)
            ∧ (fits = false → b.state ≠ .conflict → t.panel.record.map (fun r => (r.kind, r.station, r.channel))
                = some (.claimConflict, some f.sender, some x.channel))))
  ∧ (∀ (s : State) (f : TurnFrame) (ok : Bool) (o : OwnClaim) (r : PhaseRecord), s.ReadsBack f ok →
    CarriesJust f [] [] [] [] → f.entries = [] → OwnBounded s.own → o ∈ s.own → o.sent = .take →
    isVessel (s.ch o.channel).kind = true → (s.ch o.channel).started = true →
    (s.ch o.channel).current = some r →
    ∃ t, exec .ownTurnReadBack s = .next t ∧ t.hasHeld o.channel o.resource = true ∧
      let h := s.ch o.channel
      let k := t.ch o.channel
      let lacks := fun res => t.hasHeld o.channel res = false
      (k.wait.line = true ↔ h.wait.line = true ∧ ∃ x ∈ t.claimsOf o.channel, x.voided = true)
      ∧ (k.wait.claim = true ↔ h.wait.claim = true
          ∧ (r.kind = .wet ∧ h.step = some .filling ∧ lacks .water
            ∨ r.kind = .air ∧ h.step = some .resting ∧ lacks .power
            ∨ r.kind = .cast ∧ h.step = some .casting ∧ (lacks .castway ∨ lacks .power)
            ∨ r.kind = .loadout ∧ h.step = some .loading ∧ (lacks .loader ∨ lacks .power)
            ∨ kilnFanKind r.kind = true ∧ lacks .power
            ∨ ∃ x ∈ t.claimsOf o.channel, x.restartAsk = true ∧ x.resource ≠ .turner))
      ∧ k.wait.offer = h.wait.offer ∧ k.wait.turn = h.wait.turn
      ∧ (r.kind = .turn → o.resource = .turner → k.step = some .held ∧ k.turnRound = some t.line.round)
      ∧ (r.kind ≠ .turn → k.step = h.step ∧ k.turnRound = h.turnRound)
      ∧ k.state = h.state ∧ k.timer = h.timer ∧ k.piece = h.piece)
  ∧ (∀ (s : State) (f : TurnFrame) (ok : Bool) (o : OwnClaim) (d : Order), s.ReadsBack f ok →
    CarriesJust f [] [] [] [] → f.entries = [] → s.turnerCh = some o.channel → o ∈ s.own → o.sent = .take →
    s.turner.order = some d → (∀ e ∈ s.claims, e.station = f.sender → e.resource ≠ .turner) →
    (∀ x ∈ f.claims, x.resource ≠ .turner) →
    ∃ t, exec .ownTurnReadBack s = .next t
      ∧ (s.turner.state = .powerWait → s.turner.position = some d.bay →
          t.turner = { s.turner with
            state := .turning, timer := 2000 * s.cfg.turnTime, overload := 0, turnends := t.turner.turnends })
      ∧ (∀ a, s.turner.state = .powerWait → s.turner.position = some a → a ≠ d.bay →
          t.turner = { s.turner with
            state := .travelling, timer := 2000 * ((max a d.bay - min a d.bay) * s.cfg.travel), overload := 0
            turnends := t.turner.turnends })
      ∧ (s.turner.state = .powerWait → s.turner.position = none →
          t.turner = { s.turner with
            state := .travelling, timer := 2000 * (32 * s.cfg.travel), overload := 0
            turnends := t.turner.turnends })
      ∧ (s.turner.state ≠ .powerWait → t.turner = { s.turner with turnends := t.turner.turnends }))

/-! ## Arrivals -/

/-- An arrival converts or replaces each analogue input and starts the arrival clock again (R166, R167, R169). A
converted reading lies in its quantity's range, and a reading at either rail is replaced by the last good value with
its count raised, to 3 at most (R167, R169). -/
def Obligations.ArrivalReadsInputs : Prop :=
  (∀ (s : State) (c : Fin 6) (raw : RawArrival), s.live = true → (s.ch c).kind ≠ .unused →
    ∃ t, exec (.measurementArrival c raw) s = .next t
      ∧ (t.ch c).ma = sampleInput (s.ch c).kind .ma (s.cfg.cal.get c) raw.ma (s.ch c).ma
      ∧ (t.ch c).mb = sampleInput (s.ch c).kind .mb (s.cfg.cal.get c) raw.mb (s.ch c).mb
      ∧ (t.ch c).mc = sampleInput (s.ch c).kind .mc (s.cfg.cal.get c) raw.mc (s.ch c).mc
      ∧ (t.ch c).clock = some 0
      ∧ t = { s with own := t.own, chans := t.chans, turner := t.turner, castends := t.castends,
                     book := t.book, panel := t.panel })
  ∧ ((∀ (lo hi r : Nat), -500 ≤ convertAs .temperature lo hi r ∧ convertAs .temperature lo hi r ≤ 2000
    ∧ 0 ≤ convertAs .level lo hi r ∧ convertAs .level lo hi r ≤ 4000
    ∧ 0 ≤ convertAs .moisture lo hi r ∧ convertAs .moisture lo hi r ≤ 1000)
  ∧ (∀ (k : Kind) (i : Input) (cal : ChannelCal) (r : Nat) (x : InputState),
      (quantityOf k i).isSome = true → (r = 0 ∨ 4095 ≤ r) → x.outCount ≤ 3 →
      (sampleInput k i cal r x).value = x.lastGood ∧ (sampleInput k i cal r x).replaced = true
        ∧ (sampleInput k i cal r x).lastGood = x.lastGood
        ∧ (sampleInput k i cal r x).outCount = min 3 (x.outCount + 1)
        ∧ (sampleInput k i cal r x).faulted = (x.faulted || decide (2 ≤ x.outCount))))

/-- What an arrival judges in a step of a RUNNING phase, its inputs not faulted. A fill ends at the fill level: D0
closes, the WATER claim goes with the waits it caused, the stand mark stands and the blower's POWER is asked; below
it the fill goes on, and a shed sets CLAIM_WAIT (R80). A drain ends at 10 mm: D1 closes, the rest begins, with
CLAIM_WAIT where POWER is not HELD (R82; of a base and a top-up side by side either is enough, log entry 43,
DEDUCED). A cast or load-out ends at 10 mm with both claims HELD: the claims are dropped and CASTEND COMPLETE is
placed (R87, R101). A level in STEADYING goes on with its run or begins one, a replaced MB empties it, and the tenth
value captures (R84, R85, R94). -/
def Obligations.ArrivalEndsSteps : Prop :=
  ∀ (s : State) (c : Fin 6) (raw : RawArrival) (r : PhaseRecord), s.live = true →
    (s.ch c).state = .running → (s.ch c).started = true → (s.ch c).current = some r →
    ((s.ch c).kind = .steep ∨ (s.ch c).kind = .box) →
    ∃ t, exec (.measurementArrival c raw) s = .next t ∧ s.OthersKept t c ∧ s.OtherClaimsKept t c ∧
      let h := s.ch c
      let k := t.ch c
      let noAsks := h.asksDue = []
      (k.ma.faulted = false → k.mb.faulted = false →
        (∀ v level, h.kind = .steep → r.kind = .wet → h.step = some .filling → k.mb.value = some v →
          r.fillLevel = some level →
          ((level : Int) ≤ v →
            k.step = some .standing ∧ k.standMark = some h.timer ∧ t.claimsOn c .water = []
              ∧ (t.outputs c).d0 = 0 ∧ k.state = .running ∧ t.castends = s.castends ∧ t.book = s.book
              ∧ ((∀ o ∈ s.claimsOf c, o.resource ≠ .water → o.restartAsk = false) → k.wait.claim = false)
              ∧ ((∀ o ∈ s.claimsOf c, o.resource ≠ .water → o.voided = false) → k.wait.line = false)
              ∧ (r.blowerOn = none → k.blower = h.blower
                  ∧ (noAsks → t.claimsOf c = (s.claimsOf c).filter fun o => o.resource != .water))
              ∧ (r.blowerOn.isSome = true → k.blower = some 0 ∧ k.blowerOn = true
                  ∧ (noAsks → (∀ o ∈ s.claimsOf c, o.resource = .water) → t.claimsOf c =
                      [askedClaim c 0 ⟨.power, r.power.getD 0, r.priority, r.sheddable, none, none⟩])))
          ∧ (v < level →
            k.step = some .filling ∧ k.standMark = h.standMark ∧ t.book = s.book
              ∧ (s.postedOf c [.water] = [] → k.wait = h.wait ∧ (noAsks → t.own = s.own))
              ∧ (s.postedOf c [.water] ≠ [] → k.wait.claim = true)))
        ∧ (∀ v, h.kind = .steep → r.kind = .air → h.step = some .draining → k.mb.value = some v →
          (v ≤ 10 →
            k.step = some .resting ∧ k.standMark = some h.timer ∧ k.blower = some 0 ∧ k.restEdges = 0
              ∧ k.wait = { h.wait with claim := h.wait.claim || !s.hasHeld c .power }
              ∧ (t.outputs c).d1 = 0)
          ∧ (10 < v → k.step = some .draining ∧ k.standMark = h.standMark ∧ k.wait = h.wait)
          ∧ t.castends = s.castends ∧ t.book = s.book ∧ (noAsks → t.own = s.own))
        ∧ (∀ v p d, k.mb.value = some v → h.piece = some p → h.xfer.partner = some d →
          (h.kind = .steep ∧ r.kind = .cast ∧ h.step = some .casting
            ∨ h.kind = .box ∧ r.kind = .loadout ∧ h.step = some .loading) →
          let held := s.hasHeld c .power = true
            ∧ s.hasHeld c (if h.kind = .steep then .castway else .loader) = true
          (held → v ≤ 10 →
            k.step = some (if h.kind = .steep then .castEnded else .loadEnded) ∧ k.xfer.state = .ended
              ∧ t.NoClaims c ∧ t.castends = placeCastend ⟨c.val, d, .complete p⟩ s.castends
              ∧ k.piece = some p ∧ k.state = .running ∧ (t.outputs c).d2 = 0 ∧ (t.outputs c).d3 = 0)
          ∧ (¬ (held ∧ v ≤ 10) →
            k.step = h.step ∧ k.xfer = h.xfer ∧ t.castends = s.castends
              ∧ (noAsks → t.claimsOf c = s.claimsOf c)))
        ∧ (h.step = some .steadying → (h.kind = .steep ∧ r.kind = .gauge ∨ h.kind = .box ∧ r.kind = .couch) →
          (k.mb.replaced = true ∨ k.mb.value = none → k.steady = {} ∧ k.step = some .steadying)
          ∧ (∀ v, k.mb.replaced = false → k.mb.value = some v →
            (h.steady.count = 0 ∨ h.steady.count ≤ 9 ∧ 5 < (v - h.steady.first).natAbs →
              k.steady = { first := v, count := 1, sum := v } ∧ k.step = some .steadying ∧ t.book = s.book)
            ∧ (1 ≤ h.steady.count → h.steady.count ≤ 8 → (v - h.steady.first).natAbs ≤ 5 →
              k.steady = { h.steady with count := h.steady.count + 1, sum := h.steady.sum + v }
                ∧ k.step = some .steadying ∧ t.book = s.book)
            ∧ (h.steady.count = 9 → (v - h.steady.first).natAbs ≤ 5 →
              let e := gaugeCapture s.cfg c h (h.steady.sum + v)
              k.step = some .captured
              ∧ (s.book.waiting = [] → s.canTake 1 = true →
                  t.book = { s.book with pend := s.book.pend ++ [⟨e, true⟩] } ∧ k.wait.gauge = h.wait.gauge)
              ∧ (¬ (s.book.waiting = [] ∧ s.canTake 1 = true) →
                  k.captures = [e] ∧ k.wait.gauge = true ∧ c ∈ t.book.waiting)))))

/-- The laws of an arrival, its inputs not faulted. The fan law of a box: the fan command is base + gain × (MA −
setpoint) to the nearest per cent, a half up, within 0 to 100, by the running setpoint with a phase in progress and
the last end setpoint after a completion; the fan runs at the lesser of it and the cap (R95). The burner law of a
kiln where the fan condition holds: the flame count by the firing that stood, and below its third value the firing
moved by 5 and clipped to the burner maximum, raised below the setpoint − 0.5 °C, lowered above the setpoint + 0.5
°C, and it stays between (R117, R118); the peat feed runs in a PEAT in progress (R123). -/
def Obligations.ArrivalRunsFanAndBurner : Prop :=
  (∀ (s : State) (c : Fin 6) (raw : RawArrival) (r : PhaseRecord) (m sp : Int), s.live = true →
    (s.ch c).kind = .box → (s.ch c).drivesBy = some r → (r.kind = .grow ∨ r.kind = .turn) →
    ∃ t, exec (.measurementArrival c raw) s = .next t ∧
      let h := s.ch c
      let k := t.ch c
      let exact : Int := 100 * (r.fanBase.getD 0 : Int) + (r.fanGain.getD 0 : Int) * (m - sp)
      (k.ma.faulted = false → k.mb.faulted = false → k.ma.value = some m →
        (if h.started = true ∧ (h.state = .running ∨ h.state = .paused) then k.setpoint else h.lastEnd) = some sp →
        (exact < 0 → k.fanCommand = 0)
        ∧ (0 ≤ exact → exact ≤ 10000 →
            exact - 50 < 100 * (k.fanCommand : Int) ∧ 100 * (k.fanCommand : Int) ≤ exact + 50)
        ∧ (10000 < exact → k.fanCommand = 100)
        ∧ (t.outputs c).d0 = min k.fanCommand (t.cap c) ∧ k.state = h.state))
  ∧ (∀ (s : State) (c : Fin 6) (raw : RawArrival) (r : PhaseRecord) (m sp : Int), s.live = true →
    (s.ch c).kind = .kiln → burns r.kind = true →
    ((s.ch c).state = .running ∧ (s.ch c).started = true ∧ (s.ch c).current = some r
      ∨ ((s.ch c).state = .starved ∨ (s.ch c).state = .paused ∧ (s.ch c).pause = some .step)
        ∧ (s.ch c).completed = some r) →
    s.fanCondition c = true → ((s.ch c).inPhase .dry = true → (s.ch c).breakCount < 9) →
    ∃ t, exec (.measurementArrival c raw) s = .next t ∧
      let h := s.ch c
      let k := t.ch c
      let lit := h.firing = 0 ∨ raw.active = true
      let top := r.burnerMax.getD 0
      (k.ma.faulted = false → k.mc.faulted = false → k.ma.value = some m → (lit ∨ h.flame < 2) →
        (if h.started = true ∧ h.state = .running then k.setpoint else h.lastEnd) = some sp →
        ¬ (h.state = .paused ∧ h.started = true) →
        k.flame = (if h.firing = 0 ∨ raw.active = true then 0 else h.flame + 1)
        ∧ (m < sp - 5 → k.firing = min (h.firing + 5) top)
        ∧ (sp + 5 < m → k.firing = h.firing - 5)
        ∧ (sp - 5 ≤ m → m ≤ sp + 5 → k.firing = min h.firing top)
        ∧ k.peat = (h.state == .running && r.kind == .peat)
        ∧ (t.outputs c).d1 = k.firing))

/-- The third out-of-range arrival: the input is faulted and holds its last good value, and where the fault halts
the channel it is HALTED with every drive off (R169, R170, R171, R173). -/
def Obligations.SensorFaultHolds : Prop :=
  ∀ (s : State) (c : Fin 6) (i : Input), s.faultDue c i = true →
    ∃ t, exec (.sensorFault c i) s = .next t
      ∧ ((t.ch c).input i).faulted = true ∧ ((t.ch c).input i).outCount = 3
      ∧ ((t.ch c).input i).value = ((s.ch c).input i).lastGood
      ∧ (haltsOn (s.ch c) i = true → (t.ch c).state = .halted ∧ t.NoClaims c ∧ t.outputs c = allOff)
      ∧ t = { s with own := t.own, chans := t.chans, castends := t.castends, book := t.book,
                     panel := t.panel } ∧ s.OthersKept t c

/-- The tenth arrival within the band makes the gauge: the capture is pending, or waits in the wait list with
GAUGE_WAIT (R84, R85, R94, R159). The tenth reading makes the moisture: the station's next sample number, and the
captures of the SAMPLE (R125, R126, R159). A gauge is level × scale + offset to the nearest 0.1 gu, a half rounding
up, and not below 0 (R149). -/
def Obligations.TenthValuesCapture : Prop :=
  (∀ (s : State) (c : Fin 6) (level : Nat), s.nearlySteady c level = true →
    ∃ t, exec (.levelSteady c level) s = .next t
      ∧ (t.ch c).step = some .captured
      ∧ (let e := gaugeCapture s.cfg c (s.ch c) ((s.ch c).steady.sum + level)
         if s.book.waiting = [] ∧ s.canTake 1 = true then
           t.book = { s.book with pend := s.book.pend ++ [⟨e, true⟩] }
         else
           t.book = { s.book with waiting := s.book.waiting ++ [c] } ∧ (t.ch c).captures = [e]
             ∧ (t.ch c).wait.gauge = true)
      ∧ t = { s with chans := t.chans, book := t.book } ∧ s.OthersKept t c)
  ∧ (∀ (s : State) (c : Fin 6) (reading : Nat) (p : Piece), s.nearlyRead c = true → (s.ch c).piece = some p →
    ∃ t, exec (.moistureMade c reading) s = .next t
      ∧ (t.ch c).step = some .captured
      ∧ t.book.sample = (if s.book.sample < 65535 then s.book.sample + 1 else 1)
      ∧ (let n := if s.book.sample < 65535 then s.book.sample + 1 else 1
         let m := (meanOfTen (((s.ch c).readings ++ [(reading : Int)]).foldl (· + ·) 0)).toNat
         let l := sampleCaptures c p n m
         if s.book.waiting = [] ∧ s.canTake l.length = true then
           t.book.pend = s.book.pend ++ l.map (fun e => ⟨e, true⟩)
         else t.book.waiting = s.book.waiting ++ [c] ∧ (t.ch c).captures = l ∧ (t.ch c).wait.gauge = true)
      ∧ t = { s with chans := t.chans, book := t.book } ∧ s.OthersKept t c)
  ∧ (∀ (level scale : Nat) (offset : Int),
    let exact : Int := (level : Int) * scale + 100 * offset
    (0 ≤ exact → exact - 50 < 100 * (gaugeOf level scale offset : Int)
        ∧ 100 * (gaugeOf level scale offset : Int) ≤ exact + 50)
      ∧ (exact < 0 → gaugeOf level scale offset = 0))

/-- The tenth breakthrough arrival completes the DRY with end reason BREAKTHROUGH (R121, R55, R72). -/
def Obligations.BreakthroughCompletesDry : Prop :=
  ∀ (s : State) (c : Fin 6), s.nearlyThrough c = true →
    ∃ t rec, exec (.breakthrough c) s = .next t ∧ (t.ch c).records.head? = some rec
      ∧ rec.kind = .dry ∧ rec.reason = .breakthrough ∧ rec.round = s.line.round
      ∧ rec.stats = (s.ch c).stats ∧ rec.endSetpoint = (s.ch c).setpoint
      ∧ (t.ch c).records.length ≤ 4 ∧ s.OthersKept t c ∧ s.OtherClaimsKept t c
      ∧ t = { s with own := t.own, chans := t.chans, castends := t.castends, book := t.book,
                     panel := t.panel }

/-- The third arrival without flame halts the kiln: no fire, no claim, every drive off (R118, R60, R173). An arrival
at which a kiln's fan condition fails leaves it without fire and peat feed (R117, R123). -/
def Obligations.FlameFailHalts : Prop :=
  (∀ (s : State) (c : Fin 6), s.nearlyOut c = true →
    ∃ t, exec (.flameFail c) s = .next t
      ∧ (t.ch c).state = .halted ∧ (t.ch c).halt = some .flameFail ∧ (t.ch c).firing = 0
      ∧ (t.ch c).peat = false ∧ t.NoClaims c ∧ t.outputs c = allOff ∧ (t.ch c).piece = (s.ch c).piece
      ∧ t = { s with own := t.own, chans := t.chans, castends := t.castends, book := t.book,
                     panel := t.panel } ∧ s.OthersKept t c ∧ s.OtherClaimsKept t c)
  ∧ (∀ (s : State) (c : Fin 6) (raw : RawArrival), s.live = true → (s.ch c).kind = .kiln →
    s.fanCondition c = false →
    ∃ t, exec (.measurementArrival c raw) s = .next t ∧ (t.ch c).firing = 0 ∧ (t.ch c).peat = false)

/-- The fifth power-limited arrival asks a top-up for what the fan wants above what it holds, in the lowest free
slot; with no free slot the count stays at 5 (R96, R29). -/
def Obligations.PowerLimitedAsksTopUp : Prop :=
  ∀ (s : State) (c : Fin 6), s.nearlyLimited c = true →
    ∃ t, exec (.powerLimitedTopUp c) s = .next t
      ∧ (∀ n a, s.freeSlot c = some n → s.fanTopUp c = some a →
          (t.ch c).limited = 0 ∧ t.ownAt c n = some (askedClaim c n a) ∧ a.resource = .power
            ∧ a.amount = fanDraw (s.ch c).fanCommand (s.cfg.ratings.get c) - s.heldAmount c .power
            ∧ a.base.isSome = true)
      ∧ (s.freeSlot c = none → (t.ch c).limited = 5 ∧ t.own = s.own)
      ∧ t = { s with own := t.own, chans := t.chans } ∧ s.OthersKept t c ∧ s.OtherClaimsKept t c

/-! ## Process timers -/

/-- The duration, stand or turn limit ends a running phase with its reason in a completion record; in PAUSED the
completion is due at RELEASE (R53, R55, R57, R81, R83, R97, R100, R122 to R124, R128). -/
def Obligations.TimeLimitsEndPhases : Prop :=
  ∀ (s : State) (c : Fin 6) (r : PhaseRecord) (i : Instr) (reason : EndReason),
    s.vessel c = true → (s.ch c).started = true → (s.ch c).current = some r → (s.ch c).due = none →
    ((i = .phaseDurationReached c ∧ (durationLimit (s.ch c) r).isSome = true ∧ r.kind ≠ .cast
        ∧ r.kind ≠ .loadout ∧ reason = (if r.kind = .strip then .stripped else .time))
      ∨ (i = .standTimeReached c ∧ (standLimit (s.ch c)).isSome = true ∧ reason = .time)
      ∨ (i = .turnLimitReached c ∧ (turnLimitOf (s.ch c)).isSome = true ∧ reason = .turnMissed)) →
    ((s.ch c).state = .running → (s.ch c).wait.freezes = false →
      ∃ t rec, exec i s = .next t ∧ (t.ch c).records.head? = some rec ∧ rec.kind = r.kind
        ∧ rec.reason = reason ∧ rec.round = s.line.round ∧ s.OthersKept t c ∧ s.OtherClaimsKept t c
        ∧ t = { s with own := t.own, chans := t.chans, castends := t.castends, book := t.book,
                       panel := t.panel })
    ∧ ((s.ch c).state = .paused →
      ∃ t, exec i s = .next t ∧ (t.ch c).due = some reason ∧ (t.ch c).state = .paused
        ∧ (t.ch c).records = (s.ch c).records ∧ s.OthersKept t c)

/-- A cast or load-out at its duration ends: its drive stops, every claim of the channel is dropped, and the CASTEND
COMPLETE with the piece as it stands is placed (R87, R101, R137). -/
def Obligations.CastEndsAtDuration : Prop :=
  ∀ (s : State) (c : Fin 6) (r : PhaseRecord) (p : Piece) (d : Pair),
    s.timerRuns c = true → (s.ch c).current = some r → (s.ch c).due = none →
    (r.kind = .cast ∧ (s.ch c).step = some .casting ∨ r.kind = .loadout ∧ (s.ch c).step = some .loading) →
    (s.ch c).piece = some p → (s.ch c).xfer.partner = some d →
    ∃ t, exec (.phaseDurationReached c) s = .next t
      ∧ (t.ch c).xfer.state = .ended ∧ t.NoClaims c
      ∧ (t.ch c).step = some (if (s.ch c).kind = .box then .loadEnded else .castEnded)
      ∧ t.castends = placeCastend ⟨c.val, d, .complete p⟩ s.castends
      ∧ (t.ch c).piece = some p ∧ s.OthersKept t c ∧ s.OtherClaimsKept t c
      ∧ t = { s with own := t.own, chans := t.chans, castends := t.castends }

/-- The fill limit sets FILL_LATE, the settle's end begins the steadying, the gate's end the reading (R80, R93,
R125). The blend window begins: toward NEXT's target, or missed where NEXT gives none (R68). -/
def Obligations.StepTimersAct : Prop :=
  ((∀ (s : State) (c : Fin 6) (n : Nat), s.timerRuns c = true → fillLimitOf (s.ch c) = some n →
    ∃ t, exec (.fillLimitReached c) s = .next t ∧ (t.ch c).flags.fillLate = true
      ∧ t.ch c = { s.ch c with timer := (t.ch c).timer, flags := (t.ch c).flags }
      ∧ t = { s with chans := t.chans } ∧ s.OthersKept t c)
  ∧ (∀ (s : State) (c : Fin 6) (n : Nat), s.timerRuns c = true → settleLimit (s.ch c) = some n →
    ∃ t, exec (.settleEnd c) s = .next t ∧ (t.ch c).step = some .steadying ∧ (t.ch c).steady = {}
      ∧ t.ch c = { s.ch c with timer := (t.ch c).timer, step := (t.ch c).step, steady := {} }
      ∧ t = { s with chans := t.chans } ∧ s.OthersKept t c)
  ∧ (∀ (s : State) (c : Fin 6), s.gateOpen c = true →
    ∃ t, exec (.gatePulseEnd c) s = .next t ∧ (t.ch c).step = some .reading ∧ (t.ch c).readings = []
      ∧ t.ch c = { s.ch c with gate := (t.ch c).gate, step := some .reading, readings := [] }
      ∧ t = { s with chans := t.chans } ∧ s.OthersKept t c))
  ∧ (∀ (s : State) (c : Fin 6) (n : Nat), s.timerRuns c = true → blendLimit (s.ch c) = some n →
    ∃ t, exec (.blendWindowBegins c) s = .next t
      ∧ (∀ target, (s.ch c).next.bind targetOf = some target → (t.ch c).blend = .moving n target
          ∧ (t.ch c).flags = (s.ch c).flags)
      ∧ ((s.ch c).next.bind targetOf = none → (t.ch c).blend = .missed ∧ (t.ch c).flags.blendMissed = true)
      ∧ t.ch c = { s.ch c with
          timer := (t.ch c).timer, blend := (t.ch c).blend, flags := (t.ch c).flags }
      ∧ t = { s with chans := t.chans } ∧ s.OthersKept t c)

/-- The edges of the blower and spray clocks switch them, the rest edge is counted, and where no POWER claim of the
channel is posted nothing else changes (R81, R83, R97); that a command brings its clock to the edge, from whatever
value it stands at, is the model's choice (log entry 2). The turner's movements end: the travel with the screws on
at the order's bay, the turn PARKED there with TURNEND OK, its claim dropped and TURN_DONE queued (R107, R108,
R111). The third overload arrival: FAULTED and unavailable, position unknown, the order's TURNEND FAULT in the list,
the turner's claim dropped, both drives off, TURN_DONE and HALTED queued (R110, R111, R112). -/
def Obligations.EdgesAndMovementsAct : Prop :=
  (∀ (s : State) (c : Fin 6) (on cycle n : Nat), s.vessel c = true → (s.ch c).blowerOn = false →
    blowerCycle (s.ch c) = some (on, cycle) → (s.ch c).blower = some n →
    ∃ t, exec (.blowerOnEdge c) s = .next t
      ∧ t.ch c = { s.ch c with blower := some (toOnEdge n on cycle), blowerOn := true }
      ∧ t = { s with chans := t.chans } ∧ s.OthersKept t c)
  ∧ (∀ (s : State) (c : Fin 6) (on cycle n : Nat), s.vessel c = true → (s.ch c).blowerOn = true →
    blowerCycle (s.ch c) = some (on, cycle) → (s.ch c).blower = some n →
    ∃ t, exec (.blowerOffEdge c) s = .next t ∧ (t.ch c).blowerOn = false ∧ s.OthersKept t c
      ∧ t = { s with own := t.own, chans := t.chans, panel := t.panel }
      ∧ (s.postedOf c [.power] = [] →
          t = { s with chans := t.chans }
          ∧ t.ch c = { s.ch c with blower := some (toOffEdge n on cycle), blowerOn := false }))
  ∧ (∀ (s : State) (c : Fin 6) (n : Nat), s.vessel c = true → (s.ch c).resting = true →
    (s.ch c).blower = some n →
    ∃ t, exec (.airRestEdge c) s = .next t ∧ (t.ch c).restEdges = (s.ch c).restEdges + 1
      ∧ s.OthersKept t c ∧ t = { s with own := t.own, chans := t.chans, panel := t.panel }
      ∧ (s.postedOf c [.power] = [] →
          t = { s with chans := t.chans }
          ∧ t.ch c = { s.ch c with
              blower := some (max n (120000 * (15 * ((s.ch c).restEdges + 1))))
              restEdges := (s.ch c).restEdges + 1 }))
  ∧ (∀ (s : State) (c : Fin 6) (m n : Nat), s.vessel c = true → sprayPart (s.ch c) = some m →
    (s.ch c).spray = some n →
    ∃ t, exec (.sprayIntervalEdge c) s = .next t
      ∧ t.ch c = { s.ch c with spray := (t.ch c).spray, sprayOn := !(s.ch c).sprayOn }
      ∧ (t.ch c).spray = some (if (s.ch c).sprayOn then toOffEdge n m 1200000 else toOnEdge n m 1200000)
      ∧ t = { s with chans := t.chans } ∧ s.OthersKept t c)
  ∧ (∀ (s : State) (o : Order), s.moves = true → s.turner.state = .travelling → s.turner.order = some o →
    exec .travelEnd s = .next { s with turner := { s.turner with
      state := .turning, position := some o.bay, timer := 2000 * s.cfg.turnTime } })
  ∧ (∀ (s : State) (o : Order) (c : Fin 6), s.moves = true → s.turner.state = .turning →
    s.turner.order = some o → s.turnerCh = some c →
    ∃ t, exec .turnerTurnDone s = .next t ∧ t.turner.state = .parked ∧ t.turner.position = some o.bay
      ∧ t.turner.order = none ∧ t.turner.available = s.turner.available
      ∧ t.turner.turnends.getLast? = some ⟨⟨o.box, .ok, o.round⟩, false⟩ ∧ t.NoClaims c
      ∧ t.panel = s.panel.queue s.line.round ⟨.turnDone, some c, none, s.line.round, [1, 0, 0, 0]⟩
      ∧ t = { s with own := t.own, chans := t.chans, turner := t.turner, panel := t.panel }
      ∧ s.OthersKept t c ∧ s.OtherClaimsKept t c)
  ∧ (∀ (s : State) (c : Fin 6), s.nearlyOverloaded c = true → s.turnerCh = some c →
    ∃ t o, exec (.turnerOverloadFault c) s = .next t ∧ s.turner.order = some o
      ∧ t.turner.state = .faulted ∧ t.turner.position = none ∧ t.turner.order = none
      ∧ t.turner.available = false
      ∧ t.turner.turnends.getLast? = some ⟨⟨o.box, .fault, o.round⟩, false⟩
      ∧ t.NoClaims c ∧ (turnerCommand t.turner = allOff)
      ∧ t.panel = (s.panel.queue s.line.round ⟨.turnDone, some c, none, s.line.round, [3, 0, 0, 0]⟩).queue
          s.line.round ⟨.halted, some c, none, s.line.round, [4, 0, 0, 0]⟩
      ∧ t = { s with own := t.own, chans := t.chans, turner := t.turner, panel := t.panel }
      ∧ s.OthersKept t c ∧ s.OtherClaimsKept t c)

/-- At the off edge of its blower clock and at an edge of an AIR rest, a channel sheds: each posted HELD claim of
POWER is dropped and asked again in its slot with age 0, one shed is counted for it and a SHED event queued with its
amount, of two claims in slot order (the model's choice, log entry 49), and every other claim stands (R48, R81,
R83); a shed in an AIR rest sets CLAIM_WAIT, be it of the base or of the top-up (the latter the model's choice, log
entry 43). The posted flags of the Claim Table are those of the station's own HOLDING entries among the victims of
WATER and of POWER, evaluated at each frame heard; the victims are the first candidates in victim order whose
amounts together reach the shed waiter's need, and none where all fall short (R47). An arrival adds to the
statistics of the phase in progress while the channel is RUNNING: MA's least, greatest, sum and count where MA is
present, a second outside the alarm band (of the setpoint after this arrival, the model's choice, log entry 74), the
amounts held, a second of claim or line waiting; it adds nothing in any other state (R71). An arrival that completes
a DRY by breakthrough is the one left out (R121). -/
def Obligations.ShedsAndStatistics : Prop :=
  (∀ (s : State) (c : Fin 6) (i : Instr) (n : Nat), OwnBounded s.own → s.vessel c = true →
    (s.ch c).blower = some n →
    (i = .blowerOffEdge c ∧ (s.ch c).blowerOn = true ∧ (blowerCycle (s.ch c)).isSome = true
      ∨ i = .airRestEdge c ∧ (s.ch c).resting = true) →
    let l := s.postedOf c [.power]
    ∃ t, exec i s = .next t
      ∧ t.own = s.own.map (fun o =>
          if o.channel = c ∧ o.resource = .power ∧ s.postedMark o = true then
            askedClaim c o.slot ⟨.power, o.amount, o.priority, o.sheddable, o.detail, o.base⟩
          else o)
      ∧ t.panel = l.foldl (fun p o => p.queue s.line.round
          ⟨.shed, some c, (s.ch c).piece.map (·.id), s.line.round, [0, 0, 0, o.amount]⟩) s.panel
      ∧ ((s.ch c).state = .running → (s.ch c).stats.sheds ≤ 255 →
          (t.ch c).stats = { (s.ch c).stats with sheds := min 255 ((s.ch c).stats.sheds + l.length) })
      ∧ ((s.ch c).state ≠ .running → (s.ch c).shedsAside ≤ 255 →
          (t.ch c).shedsAside = min 255 ((s.ch c).shedsAside + l.length))
      ∧ (i = .airRestEdge c → l ≠ [] → (s.ch c).started = true → (t.ch c).wait.claim = true))
  ∧ (∀ (s : State) (bytes : List Byte) (f : TurnFrame), s.hearing = true → decodeTurn bytes = some f →
    f.sender ≠ s.cfg.address →
    ∃ t, exec (.validTurnFrameHeard bytes) s = .next t ∧ ∀ e ∈ t.claims,
      (e.posted = true ↔ e.station = s.cfg.address ∧ e.state = .holding
        ∧ ((∃ v ∈ victims s.cfg t.claims .water, v.key = e.key)
          ∨ ∃ v ∈ victims s.cfg t.claims .power, v.key = e.key)))
  ∧ (∀ (cfg : Settings) (l : List ClaimEntry) (r : Resource),
    (shedWaiter l r = none → victims cfg l r = [])
    ∧ ∀ w, shedWaiter l r = some w →
      let need := heldSum l r + aheadSum l w + w.amount - allowance cfg r
      let sum := fun (v : List ClaimEntry) => total (v.map (·.amount))
      w ∈ l ∧ w.waits r = true ∧ w.shed = true
      ∧ (∀ e, e ∈ candidates l w ↔ e ∈ l ∧ e.holds w.resource = true ∧ e.sheddable = true
          ∧ e.priority < w.priority)
      ∧ ((candidates l w).Pairwise fun a b => b.shedFirst a = false)
      ∧ (need = 0 ∨ sum (candidates l w) < need → victims cfg l r = [])
      ∧ (0 < need → need ≤ sum (candidates l w) →
          victims cfg l r <+: candidates l w ∧ need ≤ sum (victims cfg l r)
            ∧ sum (victims cfg l r).dropLast < need))
  ∧ (∀ (s : State) (c : Fin 6) (raw : RawArrival), s.live = true → (s.ch c).kind ≠ .unused →
    ((s.ch c).inPhase .dry = true → (s.ch c).breakCount < 9) →
    ∃ t, exec (.measurementArrival c raw) s = .next t
      ∧ ((s.ch c).state ≠ .running → (t.ch c).stats = (s.ch c).stats)
      ∧ (∀ r, (s.ch c).state = .running → (s.ch c).started = true → (s.ch c).current = some r →
          let x := (s.ch c).stats
          let y := (t.ch c).stats
          ((t.ch c).ma.value = none → y.count = x.count ∧ y.sumMA = x.sumMA ∧ y.minMA = x.minMA
            ∧ y.maxMA = x.maxMA ∧ y.outside = x.outside)
          ∧ (∀ m, (t.ch c).ma.value = some m →
              y.count = x.count + 1 ∧ y.sumMA = x.sumMA + m
              ∧ y.minMA = some (match x.minMA with
                  | some a => min a m
                  | none => m)
              ∧ y.maxMA = some (match x.maxMA with
                  | some a => max a m
                  | none => m)
              ∧ y.outside = (match (t.ch c).setpoint with
                  | some sp =>
                    if usesTarget r.kind = true ∧ r.band < (m - sp).natAbs ∧ x.outside < 3932100 then
                      x.outside + 1
                    else x.outside
                  | none => x.outside))
          ∧ y.waterHeld = min 1006632900 (x.waterHeld + s.heldAmount c .water)
          ∧ y.powerHeld = min 1006632900 (x.powerHeld + s.heldAmount c .power)
          ∧ y.waiting = (if ((s.ch c).wait.claim = true ∨ (s.ch c).wait.line = true) ∧ x.waiting < 3932100
              then x.waiting + 1 else x.waiting)))

/-! ## Panel requests -/

/-- A request that is REFUSED or BAD_REQUEST leaves the station as it was but for the reply (R179); ELOCK's sampled
level and the count of free values are the model's own. -/
def Obligations.RefusedRequestsChangeNothing : Prop :=
  ∀ (i : Instr) (s t : State),
    (∃ n, (∃ r, i = .loadPhase n r) ∨ i = .hold n ∨ i = .release n ∨ (∃ b, i = .setStep n b)
      ∨ i = .clearHalt n ∨ i = .channelReset n ∨ i = .withdrawOffer n ∨ (∃ l, i = .discard n l)
      ∨ (∃ k g l, i = .handGauge n k g l) ∨ i = .readChannelStatus n ∨ (∃ p, i = .readPhaseRecord n p)
      ∨ i = .readPieceRecord n ∨ (∃ m, i = .readCompletionRecord n m) ∨ i = .readClaimTableEntry n
      ∨ i = .readBookEntry n ∨ ∃ bytes, i = .badRequest bytes) →
    exec i s = .next t → (t.panel.reply.result = .refused ∨ t.panel.reply.result = .badRequest) →
    t = { s with elock := t.elock, free := t.free, panel := { s.panel with reply := t.panel.reply } }

/-- While a reset or its load is in progress no request is taken (R178). A request that cannot be decoded is
answered BAD_REQUEST and changes nothing (R179, R198). A READ of the line counters returns all three and then sets
all three to 0, and each counter stops at 65535 (R23). -/
def Obligations.PortAnswersWhatItTakes : Prop :=
  (∀ (i : Instr) (s : State), s.busy = true → panelRequest i = true → exec i s = .next s)
  ∧ (∀ (s : State) (b : Byte) (l : List Byte), s.busy = false →
    exec (.badRequest (b :: l)) s = .next (s.replied b .badRequest [])
    ∧ ∃ t, exec (.badRequest []) s = .next t ∧ t.panel.reply.result = .badRequest
        ∧ t = { s with free := t.free, panel := { s.panel with reply := t.panel.reply } })
  ∧ (∀ s : State, s.busy = false →
    exec .readLineCounters s = .next (({ s with line := { s.line with
      checkFailures := 0, ownAborted := 0, missedTurns := 0 } } : State).replied 12#8 .ok
        (bytes2 s.line.checkFailures ++ bytes2 s.line.ownAborted ++ bytes2 s.line.missedTurns)))
  ∧ (∀ s : State, s.hearing = true → s.line.checkFailures = 65535 →
    ∃ t, exec .garbledFrame s = .next t ∧ t.line.checkFailures = 65535)
  ∧ (∀ (s : State) (other : Bool), s.line.sending.isSome = true → s.line.ownAborted = 65535 →
    ∃ t, exec (.ownFrameAborted other) s = .next t ∧ t.line.ownAborted = 65535)
  ∧ (∀ (s : State) (x : Nat), s.line.state.hears = true → s.lineIdle = true → s.line.roundPart = .turns →
    s.line.lastSender = some x → s.line.missedTurns = 65535 →
    ∃ t, exec .joinWindowOpens s = .next t ∧ t.line.missedTurns = 65535)

/-- LOAD_PHASE that passes its checks places the record in the first empty place of the queue, and an IDLE channel
becomes READY (R63, R65, R52); in STARVED the phase starts as the record comes, or halts the channel at a failed
start check (R56, R53, R66). SET_STEP sets or clears the step flag and nothing else (R59). CLEAR_HALT: a HALTED
vessel becomes PAUSED(CLEARED) with its queue empty and its piece kept, every drive commanded off; a FAULTED turner
is PARKED and available again (R61, R112). CHANNEL_RESET of a channel with no piece and no transfer: IDLE with an
empty queue, its claims dropped, its records and statistics gone (R62). -/
def Obligations.QueueRequestsAct : Prop :=
  (∀ (s : State) (c : Fin 6) (r : PhaseRecord), s.busy = false → isVessel (s.kindOf c) = true →
    r.fits = true → loadRefusal (s.ch c) r = none →
    ∃ t, exec (.loadPhase c.val r) s = .next t
      ∧ ((s.ch c).state ≠ .starved →
          ((s.ch c).current = none → (t.ch c).current = some r ∧ (t.ch c).started = false
            ∧ (t.ch c).state = if (s.ch c).state = .idle then .ready else (s.ch c).state)
          ∧ ((s.ch c).current.isSome = true → (t.ch c).next = some r ∧ (t.ch c).current = (s.ch c).current
              ∧ (t.ch c).state = (s.ch c).state)
          ∧ t = { s with chans := t.chans, panel := { s.panel with reply := ⟨1#8, .ok, []⟩ } })
      ∧ ((s.ch c).state = .starved → (s.ch c).current = none →
          (t.ch c).StartedBy (startCheck (s.ch c) r false) r ∧ t.panel.reply = ⟨1#8, .ok, []⟩
          ∧ s.OtherClaimsKept t c)
      ∧ s.OthersKept t c)
  ∧ (∀ (s : State) (c : Fin 6) (b : Bool), s.busy = false → isVessel (s.kindOf c) = true →
    ∃ t, exec (.setStep c.val b) s = .next t ∧ t.ch c = { s.ch c with stepFlag := b }
      ∧ t = { s with chans := t.chans, panel := { s.panel with reply := ⟨4#8, .ok, []⟩ } }
      ∧ s.OthersKept t c)
  ∧ (∀ (s : State) (c : Fin 6), s.busy = false → isVessel (s.kindOf c) = true → (s.ch c).state = .halted →
    ∃ t, exec (.clearHalt c.val) s = .next t ∧ (t.ch c).state = .paused ∧ (t.ch c).pause = some .cleared
      ∧ (t.ch c).halt = none ∧ (t.ch c).current = none ∧ (t.ch c).next = none
      ∧ (t.ch c).piece.map (·.id) = (s.ch c).piece.map (·.id) ∧ t.panel.reply = ⟨5#8, .ok, []⟩
      ∧ t.command c = allOff ∧ t.outputs c = allOff
      ∧ t = { s with chans := t.chans, castends := t.castends, panel := t.panel } ∧ s.OthersKept t c)
  ∧ (∀ (s : State) (c : Fin 6), s.busy = false → s.kindOf c = .turner → s.turner.state = .faulted →
    exec (.clearHalt c.val) s = .next { s with
      turner := { s.turner with state := .parked, position := none, overload := 0, available := true }
      panel := { s.panel with reply := ⟨5#8, .ok, []⟩ } })
  ∧ (∀ (s : State) (c : Fin 6), s.busy = false → isVessel (s.kindOf c) = true → (s.ch c).piece = none →
    (s.ch c).xfer.state ≠ .accepted → (s.ch c).xfer.state ≠ .awaiting →
    ∃ t, exec (.channelReset c.val) s = .next t ∧ (t.ch c).state = .idle ∧ (t.ch c).current = none
      ∧ (t.ch c).next = none ∧ (t.ch c).records = [] ∧ (t.ch c).stats = {} ∧ (t.ch c).stepFlag = false
      ∧ (t.ch c).kind = (s.ch c).kind ∧ t.NoClaims c
      ∧ t = { s with own := t.own, chans := t.chans, panel := { s.panel with reply := ⟨6#8, .ok, []⟩ } }
      ∧ s.OthersKept t c ∧ s.OtherClaimsKept t c)

/-- HOLD pauses a RUNNING or STARVED channel with the state it resumes (R57), the fire and the peat feed go out
(R129) and the breakthrough count with them (R121). RELEASE of a channel PAUSED by the panel in a phase: RUNNING
again with the timer going on, and where a completion is due, the phase completes (R58, R55). -/
def Obligations.HoldAndReleaseOfARun : Prop :=
  (∀ (s : State) (c : Fin 6), s.busy = false → isVessel (s.kindOf c) = true →
    ((s.ch c).state = .running ∨ (s.ch c).state = .starved) →
    ∃ t, exec (.hold c.val) s = .next t ∧ (t.ch c).state = .paused ∧ (t.ch c).pause = some .panel
      ∧ (t.ch c).resume = some (if (s.ch c).state = .starved then .starved else .running)
      ∧ (t.ch c).timer = (s.ch c).timer ∧ (t.ch c).current = (s.ch c).current ∧ (t.ch c).wait = (s.ch c).wait
      ∧ (t.ch c).firing = 0 ∧ (t.ch c).peat = false ∧ (t.ch c).breakCount = 0
      ∧ t.panel.reply = ⟨2#8, .ok, []⟩
      ∧ t = { s with chans := t.chans, panel := t.panel } ∧ s.OthersKept t c)
  ∧ (∀ (s : State) (c : Fin 6), s.busy = false → isVessel (s.kindOf c) = true →
    (s.ch c).discardPending = false → (s.ch c).state = .paused → (s.ch c).pause = some .panel →
    (s.ch c).resume = some .running →
    ((s.ch c).due = none →
      ∃ t, exec (.release c.val) s = .next t ∧ (t.ch c).state = .running ∧ (t.ch c).pause = none
        ∧ (t.ch c).timer = (s.ch c).timer ∧ (t.ch c).current = (s.ch c).current
        ∧ t = { s with chans := t.chans, panel := { s.panel with reply := ⟨3#8, .ok, []⟩ } }
        ∧ s.OthersKept t c)
    ∧ (∀ reason r, (s.ch c).due = some reason → (s.ch c).current = some r →
      ∃ t rec, exec (.release c.val) s = .next t ∧ (t.ch c).records.head? = some rec ∧ rec.kind = r.kind
        ∧ rec.reason = reason ∧ t.panel.reply = ⟨3#8, .ok, []⟩ ∧ s.OthersKept t c))

/-- After a PIN reset without a changed image each vessel takes the state it had: paused by RESTART where its cast
was accepted or the hold flag is set, else as it was with its restart list asked again in the saved slots and its
wait set rebuilt; IDLE, READY and HALTED drop the list (R193, R194). RELEASE by pause reason: CURRENT starts, or the
channel is STARVED, READY or IDLE; an offer is made again, but a completion due in its pause completes the phase
(R55); from RESTART the list is asked, an accepted cast asks its transfer claims, and the channel runs again or
completes, a TURN without TURN_WAIT (R99) (R58, R133, R142, R195). The start at a RELEASE from STEP, of a phase
other than LOAD, which ends there, empties the wait set, a restart's CLAIM_WAIT with it, and sets the reasons of the
new phase and of the carried voided claims (R54, R70, R78, R116). RELEASE of a READY steep with a WET and a lot: the
phase starts at phase time 0 and the piece is created under the station's next free serial, the serials whose ids
pieces held or awaited on the station have being passed over, with the created counter raised (R52, R53, R78, R79).
-/
def Obligations.RestartAndRelease : Prop :=
  (∀ (image : List Byte) (s : State) (c : Fin 6), s.loader.loading = true → s.loader.held = false →
    goodImage image = true → s.loader.kind = .pin → s.loader.lastDigest = some (imageDigest image) →
    isVessel ((imageKinds image).get c) = true →
    ∃ t, exec (.configLoadGood image) s = .next t ∧
      let h := s.ch c
      let kept := { h with kind := (imageKinds image).get c, clock := some 0 }
      let casting := h.xfer.state = .accepted ∧ (h.inPhase .cast = true ∨ h.inPhase .loadout = true)
      let list := if h.xfer.state = .accepted then [] else h.restart.getD []
      (((h.state = .running ∨ h.state = .paused ∧ h.pause = some .panel) ∧ casting →
          t.ch c = { kept with
            state := .paused, pause := some .restart, resume := some .running
            piece := h.piece.map fun p => { p with castInterrupted := true } })
      ∧ (s.loader.hold = true → (h.state = .running ∧ ¬ casting ∨ h.state = .starved) →
          t.ch c = { kept with
            state := .paused, pause := some .restart
            resume := some (if h.state = .running then .running else .starved) })
      ∧ ((s.loader.hold = false ∧ (h.state = .running ∧ ¬ casting ∨ h.state = .starved)
            ∨ h.state = .paused ∧ h.pause ≠ some .restart ∧ ¬ (h.pause = some .panel ∧ casting)) →
          t.ch c = { kept with
            restart := none, restartKept := false
            wait := {
              claim := list.any fun x => x.ask.resource != .turner
              gauge := s.book.waiting.contains c
              offer := h.xfer.state == .offering
              turn := h.inPhase .turn } }
          ∧ ((list.map (·.slot)).Nodup → ∀ x ∈ list,
              t.ownAt c x.slot = some { askedClaim c x.slot x.ask with restartAsk := true }))
      ∧ (h.state = .paused ∧ h.pause = some .restart ∧ ¬ casting → t.ch c = kept)
      ∧ (h.state = .idle ∨ h.state = .ready ∨ h.state = .halted →
          t.ch c = { kept with restart := none, restartKept := false })))
  ∧ (∀ (s : State) (c : Fin 6), s.busy = false → isVessel (s.kindOf c) = true →
    (s.ch c).discardPending = false → (s.ch c).state = .paused →
    ∃ t, exec (.release c.val) s = .next t ∧ t.panel.reply = ⟨3#8, .ok, []⟩ ∧ s.OthersKept t c
      ∧ s.OtherClaimsKept t c ∧
      let h := s.ch c
      (((h.pause = some .step ∨ h.pause = some .orphan ∨ h.pause = some .cleared ∧ h.piece.isSome = true
            ∨ h.pause = some .panel ∧ h.resume = some .starved) →
          (h.current = none → (t.ch c).state = .starved ∧ t.own = s.own)
          ∧ (∀ r, h.current = some r → (t.ch c).StartedBy (startCheck h r false) r))
      ∧ (∀ r, h.pause = some .step → h.current = some r → r.kind ≠ .load → startCheck h r false = none →
          let k := t.ch c
          (∀ x ∈ t.claimsOf c, x.restartAsk = false)
          ∧ (k.wait.claim = true ↔ r.kind = .wet ∧ t.hasHeld c .water = false
              ∨ kilnFanKind r.kind = true ∧ t.hasHeld c .power = false)
          ∧ (k.wait.line = true ↔ ∃ x ∈ t.claimsOf c, x.voided = true)
          ∧ k.wait.gauge = false ∧ (k.wait.turn = true ↔ r.kind = .turn)
          ∧ (k.wait.offer = true ↔ r.kind = .cast ∨ r.kind = .loadout))
      ∧ (∀ r, h.pause = some .orphan → h.current = some r → r.kind ≠ .load → startCheck h r false = none →
          (t.ch c).flags.orphanStart = true)
      ∧ (h.pause = some .cleared → h.piece = none →
          (t.ch c).state = (if h.current.isSome = true then .ready else .idle) ∧ (t.ch c).current = h.current)
      ∧ (h.pause = some .offerUnanswered ∨ h.pause = some .offerDeclined ∨ h.pause = some .destLost →
          (h.due = none →
            (t.ch c).state = .running ∧ (t.ch c).pause = none ∧ (t.ch c).step = some .offering
              ∧ (t.ch c).wait.offer = true ∧ (t.ch c).timer = h.timer
              ∧ (t.ch c).xfer = { h.xfer with state := .offering, count := 0 } ∧ t.own = s.own)
          ∧ (∀ reason r, h.due = some reason → h.current = some r → (r.kind = .cast ∨ r.kind = .loadout) →
            (t.ch c).EndedBy r.kind reason ∧ (t.ch c).due = none ∧ t.NoClaims c
              ∧ (t.ch c).state = (if h.next = none then .idle else .halted)
              ∧ (h.xfer.state = .none → (t.ch c).xfer = h.xfer)))
      ∧ (h.pause = some .restart →
          (h.xfer.state ≠ .accepted → h.due = none → h.resume = some .running →
            (t.ch c).state = .running ∧ (t.ch c).pause = none ∧ (t.ch c).timer = h.timer
              ∧ (t.ch c).restart = none
              ∧ (((h.restart.getD []).map (·.slot)).Nodup → ∀ x ∈ h.restart.getD [],
                  t.ownAt c x.slot = some { askedClaim c x.slot x.ask with restartAsk := true }))
          ∧ (∀ r d, h.xfer.state = .accepted → h.xfer.partner = some d → h.started = true →
              h.current = some r → (r.kind = .cast ∨ r.kind = .loadout) →
              h.xfer.loadout = decide (r.kind = .loadout) → h.due = none → h.resume = some .running →
              s.claimsOf c = [] →
              (t.ch c).state = .running ∧ (t.ch c).wait.claim = true
                ∧ (t.ch c).step = some (if r.kind = .loadout then .loading else .casting)
                ∧ t.claimsOf c = [
                    askedClaim c 0 ⟨if r.kind = .loadout then .loader else .castway, 1, r.priority, false,
                      some (.dest d), none⟩,
                    askedClaim c 1 ⟨.power, r.power.getD 0, r.priority, false, none, none⟩])
          ∧ (∀ reason r, h.due = some reason → h.current = some r → h.resume = some .running →
              (t.ch c).EndedBy r.kind reason ∧ (h.next = none → (t.ch c).wait.turn = false))
          ∧ (h.resume = some .starved → h.current = none → (t.ch c).state = .starved))))
  ∧ (∀ (s : State) (c : Fin 6) (r : PhaseRecord) (lot : Nat), s.busy = false → s.kindOf c = .steep →
    (s.ch c).discardPending = false → (s.ch c).state = .ready → (s.ch c).piece = none →
    (s.ch c).current = some r → r.kind = .wet → r.lot = some lot →
    ∃ t p, exec (.release c.val) s = .next t ∧ (t.ch c).JustStarted
      ∧ (t.ch c).step = some .filling ∧ (t.ch c).piece = some p ∧ p.lot = lot
      ∧ p.stage = .steep ∧ t.book.created = (if s.book.created < 65535 then s.book.created + 1
          else s.book.created)
      ∧ (s.book.serial < 2048 →
          let id := fun k => BitVec.ofNat 16 (s.cfg.address * 2048 + (s.book.serial + k) % 2048)
          ∃ k, p.id = id k ∧ id k ∉ s.pieceIds ∧ (∀ j, j < k → id j ∈ s.pieceIds)
            ∧ t.book.serial = (s.book.serial + k + 1) % 2048)
      ∧ t.panel.reply = ⟨3#8, .ok, []⟩ ∧ s.OthersKept t c ∧ s.OtherClaimsKept t c)

/-- WITHDRAW_OFFER of a standing offer: the unit is NONE, the channel STARVED with an empty queue, and a destination
that accepted once is told (R141, R140). -/
def Obligations.WithdrawEndsOffer : Prop :=
  ∀ (s : State) (c : Fin 6), s.busy = false → isVessel (s.kindOf c) = true →
    ((s.ch c).xfer.state = .offering ∨ (s.ch c).xfer.state = .suspended) →
    (s.ch c).discardPending = false →
    ∃ t, exec (.withdrawOffer c.val) s = .next t ∧ (t.ch c).xfer = {} ∧ (t.ch c).state = .starved
      ∧ (t.ch c).current = none ∧ (t.ch c).next = none ∧ (t.ch c).wait.offer = false
      ∧ (t.ch c).piece = (s.ch c).piece
      ∧ ((s.ch c).xfer.acceptedOnce = false → t.castends = s.castends)
      ∧ (∀ d id, (s.ch c).xfer.acceptedOnce = true → (s.ch c).xfer.partner = some d →
          (s.ch c).xfer.piece = some id → t.castends = placeCastend ⟨c.val, d, .cancelled id⟩ s.castends)
      ∧ t.panel.reply = ⟨7#8, .ok, []⟩
      ∧ t = { s with chans := t.chans, castends := t.castends, panel := t.panel } ∧ s.OthersKept t c

/-- DISCARD: an ungauged piece leaves at once, and the channel is IDLE without claims; a gauged one's DISCARD entry
becomes pending with the discard mark (R146, R147, R164). HAND_GAUGE: the entry of the gauge becomes pending, HAND
set and REPLACED where the piece had one; the piece itself waits for the read-back (R163). -/
def Obligations.DiscardAndHandGauge : Prop :=
  (∀ (s : State) (c : Fin 6) (low : Bool) (p : Piece), s.busy = false → isVessel (s.kindOf c) = true →
    (s.ch c).piece = some p → ({ s with elock := low } : State).discardRefusal c p = none →
    (gauged p = false →
      ∃ t, exec (.discard c.val low) s = .next t ∧ (t.ch c).piece = none ∧ (t.ch c).state = .idle
        ∧ t.NoClaims c ∧ t.panel.reply = ⟨8#8, .ok, []⟩
        ∧ t.book.discarded = (if s.book.discarded < 65535 then s.book.discarded + 1 else s.book.discarded)
        ∧ s.OthersKept t c ∧ s.OtherClaimsKept t c)
    ∧ (gauged p = true →
      ∃ t, exec (.discard c.val low) s = .next t ∧ (t.ch c) = { s.ch c with discardPending := true }
        ∧ t.book = { s.book with pend := s.book.pend ++ [⟨discardEntry c p, false⟩] }
        ∧ t = { s with elock := low, chans := t.chans, book := t.book,
                       panel := { s.panel with reply := ⟨8#8, .acceptedPending, []⟩ } }
        ∧ s.OthersKept t c))
  ∧ (∀ (s : State) (c : Fin 6) (k : HandKind) (g : Nat) (low : Bool) (p : Piece), s.busy = false →
    isVessel (s.kindOf c) = true → g < 16777216 → (s.ch c).piece = some p →
    ({ s with elock := low } : State).handRefusal c k p = none →
    exec (.handGauge c.val k g low) s = .next { s with
      elock := low
      book := { s.book with pend := s.book.pend ++ [⟨{
        kind := (match k with
          | .steep => .steepGauge
          | .couch => .couchGauge)
        channel := some c.val, piece := some p.id, value := .gauge g, hand := true,
        replaced := s.hasGauge k p }, false⟩] }
      panel := { s.panel with reply := ⟨9#8, .acceptedPending, []⟩ } })

/-- TAKE_BOOK removes the entries up to a sequence and no other entry that stands; the places freed are filled from
the missed span, oldest number first, by GAPs of at most 65535 each; the book count stays, and the reply gives the
entries removed, the entries held and the count (R157): as many GAPs as there are places free, or as the span needs
where that is fewer, and what they leave of it stands as the missed span. BOOK_FULL is set where the filling brings
the book to its 128th entry again (R156). -/
def Obligations.TakeBookRemoves : Prop :=
  ∀ (s : State) (q : Seq), s.busy = false →
    let kept := match s.book.entries with
      | [] => []
      | e :: _ =>
        if 8388608 ≤ (q - e.sequence).toNat then s.book.entries
        else s.book.entries.filter fun x =>
          !decide ((x.sequence - e.sequence).toNat ≤ (q - e.sequence).toNat)
    ∃ t, exec (.takeBook q) s = .next t ∧ t.book.count = s.book.count
      ∧ t.panel.reply = ⟨10#8, .ok, toBytes ([s.book.entries.length - kept.length, t.book.entries.length]
          ++ bytes3 s.book.count.toNat)⟩
      ∧ (s.book.missed = none → t.book.entries = kept ∧ t.book.missed = none)
      ∧ (∀ m, s.book.missed = some m → 1 ≤ m.count →
          let n := min (128 - kept.length) ((m.count + 65534) / 65535)
          let filled := 65535 * n
          t.book.entries = kept ++ (List.range n).map (fun k =>
              ⟨m.start + BitVec.ofNat 24 (65535 * k), min (m.count - 65535 * k) 65535, gapItem, s.line.round,
                s.cfg.address⟩)
          ∧ t.book.missed = (if m.count ≤ filled then none
              else some ⟨m.start + BitVec.ofNat 24 filled, m.count - filled⟩)
          ∧ (t.book.missed = none ∨ 128 ≤ t.book.entries.length))
      ∧ t.panel.bookFull = (s.panel.bookFull || (kept.length < 128 && t.book.entries.length == 128))
      ∧ t.claims = s.claims ∧ t.own = s.own ∧ t.panel.events = s.panel.events

/-- SET_RESTART_HOLD sets or clears the flag, and a POWER_UP reset clears it (R192). -/
def Obligations.RestartHoldSet : Prop :=
  (∀ (s : State) (b : Bool), s.busy = false →
    exec (.setRestartHold b) s
      = .next (({ s with loader := { s.loader with hold := b } } : State).replied 11#8 .ok [bit b]))
  ∧ (∀ (s t : State) (low : Bool), exec (.powerUpReset low) s = .next t → t.loader.hold = false)
  ∧ (∀ s t : State, s.loader.supply = false → exec .pinReset s = .next t → t.loader.hold = s.loader.hold)
  ∧ (∀ s t : State, exec .configLoadBad s = .next t → t.loader.hold = s.loader.hold)

/-- The station READs answer OK with the object named and change nothing (R181, R18, R26, R132, R158). The channel
READs answer OK with the object named and change nothing (R181, R65, R72, R74, R131). The bytes of both are laid out
as the model reads section 12.2, by its log entries 24, 56, 57, 63 to 66, 69, 73, 75, 76 and 83. -/
def Obligations.ReadsAnswer : Prop :=
  (∀ s : State, s.busy = false →
    exec .readPeerTable s = .next (s.replied 12#8 .ok (s.peers.flatMap peerBytes))
    ∧ exec .readPieceCounters s = .next (s.replied 12#8 .ok
        (bytes2 s.book.created ++ bytes2 s.book.received ++ bytes2 s.book.handed ++ bytes2 s.book.finished
          ++ bytes2 s.book.discarded))
    ∧ (∀ n, n ≤ 127 →
        exec (.readClaimTableEntry n) s = .next (s.replied 12#8 .ok (claimObject s.claims[n]?))
        ∧ exec (.readBookEntry n) s = .next (s.replied 12#8 .ok (entryObject s.book.entries[n]?)))
    ∧ (∀ low, exec (.readStationStatus low) s
        = .next (({ s with elock := low } : State).replied 12#8 .ok
            ({ s with elock := low } : State).stationStatus)))
  ∧ (∀ (s : State) (c : Fin 6), s.busy = false → s.kindOf c ≠ .unused →
    exec (.readChannelStatus c.val) s = .next (s.replied 12#8 .ok
        (channelBytes (s.ch c) ++ xferBytes (s.ch c).xfer ++ s.arrivalBytes c ++ s.kindBytes c))
    ∧ exec (.readPhaseRecord c.val .current) s = .next (s.replied 12#8 .ok
        (placeBytes (s.ch c).current (s.ch c).started))
    ∧ exec (.readPhaseRecord c.val .next) s = .next (s.replied 12#8 .ok
        (placeBytes (s.ch c).next false))
    ∧ exec (.readPieceRecord c.val) s = .next (s.replied 12#8 .ok (pieceObject (s.ch c).piece))
    ∧ ∀ n, n ≤ 3 → exec (.readCompletionRecord c.val n) s
        = .next (s.replied 12#8 .ok (completionObject (s.ch c).records[n]?)))

/-- A valid TURN frame of another station brings the book level and appends its entries (R152 to R154, R156): an
unnumbered station takes the frame's count; a count ahead by up to 65535 is a GAP; each entry takes the next number,
the sender and the frame's round; a full book counts into its missed span (which stops at 16777215 by the model's
choice, log entry 72), and BOOK_FULL comes with the 128th entry; a count behind, with entries, is BOOK_SKEW. An own
frame's entries are appended the same way at its read-back (R151). An opening frame with another settings digest
makes a MEMBER dissent, voids its holdings and records CONFIG_DISSENT once; an equal digest ends dissent (R21). -/
def Obligations.HeardFrameBooksAndJudges : Prop :=
  (∀ (s : State) (f : TurnFrame) (i : Instr) (station : Nat),
    ((∃ bytes, i = .validTurnFrameHeard bytes ∧ s.hearing = true ∧ decodeTurn bytes = some f
        ∧ f.sender ≠ s.cfg.address ∧ station = f.sender)
      ∨ ∃ ok, i = .ownTurnReadBack ∧ s.line.sending = some (.turn f false ok) ∧ f.count = s.book.count
        ∧ s.book.numbered = true ∧ station = s.cfg.address) →
    ∃ t, exec i s = .next t ∧
      let b := s.book
      let own := if b.numbered = true then b.count else f.count
      let d := (f.count - own).toNat
      let n := f.entries.length
      let gap : Entry := ⟨own, d, gapItem, f.round, s.cfg.address⟩
      t.book.numbered = true
      ∧ (d = 0 → b.entries.length + n ≤ 128 →
          t.book.entries = b.entries ++ entriesFrom own f.round station f.entries
            ∧ t.book.count = own + BitVec.ofNat 24 n ∧ t.book.missed = b.missed)
      ∧ (1 ≤ d → d ≤ 65535 → b.entries.length + 1 + n ≤ 128 →
          t.book.entries = b.entries ++ gap :: entriesFrom f.count f.round station f.entries
            ∧ t.book.count = f.count + BitVec.ofNat 24 n ∧ t.book.missed = b.missed)
      ∧ (65535 < d → b.entries.length + n ≤ 128 →
          t.book.entries = b.entries ++ entriesFrom own f.round station f.entries
            ∧ t.book.count = own + BitVec.ofNat 24 n
            ∧ (1 ≤ n → t.panel.record.map (fun r => (r.kind, r.station, r.round))
                = some (.bookSkew, some f.sender, f.round)))
      ∧ (b.entries.length = 128 →
          t.book.entries = b.entries
          ∧ t.book.count = (if d ≤ 65535 then f.count else own) + BitVec.ofNat 24 n
          ∧ (let lost := (if d ≤ 65535 then d else 0) + n
             (lost = 0 → t.book.missed = b.missed)
             ∧ (1 ≤ lost → ∀ m, b.missed = some m →
                 t.book.missed = some { m with count := min 16777215 (m.count + lost) })
             ∧ (1 ≤ lost → lost ≤ 16777215 → b.missed = none → t.book.missed = some ⟨own, lost⟩)))
      ∧ (b.entries.length < 128 → t.book.entries.length = 128 → t.panel.bookFull = true))
  ∧ (∀ (s : State) (bytes : List Byte) (f : TurnFrame), s.hearing = true → decodeTurn bytes = some f →
    f.sender ≠ s.cfg.address → f.opening = true → s.line.overridden = false →
    ∃ t, exec (.validTurnFrameHeard bytes) s = .next t
      ∧ (s.line.state ≠ .member → t.line.dissenting = s.line.dissenting)
      ∧ (s.line.state = .member → t.line.dissenting = decide (f.digest ≠ s.cfg.settingsDigest))
      ∧ (s.line.state = .member → f.digest ≠ s.cfg.settingsDigest → s.line.dissenting = false →
          t.panel.fault = true ∧ ∀ o ∈ t.own, o.state ≠ .held)
      ∧ (s.line.state = .member → f.digest ≠ s.cfg.settingsDigest → s.line.dissenting = false →
          f.home = false → f.claims = [] → f.entries = [] → f.count = s.book.count →
          s.book.numbered = true → s.peers.length = 24 → CarriesJust f [] [] [] [] →
          (∀ p ∈ s.peers, p.missed ≤ 1) →
          t.panel.record = some {
            kind := .configDissent, station := some f.sender, channel := none, round := f.round
            more := s.panel.record.isSome })
      ∧ (s.line.state = .member → f.digest ≠ s.cfg.settingsDigest → s.line.dissenting = true →
          f.home = false → f.claims = [] → f.entries = [] → f.count = s.book.count →
          s.book.numbered = true → s.peers.length = 24 → CarriesJust f [] [] [] [] →
          (∀ p ∈ s.peers, p.missed ≤ 1) → t.panel.record = s.panel.record))

/-- CLEAR_CHANGES clears the marked flags, PEER with the entry change flags under it, leaves EVENT to the queue, and
answers with the six flags after the clear (R182). SET_ATTENTION_MASK replaces the whole mask and answers with it
and ATTN's level, 1 while active by the model's choice, log entry 83; ATTN is active while a flag that is not masked
is set, and inactive from a reset until its load has ended (R183). -/
def Obligations.ChangeFlagsAndAttention : Prop :=
  (∀ (s : State) (mask : Byte), s.busy = false →
    ∃ t, exec (.clearChanges mask) s = .next t
      ∧ t.panel.lineState = (s.panel.lineState && !mask.getLsbD 1)
      ∧ t.panel.xtal = (s.panel.xtal && !mask.getLsbD 2)
      ∧ t.panel.bookFull = (s.panel.bookFull && !mask.getLsbD 3)
      ∧ t.panel.fault = (s.panel.fault && !mask.getLsbD 4)
      ∧ t.peerFlag = (s.peerFlag && !mask.getLsbD 0) ∧ t.eventFlag = s.eventFlag
      ∧ t.panel.record = s.panel.record
      ∧ t.panel.reply = ⟨13#8, .ok, toBytes [bit t.peerFlag, bit t.panel.lineState, bit t.panel.xtal,
          bit t.panel.bookFull, bit t.panel.fault, bit t.eventFlag]⟩
      ∧ t = { s with peers := t.peers, panel := t.panel })
  ∧ (∀ (s : State) (mask : Byte), s.busy = false →
    ∃ t, exec (.setAttentionMask mask) s = .next t
      ∧ t.panel.mask = {
          peer := mask.getLsbD 0, lineState := mask.getLsbD 1, xtal := mask.getLsbD 2,
          bookFull := mask.getLsbD 3, fault := mask.getLsbD 4, event := mask.getLsbD 5 }
      ∧ t.panel.reply = ⟨14#8, .ok, toBytes [maskByte t.panel.mask, bit t.attn]⟩
      ∧ t.changeFlags = s.changeFlags ∧ t = { s with panel := t.panel })
  ∧ (∀ s : State, s.busy = false →
    (s.attn = true ↔ (s.peerFlag = true ∧ s.panel.mask.peer = false)
      ∨ (s.panel.lineState = true ∧ s.panel.mask.lineState = false)
      ∨ (s.panel.xtal = true ∧ s.panel.mask.xtal = false)
      ∨ (s.panel.bookFull = true ∧ s.panel.mask.bookFull = false)
      ∨ (s.panel.fault = true ∧ s.panel.mask.fault = false)
      ∨ (s.eventFlag = true ∧ s.panel.mask.event = false)))
  ∧ (∀ s : State, s.busy = true → s.attn = false)
  ∧ (∀ (s t : State) (low : Bool), exec (.powerUpReset low) s = .next t → t.panel.mask = {})
  ∧ (∀ s t : State, s.loader.held = false → exec .pinReset s = .next t → t.panel.mask = {})

/-- POP_EVENT removes the oldest entry and answers OK with it, or with an empty entry; the overflow count stays
(R185). -/
def Obligations.PopEventTakesOldest : Prop :=
  ∀ s : State, s.busy = false →
    (∀ e l, s.panel.events = e :: l →
      exec .popEvent s = .next (({ s with panel := { s.panel with events := l } } : State).replied 15#8 .ok
        (eventObject (some e))))
    ∧ (s.panel.events = [] →
      exec .popEvent s = .next (s.replied 15#8 .ok (eventObject none)))
    ∧ ∃ t, exec .popEvent s = .next t ∧ t.panel.overflow = s.panel.overflow
      ∧ t.eventFlag = decide (2 ≤ s.panel.events.length)

/-- R184: an event is stored at the end of the queue, counted in the overflow count (saturating at 255), or stored
behind an OVERRUN entry that carries the count, by the count and the places free; the EVENT flag is set exactly
while the queue holds an entry; each reset empties the queue and the count. -/
def Obligations.EventQueueOverflowRule : Prop :=
  (∀ (p : Panel) (round : Word16) (e : Event), p.events.length ≤ 16 → p.overflow ≤ 255 →
    (p.overflow = 0 → p.events.length < 16 → p.queue round e = { p with events := p.events ++ [e] })
    ∧ (p.events.length = 16 →
        p.queue round e = { p with overflow := if p.overflow < 255 then p.overflow + 1 else 255 })
    ∧ (1 ≤ p.overflow → p.events.length ≤ 14 →
        p.queue round e = { p with
          events := p.events ++ [⟨.overrun, none, none, round, [0, 0, 0, p.overflow]⟩, e], overflow := 0 })
    ∧ (1 ≤ p.overflow → p.events.length = 15 →
        p.queue round e = { p with overflow := if p.overflow < 255 then p.overflow + 1 else 255 }))
  ∧ (∀ s : State, s.eventFlag = true ↔ s.panel.events ≠ [])
  ∧ (∀ (low : Bool) (s t : State), exec (.powerUpReset low) s = .next t →
      t.panel.events = [] ∧ t.panel.overflow = 0)
  ∧ (∀ s t : State, s.loader.held = false → exec .pinReset s = .next t →
      t.panel.events = [] ∧ t.panel.overflow = 0)

/-- R187: READ_FAULT answers OK with the record as it stands, then empties it and clears the FAULT flag; with the
record empty the answer is the empty record, kind none and MORE clear (the bytes between them are the model's
choice, log entry 24). A fault recorded before the request is returned, one recorded after it stands in the emptied
record with MORE clear and FAULT set. CLEAR_CHANGES clears the FAULT flag and not the record. -/
def Obligations.ReadFaultReturnsAndEmpties : Prop :=
  (∀ s : State, s.busy = false →
    exec .readFault s = .next (({ s with panel := { s.panel with record := none, fault := false } } :
      State).replied 16#8 .ok (faultObject s.panel.record)))
  ∧ (∀ s : State, s.busy = false → s.panel.record = none →
      ∃ t between, exec .readFault s = .next t
        ∧ t.panel.reply = ⟨16#8, .ok, toBytes (0 :: (between ++ [0]))⟩)
  ∧ (∀ (s : State) (k : FaultKind) (a c : Option Nat), s.busy = false →
      ∃ t, exec .readFault (s.recordFault k a c) = .next t ∧ t.panel.record = none ∧ t.panel.fault = false
        ∧ t.panel.reply = ⟨16#8, .ok, toBytes (faultObject (some {
            kind := k, station := a, channel := c, round := s.line.round,
            more := s.panel.record.isSome }))⟩)
  ∧ (∀ (s : State) (k : FaultKind) (a c : Option Nat), s.busy = false →
      ∃ t, exec .readFault s = .next t
        ∧ (t.recordFault k a c).panel.record
            = some { kind := k, station := a, channel := c, round := s.line.round, more := false }
        ∧ (t.recordFault k a c).panel.fault = true)
  ∧ (∀ (s : State) (mask : Byte), s.busy = false → mask.getLsbD 4 = true →
      ∃ t, exec (.clearChanges mask) s = .next t ∧ t.panel.fault = false ∧ t.panel.record = s.panel.record)

/-! ## Claims, drives and frames as such -/

/-- A take is lawful when the held sum without it, the waiters ahead and its amount lie within the allowance, and,
for TURNER, when the home station's flags allow it too (R40). The waiter order is a strict order, and total between
entries of different identities (R39). -/
def Obligations.LawfulTakeRule : Prop :=
  (∀ (cfg : Settings) (ok : Bool) (t : List ClaimEntry) (c : ClaimEntry),
    lawful cfg ok t c = true ↔
      heldSum (t.filter fun e => e.key != c.key) c.resource + aheadSum t c + c.amount
          ≤ allowance cfg c.resource
        ∧ (c.resource = .turner → ok = true))
  ∧ ((∀ a : ClaimEntry, a.ahead a = false)
  ∧ (∀ a b c : ClaimEntry, a.ahead b = true → b.ahead c = true → a.ahead c = true)
  ∧ (∀ a b : ClaimEntry, a.key ≠ b.key → a.ahead b = true ∨ b.ahead a = true))

/-- Gated drives run only on held claims (R49), a fan draws no more than its channel holds (R50), and where a
condition of R173 holds every drive is off. -/
def Obligations.DrivesWithinHoldings : Prop :=
  ∀ (s : State) (c : Fin 6),
    (s.forcedOff c = true → s.outputs c = allOff)
    ∧ ((s.ch c).kind = .steep → s.hasHeld c .water = false → (s.outputs c).d0 = 0)
    ∧ ((s.ch c).kind = .steep → s.hasHeld c .power = false → (s.outputs c).d2 = 0 ∧ (s.outputs c).d3 = 0)
    ∧ ((s.ch c).kind = .steep → s.hasHeld c .castway = false → (s.outputs c).d3 = 0)
    ∧ ((s.ch c).kind = .box → s.hasHeld c .water = false → (s.outputs c).d1 = 0)
    ∧ ((s.ch c).kind = .box → (s.hasHeld c .loader = false ∨ s.hasHeld c .power = false) →
        (s.outputs c).d2 = 0)
    ∧ ((s.ch c).kind = .turner → s.turnerGate = false → (s.outputs c).d0 = 0 ∧ (s.outputs c).d1 = 0)
    ∧ ((s.ch c).kind = .box ∨ (s.ch c).kind = .kiln →
        fanDraw (s.outputs c).d0 (s.cfg.ratings.get c) ≤ s.heldAmount c .power)

/-- A JOIN frame of a station survives the line: its bytes decode to it. -/
def Obligations.JoinFrameRoundTrip : Prop :=
  ∀ f : JoinFrame, 1 ≤ f.sender → f.sender ≤ 24 → decodeJoin (encodeJoin f) = some f
end

