-- ==== Sys2Proof/Laws/State.lean ====
section
/-! SUPPORT. What the plainest updates of the state do: one channel's, and each field's, with the reads of a channel. All
are true by rfl or by cases on the channel. -/

namespace Sys2Proof

@[simp] theorem Six.get_set_self {α : Type} (v : Six α) (c : Fin 6) (x : α) : (v.set c x).get c = x := by
  fin_cases c <;> rfl

theorem Six.get_set_ne {α : Type} (v : Six α) (c d : Fin 6) (x : α) (h : d ≠ c) :
    (v.set c x).get d = v.get d := by
  fin_cases c <;> fin_cases d <;> first | rfl | exact absurd rfl h

theorem Six.get_set {α : Type} (v : Six α) (c d : Fin 6) (x : α) :
    (v.set c x).get d = if d = c then x else v.get d := by
  split
  · next h => rw [h, Six.get_set_self]
  · next h => exact Six.get_set_ne v c d x h

@[simp] theorem Six.get_all {α : Type} (c : Fin 6) (x : α) : (Six.all x).get c = x := by
  fin_cases c <;> rfl

namespace Machine

@[simp] theorem State.ch_setCh_self (s : State) (c : Fin 6) (x : Channel) : (s.setCh c x).ch c = x := by
  simp only [State.ch, State.setCh, Six.get_set_self]

theorem State.ch_setCh (s : State) (c d : Fin 6) (x : Channel) :
    (s.setCh c x).ch d = if d = c then x else s.ch d := by
  simp only [State.ch, State.setCh, Six.get_set]

@[simp] theorem State.ch_modCh_self (s : State) (c : Fin 6) (f : Channel → Channel) :
    (s.modCh c f).ch c = f (s.ch c) := by
  simp [State.modCh]

theorem State.ch_modCh (s : State) (c d : Fin 6) (f : Channel → Channel) :
    (s.modCh c f).ch d = if d = c then f (s.ch c) else s.ch d := by
  simp [State.modCh, State.ch_setCh]

/-- Two states with the same channels show the same channel. -/
theorem State.ch_of_chans {s t : State} (h : t.chans = s.chans) (c : Fin 6) : t.ch c = s.ch c := by
  simp only [State.ch, h]

/-- A channel read off a state written out field by field. -/
@[simp] theorem State.ch_mk (tb : Timebase) (loader : Loader) (cfg : Settings) (line : Line) (peers : List Peer)
    (claims : List ClaimEntry) (own : List OwnClaim) (chans : Six Channel) (turner : Turner)
    (replies : List (Listed ReplyItem)) (castends : List (Listed CastendItem)) (book : Book) (panel : Panel)
    (elock : Bool) (free : Nat) (pending : List Instr) (c : Fin 6) :
    (State.mk tb loader cfg line peers claims own chans turner replies castends book panel elock free
      pending).ch c = chans.get c := rfl

@[simp] theorem State.chans_get (s : State) (c : Fin 6) : s.chans.get c = s.ch c := rfl

@[simp] theorem State.modLine_line (s : State) (f : Line → Line) : (s.modLine f).line = f s.line := rfl

@[simp] theorem State.mark_line (s : State) (f : RoundRecord → RoundRecord) :
    (s.mark f).line = { s.line with record := f s.line.record } := rfl

@[simp] theorem State.modTurner_turner (s : State) (f : Turner → Turner) :
    (s.modTurner f).turner = f s.turner := rfl

@[simp] theorem State.modPeer_peers (s : State) (a : Nat) (f : Peer → Peer) :
    (s.modPeer a f).peers = modifyAt f (a - 1) s.peers := rfl

@[simp] theorem State.setCh_chans (s : State) (c : Fin 6) (x : Channel) :
    (s.setCh c x).chans = s.chans.set c x := rfl

@[simp] theorem State.castend_castends (s : State) (x : CastendItem) :
    (s.castend x).castends = placeCastend x s.castends := rfl

@[simp] theorem State.reply_replies (s : State) (x : ReplyItem) :
    (s.reply x).replies = placeReply x s.replies := rfl

@[simp] theorem State.event_panel (s : State) (k : EventKind) (c : Option (Fin 6)) (p : Option Word16)
    (v : List Nat) :
    (s.event k c p v).panel
      = s.panel.queue s.line.round { kind := k, channel := c, piece := p, round := s.line.round, value := v } :=
  rfl

@[simp] theorem State.answer_panel (s : State) (code : Byte) (r : Result) (d : List Nat) :
    (s.answer code r d).panel = { s.panel with reply := ⟨code, r, toBytes d⟩ } := rfl

end Machine

end Sys2Proof
end

