-- ==== Sys2Proof/Laws/Frames.lean ====
section
/-! SUPPORT. What each operation of the station leaves alone: one lemma per operation, naming every field of the state that
the operation never changes. Cite these instead of unfolding the operation. -/

set_option linter.unusedTactic false
set_option linter.unreachableTactic false
set_option linter.unusedSimpArgs false
set_option linter.unnecessarySeqFocus false

namespace Sys2Proof.Machine

/-! ## Folds: a field that every step leaves alone -/

@[simp] theorem foldl_tb {α : Type} (f : State → α → State) (l : List α) (s : State)
    (h : ∀ t a, (f t a).tb = t.tb) : (l.foldl f s).tb = s.tb := by
  induction l generalizing s with
  | nil => rfl
  | cons a r ih => simp only [List.foldl_cons]; rw [ih, h]

@[simp] theorem foldl_loader {α : Type} (f : State → α → State) (l : List α) (s : State)
    (h : ∀ t a, (f t a).loader = t.loader) : (l.foldl f s).loader = s.loader := by
  induction l generalizing s with
  | nil => rfl
  | cons a r ih => simp only [List.foldl_cons]; rw [ih, h]

@[simp] theorem foldl_cfg {α : Type} (f : State → α → State) (l : List α) (s : State)
    (h : ∀ t a, (f t a).cfg = t.cfg) : (l.foldl f s).cfg = s.cfg := by
  induction l generalizing s with
  | nil => rfl
  | cons a r ih => simp only [List.foldl_cons]; rw [ih, h]

@[simp] theorem foldl_line {α : Type} (f : State → α → State) (l : List α) (s : State)
    (h : ∀ t a, (f t a).line = t.line) : (l.foldl f s).line = s.line := by
  induction l generalizing s with
  | nil => rfl
  | cons a r ih => simp only [List.foldl_cons]; rw [ih, h]

@[simp] theorem foldl_peers {α : Type} (f : State → α → State) (l : List α) (s : State)
    (h : ∀ t a, (f t a).peers = t.peers) : (l.foldl f s).peers = s.peers := by
  induction l generalizing s with
  | nil => rfl
  | cons a r ih => simp only [List.foldl_cons]; rw [ih, h]

@[simp] theorem foldl_claims {α : Type} (f : State → α → State) (l : List α) (s : State)
    (h : ∀ t a, (f t a).claims = t.claims) : (l.foldl f s).claims = s.claims := by
  induction l generalizing s with
  | nil => rfl
  | cons a r ih => simp only [List.foldl_cons]; rw [ih, h]

@[simp] theorem foldl_own {α : Type} (f : State → α → State) (l : List α) (s : State)
    (h : ∀ t a, (f t a).own = t.own) : (l.foldl f s).own = s.own := by
  induction l generalizing s with
  | nil => rfl
  | cons a r ih => simp only [List.foldl_cons]; rw [ih, h]

@[simp] theorem foldl_chans {α : Type} (f : State → α → State) (l : List α) (s : State)
    (h : ∀ t a, (f t a).chans = t.chans) : (l.foldl f s).chans = s.chans := by
  induction l generalizing s with
  | nil => rfl
  | cons a r ih => simp only [List.foldl_cons]; rw [ih, h]

@[simp] theorem foldl_turner {α : Type} (f : State → α → State) (l : List α) (s : State)
    (h : ∀ t a, (f t a).turner = t.turner) : (l.foldl f s).turner = s.turner := by
  induction l generalizing s with
  | nil => rfl
  | cons a r ih => simp only [List.foldl_cons]; rw [ih, h]

@[simp] theorem foldl_replies {α : Type} (f : State → α → State) (l : List α) (s : State)
    (h : ∀ t a, (f t a).replies = t.replies) : (l.foldl f s).replies = s.replies := by
  induction l generalizing s with
  | nil => rfl
  | cons a r ih => simp only [List.foldl_cons]; rw [ih, h]

@[simp] theorem foldl_castends {α : Type} (f : State → α → State) (l : List α) (s : State)
    (h : ∀ t a, (f t a).castends = t.castends) : (l.foldl f s).castends = s.castends := by
  induction l generalizing s with
  | nil => rfl
  | cons a r ih => simp only [List.foldl_cons]; rw [ih, h]

@[simp] theorem foldl_book {α : Type} (f : State → α → State) (l : List α) (s : State)
    (h : ∀ t a, (f t a).book = t.book) : (l.foldl f s).book = s.book := by
  induction l generalizing s with
  | nil => rfl
  | cons a r ih => simp only [List.foldl_cons]; rw [ih, h]

@[simp] theorem foldl_panel {α : Type} (f : State → α → State) (l : List α) (s : State)
    (h : ∀ t a, (f t a).panel = t.panel) : (l.foldl f s).panel = s.panel := by
  induction l generalizing s with
  | nil => rfl
  | cons a r ih => simp only [List.foldl_cons]; rw [ih, h]

@[simp] theorem foldl_elock {α : Type} (f : State → α → State) (l : List α) (s : State)
    (h : ∀ t a, (f t a).elock = t.elock) : (l.foldl f s).elock = s.elock := by
  induction l generalizing s with
  | nil => rfl
  | cons a r ih => simp only [List.foldl_cons]; rw [ih, h]

@[simp] theorem foldl_free {α : Type} (f : State → α → State) (l : List α) (s : State)
    (h : ∀ t a, (f t a).free = t.free) : (l.foldl f s).free = s.free := by
  induction l generalizing s with
  | nil => rfl
  | cons a r ih => simp only [List.foldl_cons]; rw [ih, h]

@[simp] theorem foldl_pending {α : Type} (f : State → α → State) (l : List α) (s : State)
    (h : ∀ t a, (f t a).pending = t.pending) : (l.foldl f s).pending = s.pending := by
  induction l generalizing s with
  | nil => rfl
  | cons a r ih => simp only [List.foldl_cons]; rw [ih, h]

/-! ## State -/

/-! ## Ops -/

@[simp] theorem State.setCh_frame (s : State) (c : Fin 6) (x : Channel) :
    (s.setCh c x).tb = s.tb ∧ (s.setCh c x).loader = s.loader ∧ (s.setCh c x).cfg = s.cfg ∧
    (s.setCh c x).line = s.line ∧ (s.setCh c x).peers = s.peers ∧ (s.setCh c x).claims = s.claims ∧
    (s.setCh c x).own = s.own ∧ (s.setCh c x).turner = s.turner ∧ (s.setCh c x).replies = s.replies ∧
    (s.setCh c x).castends = s.castends ∧ (s.setCh c x).book = s.book ∧ (s.setCh c x).panel = s.panel ∧
    (s.setCh c x).elock = s.elock ∧ (s.setCh c x).free = s.free ∧ (s.setCh c x).pending = s.pending := by
  and_intros <;> unfold State.setCh <;> (try dsimp only) <;> (repeat' split) <;> simp

@[simp] theorem State.modCh_frame (s : State) (c : Fin 6) (f : Channel → Channel) :
    (s.modCh c f).tb = s.tb ∧ (s.modCh c f).loader = s.loader ∧ (s.modCh c f).cfg = s.cfg ∧
    (s.modCh c f).line = s.line ∧ (s.modCh c f).peers = s.peers ∧ (s.modCh c f).claims = s.claims ∧
    (s.modCh c f).own = s.own ∧ (s.modCh c f).turner = s.turner ∧ (s.modCh c f).replies = s.replies ∧
    (s.modCh c f).castends = s.castends ∧ (s.modCh c f).book = s.book ∧ (s.modCh c f).panel = s.panel ∧
    (s.modCh c f).elock = s.elock ∧ (s.modCh c f).free = s.free ∧ (s.modCh c f).pending = s.pending := by
  and_intros <;> unfold State.modCh <;> (try dsimp only) <;> (repeat' split) <;> simp

@[simp] theorem State.event_frame (s : State) (kind : EventKind) (channel : Option (Fin 6)) (piece : Option Word16) (value : List Nat) :
    (s.event kind channel piece value).tb = s.tb ∧ (s.event kind channel piece value).loader = s.loader ∧
    (s.event kind channel piece value).cfg = s.cfg ∧ (s.event kind channel piece value).line = s.line ∧
    (s.event kind channel piece value).peers = s.peers ∧ (s.event kind channel piece value).claims = s.claims ∧
    (s.event kind channel piece value).own = s.own ∧ (s.event kind channel piece value).chans = s.chans ∧
    (s.event kind channel piece value).turner = s.turner ∧
    (s.event kind channel piece value).replies = s.replies ∧
    (s.event kind channel piece value).castends = s.castends ∧
    (s.event kind channel piece value).book = s.book ∧ (s.event kind channel piece value).elock = s.elock ∧
    (s.event kind channel piece value).free = s.free ∧
    (s.event kind channel piece value).pending = s.pending := by
  and_intros <;> unfold State.event <;> (try dsimp only) <;> (repeat' split) <;> simp

@[simp] theorem State.chEvent_frame (s : State) (c : Fin 6) (kind : EventKind) (value : List Nat) :
    (s.chEvent c kind value).tb = s.tb ∧ (s.chEvent c kind value).loader = s.loader ∧
    (s.chEvent c kind value).cfg = s.cfg ∧ (s.chEvent c kind value).line = s.line ∧
    (s.chEvent c kind value).peers = s.peers ∧ (s.chEvent c kind value).claims = s.claims ∧
    (s.chEvent c kind value).own = s.own ∧ (s.chEvent c kind value).chans = s.chans ∧
    (s.chEvent c kind value).turner = s.turner ∧ (s.chEvent c kind value).replies = s.replies ∧
    (s.chEvent c kind value).castends = s.castends ∧ (s.chEvent c kind value).book = s.book ∧
    (s.chEvent c kind value).elock = s.elock ∧ (s.chEvent c kind value).free = s.free ∧
    (s.chEvent c kind value).pending = s.pending := by
  and_intros <;> unfold State.chEvent <;> (try dsimp only) <;> (repeat' split) <;> simp

@[simp] theorem State.faultAt_frame (s : State) (kind : FaultKind) (station channel : Option Nat) (round : Word16) :
    (s.faultAt kind station channel round).tb = s.tb ∧
    (s.faultAt kind station channel round).loader = s.loader ∧
    (s.faultAt kind station channel round).cfg = s.cfg ∧ (s.faultAt kind station channel round).line = s.line ∧
    (s.faultAt kind station channel round).peers = s.peers ∧
    (s.faultAt kind station channel round).claims = s.claims ∧
    (s.faultAt kind station channel round).own = s.own ∧
    (s.faultAt kind station channel round).chans = s.chans ∧
    (s.faultAt kind station channel round).turner = s.turner ∧
    (s.faultAt kind station channel round).replies = s.replies ∧
    (s.faultAt kind station channel round).castends = s.castends ∧
    (s.faultAt kind station channel round).book = s.book ∧
    (s.faultAt kind station channel round).elock = s.elock ∧
    (s.faultAt kind station channel round).free = s.free ∧
    (s.faultAt kind station channel round).pending = s.pending := by
  and_intros <;> unfold State.faultAt <;> (try dsimp only) <;> (repeat' split) <;> simp

@[simp] theorem State.recordFault_frame (s : State) (kind : FaultKind) (station channel : Option Nat) :
    (s.recordFault kind station channel).tb = s.tb ∧ (s.recordFault kind station channel).loader = s.loader ∧
    (s.recordFault kind station channel).cfg = s.cfg ∧ (s.recordFault kind station channel).line = s.line ∧
    (s.recordFault kind station channel).peers = s.peers ∧
    (s.recordFault kind station channel).claims = s.claims ∧ (s.recordFault kind station channel).own = s.own ∧
    (s.recordFault kind station channel).chans = s.chans ∧
    (s.recordFault kind station channel).turner = s.turner ∧
    (s.recordFault kind station channel).replies = s.replies ∧
    (s.recordFault kind station channel).castends = s.castends ∧
    (s.recordFault kind station channel).book = s.book ∧ (s.recordFault kind station channel).elock = s.elock ∧
    (s.recordFault kind station channel).free = s.free ∧
    (s.recordFault kind station channel).pending = s.pending := by
  and_intros <;> unfold State.recordFault <;> (try dsimp only) <;> (repeat' split) <;> simp

@[simp] theorem State.setLine_frame (s : State) (st : LineState) :
    (s.setLine st).tb = s.tb ∧ (s.setLine st).loader = s.loader ∧ (s.setLine st).cfg = s.cfg ∧
    (s.setLine st).peers = s.peers ∧ (s.setLine st).claims = s.claims ∧ (s.setLine st).own = s.own ∧
    (s.setLine st).chans = s.chans ∧ (s.setLine st).turner = s.turner ∧ (s.setLine st).replies = s.replies ∧
    (s.setLine st).castends = s.castends ∧ (s.setLine st).book = s.book ∧ (s.setLine st).elock = s.elock ∧
    (s.setLine st).free = s.free ∧ (s.setLine st).pending = s.pending := by
  and_intros <;> unfold State.setLine <;> (try dsimp only) <;> (repeat' split) <;> simp

@[simp] theorem State.mark_frame (s : State) (f : RoundRecord → RoundRecord) :
    (s.mark f).tb = s.tb ∧ (s.mark f).loader = s.loader ∧ (s.mark f).cfg = s.cfg ∧ (s.mark f).peers = s.peers ∧
    (s.mark f).claims = s.claims ∧ (s.mark f).own = s.own ∧ (s.mark f).chans = s.chans ∧
    (s.mark f).turner = s.turner ∧ (s.mark f).replies = s.replies ∧ (s.mark f).castends = s.castends ∧
    (s.mark f).book = s.book ∧ (s.mark f).panel = s.panel ∧ (s.mark f).elock = s.elock ∧
    (s.mark f).free = s.free ∧ (s.mark f).pending = s.pending := by
  and_intros <;> unfold State.mark <;> (try dsimp only) <;> (repeat' split) <;> simp

@[simp] theorem State.modPeer_frame (s : State) (a : Nat) (f : Peer → Peer) :
    (s.modPeer a f).tb = s.tb ∧ (s.modPeer a f).loader = s.loader ∧ (s.modPeer a f).cfg = s.cfg ∧
    (s.modPeer a f).line = s.line ∧ (s.modPeer a f).claims = s.claims ∧ (s.modPeer a f).own = s.own ∧
    (s.modPeer a f).chans = s.chans ∧ (s.modPeer a f).turner = s.turner ∧ (s.modPeer a f).replies = s.replies ∧
    (s.modPeer a f).castends = s.castends ∧ (s.modPeer a f).book = s.book ∧ (s.modPeer a f).panel = s.panel ∧
    (s.modPeer a f).elock = s.elock ∧ (s.modPeer a f).free = s.free ∧ (s.modPeer a f).pending = s.pending := by
  and_intros <;> unfold State.modPeer <;> (try dsimp only) <;> (repeat' split) <;> simp

@[simp] theorem State.followPeers_frame (s : State) :
    (s.followPeers).tb = s.tb ∧ (s.followPeers).loader = s.loader ∧ (s.followPeers).cfg = s.cfg ∧
    (s.followPeers).peers = s.peers ∧ (s.followPeers).claims = s.claims ∧ (s.followPeers).own = s.own ∧
    (s.followPeers).chans = s.chans ∧ (s.followPeers).turner = s.turner ∧ (s.followPeers).replies = s.replies ∧
    (s.followPeers).castends = s.castends ∧ (s.followPeers).book = s.book ∧ (s.followPeers).panel = s.panel ∧
    (s.followPeers).elock = s.elock ∧ (s.followPeers).free = s.free ∧ (s.followPeers).pending = s.pending := by
  and_intros <;> unfold State.followPeers <;> (try dsimp only) <;> (repeat' split) <;> simp

/-! ## Flags -/

@[simp] theorem State.clearFlags_frame (s : State) (m : Mask) :
    (s.clearFlags m).tb = s.tb ∧ (s.clearFlags m).loader = s.loader ∧ (s.clearFlags m).cfg = s.cfg ∧
    (s.clearFlags m).line = s.line ∧ (s.clearFlags m).claims = s.claims ∧ (s.clearFlags m).own = s.own ∧
    (s.clearFlags m).chans = s.chans ∧ (s.clearFlags m).turner = s.turner ∧
    (s.clearFlags m).replies = s.replies ∧ (s.clearFlags m).castends = s.castends ∧
    (s.clearFlags m).book = s.book ∧ (s.clearFlags m).elock = s.elock ∧ (s.clearFlags m).free = s.free ∧
    (s.clearFlags m).pending = s.pending := by
  and_intros <;> unfold State.clearFlags <;> (try dsimp only) <;> (repeat' split) <;> simp

/-! ## Drives -/

/-! ## OwnClaims -/

@[simp] theorem State.askAt_frame (s : State) (c : Fin 6) (slot : Nat) (a : Ask) :
    (s.askAt c slot a).tb = s.tb ∧ (s.askAt c slot a).loader = s.loader ∧ (s.askAt c slot a).cfg = s.cfg ∧
    (s.askAt c slot a).line = s.line ∧ (s.askAt c slot a).peers = s.peers ∧
    (s.askAt c slot a).claims = s.claims ∧ (s.askAt c slot a).chans = s.chans ∧
    (s.askAt c slot a).turner = s.turner ∧ (s.askAt c slot a).replies = s.replies ∧
    (s.askAt c slot a).castends = s.castends ∧ (s.askAt c slot a).book = s.book ∧
    (s.askAt c slot a).panel = s.panel ∧ (s.askAt c slot a).elock = s.elock ∧
    (s.askAt c slot a).free = s.free ∧ (s.askAt c slot a).pending = s.pending := by
  and_intros <;> unfold State.askAt <;> (try dsimp only) <;> (repeat' split) <;> simp

@[simp] theorem State.modOwn_frame (s : State) (c : Fin 6) (slot : Nat) (f : OwnClaim → OwnClaim) :
    (s.modOwn c slot f).tb = s.tb ∧ (s.modOwn c slot f).loader = s.loader ∧ (s.modOwn c slot f).cfg = s.cfg ∧
    (s.modOwn c slot f).line = s.line ∧ (s.modOwn c slot f).peers = s.peers ∧
    (s.modOwn c slot f).claims = s.claims ∧ (s.modOwn c slot f).chans = s.chans ∧
    (s.modOwn c slot f).turner = s.turner ∧ (s.modOwn c slot f).replies = s.replies ∧
    (s.modOwn c slot f).castends = s.castends ∧ (s.modOwn c slot f).book = s.book ∧
    (s.modOwn c slot f).panel = s.panel ∧ (s.modOwn c slot f).elock = s.elock ∧
    (s.modOwn c slot f).free = s.free ∧ (s.modOwn c slot f).pending = s.pending := by
  and_intros <;> unfold State.modOwn <;> (try dsimp only) <;> (repeat' split) <;> simp

@[simp] theorem State.followWaits_frame (s : State) (c : Fin 6) :
    (s.followWaits c).tb = s.tb ∧ (s.followWaits c).loader = s.loader ∧ (s.followWaits c).cfg = s.cfg ∧
    (s.followWaits c).line = s.line ∧ (s.followWaits c).peers = s.peers ∧ (s.followWaits c).claims = s.claims ∧
    (s.followWaits c).own = s.own ∧ (s.followWaits c).turner = s.turner ∧
    (s.followWaits c).replies = s.replies ∧ (s.followWaits c).castends = s.castends ∧
    (s.followWaits c).book = s.book ∧ (s.followWaits c).panel = s.panel ∧ (s.followWaits c).elock = s.elock ∧
    (s.followWaits c).free = s.free ∧ (s.followWaits c).pending = s.pending := by
  and_intros <;> unfold State.followWaits <;> (try dsimp only) <;> (repeat' split) <;> simp

@[simp] theorem State.followFan_frame (s : State) (c : Fin 6) :
    (s.followFan c).tb = s.tb ∧ (s.followFan c).loader = s.loader ∧ (s.followFan c).cfg = s.cfg ∧
    (s.followFan c).line = s.line ∧ (s.followFan c).peers = s.peers ∧ (s.followFan c).claims = s.claims ∧
    (s.followFan c).own = s.own ∧ (s.followFan c).turner = s.turner ∧ (s.followFan c).replies = s.replies ∧
    (s.followFan c).castends = s.castends ∧ (s.followFan c).book = s.book ∧ (s.followFan c).panel = s.panel ∧
    (s.followFan c).elock = s.elock ∧ (s.followFan c).free = s.free ∧ (s.followFan c).pending = s.pending := by
  and_intros <;> unfold State.followFan <;> (try dsimp only) <;> (repeat' split) <;> simp

@[simp] theorem State.followCast_frame (s : State) (c : Fin 6) :
    (s.followCast c).tb = s.tb ∧ (s.followCast c).loader = s.loader ∧ (s.followCast c).cfg = s.cfg ∧
    (s.followCast c).line = s.line ∧ (s.followCast c).peers = s.peers ∧ (s.followCast c).claims = s.claims ∧
    (s.followCast c).own = s.own ∧ (s.followCast c).turner = s.turner ∧ (s.followCast c).replies = s.replies ∧
    (s.followCast c).castends = s.castends ∧ (s.followCast c).book = s.book ∧
    (s.followCast c).panel = s.panel ∧ (s.followCast c).elock = s.elock ∧ (s.followCast c).free = s.free ∧
    (s.followCast c).pending = s.pending := by
  and_intros <;> unfold State.followCast <;> (try dsimp only) <;> (repeat' split) <;> simp

@[simp] theorem State.follow_frame (s : State) (c : Fin 6) :
    (s.follow c).tb = s.tb ∧ (s.follow c).loader = s.loader ∧ (s.follow c).cfg = s.cfg ∧
    (s.follow c).line = s.line ∧ (s.follow c).peers = s.peers ∧ (s.follow c).claims = s.claims ∧
    (s.follow c).own = s.own ∧ (s.follow c).turner = s.turner ∧ (s.follow c).replies = s.replies ∧
    (s.follow c).castends = s.castends ∧ (s.follow c).book = s.book ∧ (s.follow c).panel = s.panel ∧
    (s.follow c).elock = s.elock ∧ (s.follow c).free = s.free ∧ (s.follow c).pending = s.pending := by
  and_intros <;> unfold State.follow <;> (try dsimp only) <;> (repeat' split) <;> simp

@[simp] theorem State.ask_frame (s : State) (c : Fin 6) (a : Ask) :
    (s.ask c a).tb = s.tb ∧ (s.ask c a).loader = s.loader ∧ (s.ask c a).cfg = s.cfg ∧
    (s.ask c a).line = s.line ∧ (s.ask c a).peers = s.peers ∧ (s.ask c a).claims = s.claims ∧
    (s.ask c a).turner = s.turner ∧ (s.ask c a).replies = s.replies ∧ (s.ask c a).castends = s.castends ∧
    (s.ask c a).book = s.book ∧ (s.ask c a).panel = s.panel ∧ (s.ask c a).elock = s.elock ∧
    (s.ask c a).free = s.free ∧ (s.ask c a).pending = s.pending := by
  and_intros <;> unfold State.ask <;> (try dsimp only) <;> (repeat' split) <;> simp

@[simp] theorem State.repeatAsks_frame (s : State) (c : Fin 6) :
    (s.repeatAsks c).tb = s.tb ∧ (s.repeatAsks c).loader = s.loader ∧ (s.repeatAsks c).cfg = s.cfg ∧
    (s.repeatAsks c).line = s.line ∧ (s.repeatAsks c).peers = s.peers ∧ (s.repeatAsks c).claims = s.claims ∧
    (s.repeatAsks c).turner = s.turner ∧ (s.repeatAsks c).replies = s.replies ∧
    (s.repeatAsks c).castends = s.castends ∧ (s.repeatAsks c).book = s.book ∧
    (s.repeatAsks c).panel = s.panel ∧ (s.repeatAsks c).elock = s.elock ∧ (s.repeatAsks c).free = s.free ∧
    (s.repeatAsks c).pending = s.pending := by
  and_intros <;> unfold State.repeatAsks <;> (try dsimp only) <;> (repeat' split) <;> simp

@[simp] theorem State.dropClaim_frame (s : State) (c : Fin 6) (slot : Nat) :
    (s.dropClaim c slot).tb = s.tb ∧ (s.dropClaim c slot).loader = s.loader ∧
    (s.dropClaim c slot).cfg = s.cfg ∧ (s.dropClaim c slot).line = s.line ∧
    (s.dropClaim c slot).peers = s.peers ∧ (s.dropClaim c slot).claims = s.claims ∧
    (s.dropClaim c slot).turner = s.turner ∧ (s.dropClaim c slot).replies = s.replies ∧
    (s.dropClaim c slot).castends = s.castends ∧ (s.dropClaim c slot).book = s.book ∧
    (s.dropClaim c slot).panel = s.panel ∧ (s.dropClaim c slot).elock = s.elock ∧
    (s.dropClaim c slot).free = s.free ∧ (s.dropClaim c slot).pending = s.pending := by
  and_intros <;> unfold State.dropClaim <;> (try dsimp only) <;> (repeat' split) <;> simp

@[simp] theorem State.dropOn_frame (s : State) (c : Fin 6) (r : Resource) :
    (s.dropOn c r).tb = s.tb ∧ (s.dropOn c r).loader = s.loader ∧ (s.dropOn c r).cfg = s.cfg ∧
    (s.dropOn c r).line = s.line ∧ (s.dropOn c r).peers = s.peers ∧ (s.dropOn c r).claims = s.claims ∧
    (s.dropOn c r).turner = s.turner ∧ (s.dropOn c r).replies = s.replies ∧
    (s.dropOn c r).castends = s.castends ∧ (s.dropOn c r).book = s.book ∧ (s.dropOn c r).panel = s.panel ∧
    (s.dropOn c r).elock = s.elock ∧ (s.dropOn c r).free = s.free ∧ (s.dropOn c r).pending = s.pending := by
  and_intros <;> unfold State.dropOn <;> (try dsimp only) <;> (repeat' split) <;> simp

@[simp] theorem State.dropAll_frame (s : State) (c : Fin 6) :
    (s.dropAll c).tb = s.tb ∧ (s.dropAll c).loader = s.loader ∧ (s.dropAll c).cfg = s.cfg ∧
    (s.dropAll c).line = s.line ∧ (s.dropAll c).peers = s.peers ∧ (s.dropAll c).claims = s.claims ∧
    (s.dropAll c).turner = s.turner ∧ (s.dropAll c).replies = s.replies ∧ (s.dropAll c).castends = s.castends ∧
    (s.dropAll c).book = s.book ∧ (s.dropAll c).panel = s.panel ∧ (s.dropAll c).elock = s.elock ∧
    (s.dropAll c).free = s.free ∧ (s.dropAll c).pending = s.pending := by
  and_intros <;> unfold State.dropAll <;> (try dsimp only) <;> (repeat' split) <;> simp

@[simp] theorem State.lowerClaim_frame (s : State) (c : Fin 6) (slot amount : Nat) :
    (s.lowerClaim c slot amount).tb = s.tb ∧ (s.lowerClaim c slot amount).loader = s.loader ∧
    (s.lowerClaim c slot amount).cfg = s.cfg ∧ (s.lowerClaim c slot amount).line = s.line ∧
    (s.lowerClaim c slot amount).peers = s.peers ∧ (s.lowerClaim c slot amount).claims = s.claims ∧
    (s.lowerClaim c slot amount).turner = s.turner ∧ (s.lowerClaim c slot amount).replies = s.replies ∧
    (s.lowerClaim c slot amount).castends = s.castends ∧ (s.lowerClaim c slot amount).book = s.book ∧
    (s.lowerClaim c slot amount).panel = s.panel ∧ (s.lowerClaim c slot amount).elock = s.elock ∧
    (s.lowerClaim c slot amount).free = s.free ∧ (s.lowerClaim c slot amount).pending = s.pending := by
  and_intros <;> unfold State.lowerClaim <;> (try dsimp only) <;> (repeat' split) <;> simp

@[simp] theorem State.countShed_frame (s : State) (c : Fin 6) :
    (s.countShed c).tb = s.tb ∧ (s.countShed c).loader = s.loader ∧ (s.countShed c).cfg = s.cfg ∧
    (s.countShed c).line = s.line ∧ (s.countShed c).peers = s.peers ∧ (s.countShed c).claims = s.claims ∧
    (s.countShed c).own = s.own ∧ (s.countShed c).turner = s.turner ∧ (s.countShed c).replies = s.replies ∧
    (s.countShed c).castends = s.castends ∧ (s.countShed c).book = s.book ∧ (s.countShed c).panel = s.panel ∧
    (s.countShed c).elock = s.elock ∧ (s.countShed c).free = s.free ∧ (s.countShed c).pending = s.pending := by
  and_intros <;> unfold State.countShed <;> (try dsimp only) <;> (repeat' split) <;> simp

@[simp] theorem State.shedOne_frame (s : State) (c : Fin 6) (o : OwnClaim) :
    (s.shedOne c o).tb = s.tb ∧ (s.shedOne c o).loader = s.loader ∧ (s.shedOne c o).cfg = s.cfg ∧
    (s.shedOne c o).line = s.line ∧ (s.shedOne c o).peers = s.peers ∧ (s.shedOne c o).claims = s.claims ∧
    (s.shedOne c o).turner = s.turner ∧ (s.shedOne c o).replies = s.replies ∧
    (s.shedOne c o).castends = s.castends ∧ (s.shedOne c o).book = s.book ∧ (s.shedOne c o).elock = s.elock ∧
    (s.shedOne c o).free = s.free ∧ (s.shedOne c o).pending = s.pending := by
  and_intros <;> unfold State.shedOne <;> (try dsimp only) <;> (repeat' split) <;> simp

@[simp] theorem State.shedPoint_frame (s : State) (c : Fin 6) (rs : List Resource) :
    (s.shedPoint c rs).tb = s.tb ∧ (s.shedPoint c rs).loader = s.loader ∧ (s.shedPoint c rs).cfg = s.cfg ∧
    (s.shedPoint c rs).line = s.line ∧ (s.shedPoint c rs).peers = s.peers ∧
    (s.shedPoint c rs).claims = s.claims ∧ (s.shedPoint c rs).turner = s.turner ∧
    (s.shedPoint c rs).replies = s.replies ∧ (s.shedPoint c rs).castends = s.castends ∧
    (s.shedPoint c rs).book = s.book ∧ (s.shedPoint c rs).elock = s.elock ∧ (s.shedPoint c rs).free = s.free ∧
    (s.shedPoint c rs).pending = s.pending := by
  and_intros <;> unfold State.shedPoint <;> (try dsimp only) <;> (repeat' split) <;> simp

@[simp] theorem State.tellVoided_frame (s : State) (held : List OwnClaim) :
    (s.tellVoided held).tb = s.tb ∧ (s.tellVoided held).loader = s.loader ∧ (s.tellVoided held).cfg = s.cfg ∧
    (s.tellVoided held).line = s.line ∧ (s.tellVoided held).peers = s.peers ∧
    (s.tellVoided held).claims = s.claims ∧ (s.tellVoided held).own = s.own ∧
    (s.tellVoided held).turner = s.turner ∧ (s.tellVoided held).replies = s.replies ∧
    (s.tellVoided held).castends = s.castends ∧ (s.tellVoided held).book = s.book ∧
    (s.tellVoided held).panel = s.panel ∧ (s.tellVoided held).elock = s.elock ∧
    (s.tellVoided held).free = s.free ∧ (s.tellVoided held).pending = s.pending := by
  and_intros <;> unfold State.tellVoided <;> (try dsimp only) <;> (repeat' split) <;> simp

@[simp] theorem State.voidHoldings_frame (s : State) :
    (s.voidHoldings).tb = s.tb ∧ (s.voidHoldings).loader = s.loader ∧ (s.voidHoldings).cfg = s.cfg ∧
    (s.voidHoldings).line = s.line ∧ (s.voidHoldings).peers = s.peers ∧ (s.voidHoldings).turner = s.turner ∧
    (s.voidHoldings).replies = s.replies ∧ (s.voidHoldings).castends = s.castends ∧
    (s.voidHoldings).book = s.book ∧ (s.voidHoldings).panel = s.panel ∧ (s.voidHoldings).elock = s.elock ∧
    (s.voidHoldings).free = s.free ∧ (s.voidHoldings).pending = s.pending := by
  and_intros <;> unfold State.voidHoldings <;> (try dsimp only) <;> (repeat' split) <;> simp

/-- The Own Claim List after a voiding (R33). -/
@[simp] theorem State.voidHoldings_own (s : State) : s.voidHoldings.own = s.own.map voidClaim := by
  simp [State.voidHoldings]

/-- The own table after a voiding: of the entries of the claims that were HELD the posted flag is cleared (R33, R30). -/
theorem State.voidHoldings_claims (s : State) :
    s.voidHoldings.claims = s.claims.map fun e =>
      if s.own.any (fun o => o.state == .held && o.names s.cfg.address e) then { e with posted := false } else e := by
  simp [State.voidHoldings, List.any_filter]

@[simp] theorem State.allAsked_frame (s : State) :
    (s.allAsked).tb = s.tb ∧ (s.allAsked).loader = s.loader ∧ (s.allAsked).cfg = s.cfg ∧
    (s.allAsked).line = s.line ∧ (s.allAsked).peers = s.peers ∧ (s.allAsked).claims = s.claims ∧
    (s.allAsked).chans = s.chans ∧ (s.allAsked).turner = s.turner ∧ (s.allAsked).replies = s.replies ∧
    (s.allAsked).castends = s.castends ∧ (s.allAsked).book = s.book ∧ (s.allAsked).panel = s.panel ∧
    (s.allAsked).elock = s.elock ∧ (s.allAsked).free = s.free ∧ (s.allAsked).pending = s.pending := by
  and_intros <;> unfold State.allAsked <;> (try dsimp only) <;> (repeat' split) <;> simp

/-! ## GaugeBook -/

@[simp] theorem State.append_frame (s : State) (item : EntryItem) (span : Nat) (round : Word16) (station : Nat) :
    (s.append item span round station).tb = s.tb ∧ (s.append item span round station).loader = s.loader ∧
    (s.append item span round station).cfg = s.cfg ∧ (s.append item span round station).line = s.line ∧
    (s.append item span round station).peers = s.peers ∧ (s.append item span round station).claims = s.claims ∧
    (s.append item span round station).own = s.own ∧ (s.append item span round station).chans = s.chans ∧
    (s.append item span round station).turner = s.turner ∧
    (s.append item span round station).replies = s.replies ∧
    (s.append item span round station).castends = s.castends ∧
    (s.append item span round station).elock = s.elock ∧ (s.append item span round station).free = s.free ∧
    (s.append item span round station).pending = s.pending := by
  and_intros <;> unfold State.append <;> (try dsimp only) <;> (repeat' split) <;> simp

@[simp] theorem State.compareCount_frame (s : State) (count : Seq) (hasEntries : Bool) (sender : Nat) (round : Word16) :
    (s.compareCount count hasEntries sender round).tb = s.tb ∧
    (s.compareCount count hasEntries sender round).loader = s.loader ∧
    (s.compareCount count hasEntries sender round).cfg = s.cfg ∧
    (s.compareCount count hasEntries sender round).line = s.line ∧
    (s.compareCount count hasEntries sender round).peers = s.peers ∧
    (s.compareCount count hasEntries sender round).claims = s.claims ∧
    (s.compareCount count hasEntries sender round).own = s.own ∧
    (s.compareCount count hasEntries sender round).chans = s.chans ∧
    (s.compareCount count hasEntries sender round).turner = s.turner ∧
    (s.compareCount count hasEntries sender round).replies = s.replies ∧
    (s.compareCount count hasEntries sender round).castends = s.castends ∧
    (s.compareCount count hasEntries sender round).elock = s.elock ∧
    (s.compareCount count hasEntries sender round).free = s.free ∧
    (s.compareCount count hasEntries sender round).pending = s.pending := by
  and_intros <;> unfold State.compareCount <;> (try dsimp only) <;> (repeat' split) <;> simp

@[simp] theorem State.numberBook_frame (s : State) (count : Seq) :
    (s.numberBook count).tb = s.tb ∧ (s.numberBook count).loader = s.loader ∧
    (s.numberBook count).cfg = s.cfg ∧ (s.numberBook count).line = s.line ∧
    (s.numberBook count).peers = s.peers ∧ (s.numberBook count).claims = s.claims ∧
    (s.numberBook count).own = s.own ∧ (s.numberBook count).chans = s.chans ∧
    (s.numberBook count).turner = s.turner ∧ (s.numberBook count).replies = s.replies ∧
    (s.numberBook count).castends = s.castends ∧ (s.numberBook count).panel = s.panel ∧
    (s.numberBook count).elock = s.elock ∧ (s.numberBook count).free = s.free ∧
    (s.numberBook count).pending = s.pending := by
  and_intros <;> unfold State.numberBook <;> (try dsimp only) <;> (repeat' split) <;> simp

@[simp] theorem State.hearEntries_frame (s : State) (count : Seq) (entries : List EntryItem) (sender : Nat) (round : Word16) :
    (s.hearEntries count entries sender round).tb = s.tb ∧
    (s.hearEntries count entries sender round).loader = s.loader ∧
    (s.hearEntries count entries sender round).cfg = s.cfg ∧
    (s.hearEntries count entries sender round).line = s.line ∧
    (s.hearEntries count entries sender round).peers = s.peers ∧
    (s.hearEntries count entries sender round).claims = s.claims ∧
    (s.hearEntries count entries sender round).own = s.own ∧
    (s.hearEntries count entries sender round).chans = s.chans ∧
    (s.hearEntries count entries sender round).turner = s.turner ∧
    (s.hearEntries count entries sender round).replies = s.replies ∧
    (s.hearEntries count entries sender round).castends = s.castends ∧
    (s.hearEntries count entries sender round).elock = s.elock ∧
    (s.hearEntries count entries sender round).free = s.free ∧
    (s.hearEntries count entries sender round).pending = s.pending := by
  and_intros <;> unfold State.hearEntries <;> (try dsimp only) <;> (repeat' split) <;> simp

@[simp] theorem State.takeCaptures_frame (s : State) (items : List EntryItem) :
    (s.takeCaptures items).tb = s.tb ∧ (s.takeCaptures items).loader = s.loader ∧
    (s.takeCaptures items).cfg = s.cfg ∧ (s.takeCaptures items).line = s.line ∧
    (s.takeCaptures items).peers = s.peers ∧ (s.takeCaptures items).claims = s.claims ∧
    (s.takeCaptures items).own = s.own ∧ (s.takeCaptures items).chans = s.chans ∧
    (s.takeCaptures items).turner = s.turner ∧ (s.takeCaptures items).replies = s.replies ∧
    (s.takeCaptures items).castends = s.castends ∧ (s.takeCaptures items).panel = s.panel ∧
    (s.takeCaptures items).elock = s.elock ∧ (s.takeCaptures items).free = s.free ∧
    (s.takeCaptures items).pending = s.pending := by
  and_intros <;> unfold State.takeCaptures <;> (try dsimp only) <;> (repeat' split) <;> simp

@[simp] theorem State.offerCaptures_frame (s : State) (c : Fin 6) (items : List EntryItem) :
    (s.offerCaptures c items).tb = s.tb ∧ (s.offerCaptures c items).loader = s.loader ∧
    (s.offerCaptures c items).cfg = s.cfg ∧ (s.offerCaptures c items).line = s.line ∧
    (s.offerCaptures c items).peers = s.peers ∧ (s.offerCaptures c items).claims = s.claims ∧
    (s.offerCaptures c items).own = s.own ∧ (s.offerCaptures c items).turner = s.turner ∧
    (s.offerCaptures c items).replies = s.replies ∧ (s.offerCaptures c items).castends = s.castends ∧
    (s.offerCaptures c items).panel = s.panel ∧ (s.offerCaptures c items).elock = s.elock ∧
    (s.offerCaptures c items).free = s.free ∧ (s.offerCaptures c items).pending = s.pending := by
  and_intros <;> unfold State.offerCaptures <;> (try dsimp only) <;> (repeat' split) <;> simp

@[simp] theorem serveList_frame (l : List (Fin 6)) (s : State) :
    (serveList l s).tb = s.tb ∧ (serveList l s).loader = s.loader ∧ (serveList l s).cfg = s.cfg ∧
    (serveList l s).line = s.line ∧ (serveList l s).peers = s.peers ∧ (serveList l s).claims = s.claims ∧
    (serveList l s).own = s.own ∧ (serveList l s).turner = s.turner ∧ (serveList l s).replies = s.replies ∧
    (serveList l s).castends = s.castends ∧ (serveList l s).panel = s.panel ∧ (serveList l s).elock = s.elock ∧
    (serveList l s).free = s.free ∧ (serveList l s).pending = s.pending := by
  induction l generalizing s with
  | nil => simp [serveList]
  | cons c r ih => and_intros <;> unfold serveList <;> (repeat' split) <;> simp [ih]

@[simp] theorem State.serve_frame (s : State) :
    (s.serve).tb = s.tb ∧ (s.serve).loader = s.loader ∧ (s.serve).cfg = s.cfg ∧ (s.serve).line = s.line ∧
    (s.serve).peers = s.peers ∧ (s.serve).claims = s.claims ∧ (s.serve).own = s.own ∧
    (s.serve).turner = s.turner ∧ (s.serve).replies = s.replies ∧ (s.serve).castends = s.castends ∧
    (s.serve).panel = s.panel ∧ (s.serve).elock = s.elock ∧ (s.serve).free = s.free ∧
    (s.serve).pending = s.pending := by
  and_intros <;> unfold State.serve <;> (try dsimp only) <;> (repeat' split) <;> simp

@[simp] theorem State.dropCaptures_frame (s : State) (c : Fin 6) :
    (s.dropCaptures c).tb = s.tb ∧ (s.dropCaptures c).loader = s.loader ∧ (s.dropCaptures c).cfg = s.cfg ∧
    (s.dropCaptures c).line = s.line ∧ (s.dropCaptures c).peers = s.peers ∧
    (s.dropCaptures c).claims = s.claims ∧ (s.dropCaptures c).own = s.own ∧
    (s.dropCaptures c).turner = s.turner ∧ (s.dropCaptures c).replies = s.replies ∧
    (s.dropCaptures c).castends = s.castends ∧ (s.dropCaptures c).panel = s.panel ∧
    (s.dropCaptures c).elock = s.elock ∧ (s.dropCaptures c).free = s.free ∧
    (s.dropCaptures c).pending = s.pending := by
  and_intros <;> unfold State.dropCaptures <;> (try dsimp only) <;> (repeat' split) <;> simp

@[simp] theorem State.placeEntry_frame (s : State) (item : EntryItem) :
    (s.placeEntry item).tb = s.tb ∧ (s.placeEntry item).loader = s.loader ∧ (s.placeEntry item).cfg = s.cfg ∧
    (s.placeEntry item).line = s.line ∧ (s.placeEntry item).peers = s.peers ∧
    (s.placeEntry item).claims = s.claims ∧ (s.placeEntry item).own = s.own ∧
    (s.placeEntry item).chans = s.chans ∧ (s.placeEntry item).turner = s.turner ∧
    (s.placeEntry item).replies = s.replies ∧ (s.placeEntry item).castends = s.castends ∧
    (s.placeEntry item).panel = s.panel ∧ (s.placeEntry item).elock = s.elock ∧
    (s.placeEntry item).free = s.free ∧ (s.placeEntry item).pending = s.pending := by
  and_intros <;> unfold State.placeEntry <;> (try dsimp only) <;> (repeat' split) <;> simp

@[simp] theorem State.countCreated_frame (s : State) :
    (s.countCreated).tb = s.tb ∧ (s.countCreated).loader = s.loader ∧ (s.countCreated).cfg = s.cfg ∧
    (s.countCreated).line = s.line ∧ (s.countCreated).peers = s.peers ∧ (s.countCreated).claims = s.claims ∧
    (s.countCreated).own = s.own ∧ (s.countCreated).chans = s.chans ∧ (s.countCreated).turner = s.turner ∧
    (s.countCreated).replies = s.replies ∧ (s.countCreated).castends = s.castends ∧
    (s.countCreated).panel = s.panel ∧ (s.countCreated).elock = s.elock ∧ (s.countCreated).free = s.free ∧
    (s.countCreated).pending = s.pending := by
  and_intros <;> unfold State.countCreated <;> (try dsimp only) <;> (repeat' split) <;> simp

@[simp] theorem State.countReceived_frame (s : State) :
    (s.countReceived).tb = s.tb ∧ (s.countReceived).loader = s.loader ∧ (s.countReceived).cfg = s.cfg ∧
    (s.countReceived).line = s.line ∧ (s.countReceived).peers = s.peers ∧ (s.countReceived).claims = s.claims ∧
    (s.countReceived).own = s.own ∧ (s.countReceived).chans = s.chans ∧ (s.countReceived).turner = s.turner ∧
    (s.countReceived).replies = s.replies ∧ (s.countReceived).castends = s.castends ∧
    (s.countReceived).panel = s.panel ∧ (s.countReceived).elock = s.elock ∧ (s.countReceived).free = s.free ∧
    (s.countReceived).pending = s.pending := by
  and_intros <;> unfold State.countReceived <;> (try dsimp only) <;> (repeat' split) <;> simp

@[simp] theorem State.countHanded_frame (s : State) :
    (s.countHanded).tb = s.tb ∧ (s.countHanded).loader = s.loader ∧ (s.countHanded).cfg = s.cfg ∧
    (s.countHanded).line = s.line ∧ (s.countHanded).peers = s.peers ∧ (s.countHanded).claims = s.claims ∧
    (s.countHanded).own = s.own ∧ (s.countHanded).chans = s.chans ∧ (s.countHanded).turner = s.turner ∧
    (s.countHanded).replies = s.replies ∧ (s.countHanded).castends = s.castends ∧
    (s.countHanded).panel = s.panel ∧ (s.countHanded).elock = s.elock ∧ (s.countHanded).free = s.free ∧
    (s.countHanded).pending = s.pending := by
  and_intros <;> unfold State.countHanded <;> (try dsimp only) <;> (repeat' split) <;> simp

@[simp] theorem State.countFinished_frame (s : State) :
    (s.countFinished).tb = s.tb ∧ (s.countFinished).loader = s.loader ∧ (s.countFinished).cfg = s.cfg ∧
    (s.countFinished).line = s.line ∧ (s.countFinished).peers = s.peers ∧ (s.countFinished).claims = s.claims ∧
    (s.countFinished).own = s.own ∧ (s.countFinished).chans = s.chans ∧ (s.countFinished).turner = s.turner ∧
    (s.countFinished).replies = s.replies ∧ (s.countFinished).castends = s.castends ∧
    (s.countFinished).panel = s.panel ∧ (s.countFinished).elock = s.elock ∧ (s.countFinished).free = s.free ∧
    (s.countFinished).pending = s.pending := by
  and_intros <;> unfold State.countFinished <;> (try dsimp only) <;> (repeat' split) <;> simp

@[simp] theorem State.countDiscarded_frame (s : State) :
    (s.countDiscarded).tb = s.tb ∧ (s.countDiscarded).loader = s.loader ∧ (s.countDiscarded).cfg = s.cfg ∧
    (s.countDiscarded).line = s.line ∧ (s.countDiscarded).peers = s.peers ∧
    (s.countDiscarded).claims = s.claims ∧ (s.countDiscarded).own = s.own ∧
    (s.countDiscarded).chans = s.chans ∧ (s.countDiscarded).turner = s.turner ∧
    (s.countDiscarded).replies = s.replies ∧ (s.countDiscarded).castends = s.castends ∧
    (s.countDiscarded).panel = s.panel ∧ (s.countDiscarded).elock = s.elock ∧
    (s.countDiscarded).free = s.free ∧ (s.countDiscarded).pending = s.pending := by
  and_intros <;> unfold State.countDiscarded <;> (try dsimp only) <;> (repeat' split) <;> simp

/-! ## TransferUnit -/

@[simp] theorem State.reply_frame (s : State) (r : ReplyItem) :
    (s.reply r).tb = s.tb ∧ (s.reply r).loader = s.loader ∧ (s.reply r).cfg = s.cfg ∧
    (s.reply r).line = s.line ∧ (s.reply r).peers = s.peers ∧ (s.reply r).claims = s.claims ∧
    (s.reply r).own = s.own ∧ (s.reply r).chans = s.chans ∧ (s.reply r).turner = s.turner ∧
    (s.reply r).castends = s.castends ∧ (s.reply r).book = s.book ∧ (s.reply r).panel = s.panel ∧
    (s.reply r).elock = s.elock ∧ (s.reply r).free = s.free ∧ (s.reply r).pending = s.pending := by
  and_intros <;> unfold State.reply <;> (try dsimp only) <;> (repeat' split) <;> simp

@[simp] theorem State.castend_frame (s : State) (c : CastendItem) :
    (s.castend c).tb = s.tb ∧ (s.castend c).loader = s.loader ∧ (s.castend c).cfg = s.cfg ∧
    (s.castend c).line = s.line ∧ (s.castend c).peers = s.peers ∧ (s.castend c).claims = s.claims ∧
    (s.castend c).own = s.own ∧ (s.castend c).chans = s.chans ∧ (s.castend c).turner = s.turner ∧
    (s.castend c).replies = s.replies ∧ (s.castend c).book = s.book ∧ (s.castend c).panel = s.panel ∧
    (s.castend c).elock = s.elock ∧ (s.castend c).free = s.free ∧ (s.castend c).pending = s.pending := by
  and_intros <;> unfold State.castend <;> (try dsimp only) <;> (repeat' split) <;> simp

@[simp] theorem State.modXfer_frame (s : State) (c : Fin 6) (f : Xfer → Xfer) :
    (s.modXfer c f).tb = s.tb ∧ (s.modXfer c f).loader = s.loader ∧ (s.modXfer c f).cfg = s.cfg ∧
    (s.modXfer c f).line = s.line ∧ (s.modXfer c f).peers = s.peers ∧ (s.modXfer c f).claims = s.claims ∧
    (s.modXfer c f).own = s.own ∧ (s.modXfer c f).turner = s.turner ∧ (s.modXfer c f).replies = s.replies ∧
    (s.modXfer c f).castends = s.castends ∧ (s.modXfer c f).book = s.book ∧ (s.modXfer c f).panel = s.panel ∧
    (s.modXfer c f).elock = s.elock ∧ (s.modXfer c f).free = s.free ∧ (s.modXfer c f).pending = s.pending := by
  and_intros <;> unfold State.modXfer <;> (try dsimp only) <;> (repeat' split) <;> simp

@[simp] theorem State.endXfer_frame (s : State) (c : Fin 6) :
    (s.endXfer c).tb = s.tb ∧ (s.endXfer c).loader = s.loader ∧ (s.endXfer c).cfg = s.cfg ∧
    (s.endXfer c).line = s.line ∧ (s.endXfer c).peers = s.peers ∧ (s.endXfer c).claims = s.claims ∧
    (s.endXfer c).own = s.own ∧ (s.endXfer c).turner = s.turner ∧ (s.endXfer c).replies = s.replies ∧
    (s.endXfer c).castends = s.castends ∧ (s.endXfer c).book = s.book ∧ (s.endXfer c).panel = s.panel ∧
    (s.endXfer c).elock = s.elock ∧ (s.endXfer c).free = s.free ∧ (s.endXfer c).pending = s.pending := by
  and_intros <;> unfold State.endXfer <;> (try dsimp only) <;> (repeat' split) <;> simp

@[simp] theorem State.offerWait_frame (s : State) (c : Fin 6) (b : Bool) :
    (s.offerWait c b).tb = s.tb ∧ (s.offerWait c b).loader = s.loader ∧ (s.offerWait c b).cfg = s.cfg ∧
    (s.offerWait c b).line = s.line ∧ (s.offerWait c b).peers = s.peers ∧ (s.offerWait c b).claims = s.claims ∧
    (s.offerWait c b).own = s.own ∧ (s.offerWait c b).turner = s.turner ∧
    (s.offerWait c b).replies = s.replies ∧ (s.offerWait c b).castends = s.castends ∧
    (s.offerWait c b).book = s.book ∧ (s.offerWait c b).panel = s.panel ∧ (s.offerWait c b).elock = s.elock ∧
    (s.offerWait c b).free = s.free ∧ (s.offerWait c b).pending = s.pending := by
  and_intros <;> unfold State.offerWait <;> (try dsimp only) <;> (repeat' split) <;> simp

@[simp] theorem State.cancelPartner_frame (s : State) (c : Fin 6) :
    (s.cancelPartner c).tb = s.tb ∧ (s.cancelPartner c).loader = s.loader ∧ (s.cancelPartner c).cfg = s.cfg ∧
    (s.cancelPartner c).line = s.line ∧ (s.cancelPartner c).peers = s.peers ∧
    (s.cancelPartner c).claims = s.claims ∧ (s.cancelPartner c).own = s.own ∧
    (s.cancelPartner c).chans = s.chans ∧ (s.cancelPartner c).turner = s.turner ∧
    (s.cancelPartner c).replies = s.replies ∧ (s.cancelPartner c).book = s.book ∧
    (s.cancelPartner c).panel = s.panel ∧ (s.cancelPartner c).elock = s.elock ∧
    (s.cancelPartner c).free = s.free ∧ (s.cancelPartner c).pending = s.pending := by
  and_intros <;> unfold State.cancelPartner <;> (try dsimp only) <;> (repeat' split) <;> simp

@[simp] theorem State.endOffer_frame (s : State) (c : Fin 6) :
    (s.endOffer c).tb = s.tb ∧ (s.endOffer c).loader = s.loader ∧ (s.endOffer c).cfg = s.cfg ∧
    (s.endOffer c).line = s.line ∧ (s.endOffer c).peers = s.peers ∧ (s.endOffer c).claims = s.claims ∧
    (s.endOffer c).own = s.own ∧ (s.endOffer c).turner = s.turner ∧ (s.endOffer c).replies = s.replies ∧
    (s.endOffer c).book = s.book ∧ (s.endOffer c).panel = s.panel ∧ (s.endOffer c).elock = s.elock ∧
    (s.endOffer c).free = s.free ∧ (s.endOffer c).pending = s.pending := by
  and_intros <;> unfold State.endOffer <;> (try dsimp only) <;> (repeat' split) <;> simp

@[simp] theorem State.startOffer_frame (s : State) (c : Fin 6) (r : PhaseRecord) :
    (s.startOffer c r).tb = s.tb ∧ (s.startOffer c r).loader = s.loader ∧ (s.startOffer c r).cfg = s.cfg ∧
    (s.startOffer c r).line = s.line ∧ (s.startOffer c r).peers = s.peers ∧
    (s.startOffer c r).claims = s.claims ∧ (s.startOffer c r).own = s.own ∧
    (s.startOffer c r).turner = s.turner ∧ (s.startOffer c r).replies = s.replies ∧
    (s.startOffer c r).castends = s.castends ∧ (s.startOffer c r).book = s.book ∧
    (s.startOffer c r).panel = s.panel ∧ (s.startOffer c r).elock = s.elock ∧
    (s.startOffer c r).free = s.free ∧ (s.startOffer c r).pending = s.pending := by
  and_intros <;> unfold State.startOffer <;> (try dsimp only) <;> (repeat' split) <;> simp

@[simp] theorem State.xferHalted_frame (s : State) (c : Fin 6) :
    (s.xferHalted c).tb = s.tb ∧ (s.xferHalted c).loader = s.loader ∧ (s.xferHalted c).cfg = s.cfg ∧
    (s.xferHalted c).line = s.line ∧ (s.xferHalted c).peers = s.peers ∧ (s.xferHalted c).claims = s.claims ∧
    (s.xferHalted c).own = s.own ∧ (s.xferHalted c).turner = s.turner ∧ (s.xferHalted c).replies = s.replies ∧
    (s.xferHalted c).book = s.book ∧ (s.xferHalted c).panel = s.panel ∧ (s.xferHalted c).elock = s.elock ∧
    (s.xferHalted c).free = s.free ∧ (s.xferHalted c).pending = s.pending := by
  and_intros <;> unfold State.xferHalted <;> (try dsimp only) <;> (repeat' split) <;> simp

@[simp] theorem State.completeCast_frame (s : State) (c : Fin 6) :
    (s.completeCast c).tb = s.tb ∧ (s.completeCast c).loader = s.loader ∧ (s.completeCast c).cfg = s.cfg ∧
    (s.completeCast c).line = s.line ∧ (s.completeCast c).peers = s.peers ∧
    (s.completeCast c).claims = s.claims ∧ (s.completeCast c).own = s.own ∧
    (s.completeCast c).turner = s.turner ∧ (s.completeCast c).replies = s.replies ∧
    (s.completeCast c).book = s.book ∧ (s.completeCast c).panel = s.panel ∧
    (s.completeCast c).elock = s.elock ∧ (s.completeCast c).free = s.free ∧
    (s.completeCast c).pending = s.pending := by
  and_intros <;> unfold State.completeCast <;> (try dsimp only) <;> (repeat' split) <;> simp

/-! ## Phases -/

@[simp] theorem State.halt_frame (s : State) (c : Fin 6) (r : HaltReason) :
    (s.halt c r).tb = s.tb ∧ (s.halt c r).loader = s.loader ∧ (s.halt c r).cfg = s.cfg ∧
    (s.halt c r).line = s.line ∧ (s.halt c r).peers = s.peers ∧ (s.halt c r).claims = s.claims ∧
    (s.halt c r).turner = s.turner ∧ (s.halt c r).replies = s.replies ∧ (s.halt c r).elock = s.elock ∧
    (s.halt c r).free = s.free ∧ (s.halt c r).pending = s.pending := by
  and_intros <;> unfold State.halt <;> (try dsimp only) <;> (repeat' split) <;> simp

@[simp] theorem State.pause_frame (s : State) (c : Fin 6) (reason : PauseReason) (resume : Option Resume) :
    (s.pause c reason resume).tb = s.tb ∧ (s.pause c reason resume).loader = s.loader ∧
    (s.pause c reason resume).cfg = s.cfg ∧ (s.pause c reason resume).line = s.line ∧
    (s.pause c reason resume).peers = s.peers ∧ (s.pause c reason resume).claims = s.claims ∧
    (s.pause c reason resume).own = s.own ∧ (s.pause c reason resume).turner = s.turner ∧
    (s.pause c reason resume).replies = s.replies ∧ (s.pause c reason resume).castends = s.castends ∧
    (s.pause c reason resume).book = s.book ∧ (s.pause c reason resume).elock = s.elock ∧
    (s.pause c reason resume).free = s.free ∧ (s.pause c reason resume).pending = s.pending := by
  and_intros <;> unfold State.pause <;> (try dsimp only) <;> (repeat' split) <;> simp

@[simp] theorem State.starve_frame (s : State) (c : Fin 6) :
    (s.starve c).tb = s.tb ∧ (s.starve c).loader = s.loader ∧ (s.starve c).cfg = s.cfg ∧
    (s.starve c).line = s.line ∧ (s.starve c).peers = s.peers ∧ (s.starve c).claims = s.claims ∧
    (s.starve c).own = s.own ∧ (s.starve c).turner = s.turner ∧ (s.starve c).replies = s.replies ∧
    (s.starve c).castends = s.castends ∧ (s.starve c).book = s.book ∧ (s.starve c).elock = s.elock ∧
    (s.starve c).free = s.free ∧ (s.starve c).pending = s.pending := by
  and_intros <;> unfold State.starve <;> (try dsimp only) <;> (repeat' split) <;> simp

@[simp] theorem State.lowerBy_frame (s : State) (c : Fin 6) (e : Nat) (l : List OwnClaim) :
    (s.lowerBy c e l).tb = s.tb ∧ (s.lowerBy c e l).loader = s.loader ∧ (s.lowerBy c e l).cfg = s.cfg ∧
    (s.lowerBy c e l).line = s.line ∧ (s.lowerBy c e l).peers = s.peers ∧ (s.lowerBy c e l).claims = s.claims ∧
    (s.lowerBy c e l).turner = s.turner ∧ (s.lowerBy c e l).replies = s.replies ∧
    (s.lowerBy c e l).castends = s.castends ∧ (s.lowerBy c e l).book = s.book ∧
    (s.lowerBy c e l).panel = s.panel ∧ (s.lowerBy c e l).elock = s.elock ∧ (s.lowerBy c e l).free = s.free ∧
    (s.lowerBy c e l).pending = s.pending := by
  induction l generalizing s e with
  | nil => simp [State.lowerBy]
  | cons o r ih => and_intros <;> unfold State.lowerBy <;> (repeat' split) <;> simp [ih]

@[simp] theorem State.retag_frame (s : State) (c : Fin 6) (res : Resource) (r : PhaseRecord) :
    (s.retag c res r).tb = s.tb ∧ (s.retag c res r).loader = s.loader ∧ (s.retag c res r).cfg = s.cfg ∧
    (s.retag c res r).line = s.line ∧ (s.retag c res r).peers = s.peers ∧ (s.retag c res r).claims = s.claims ∧
    (s.retag c res r).chans = s.chans ∧ (s.retag c res r).turner = s.turner ∧
    (s.retag c res r).replies = s.replies ∧ (s.retag c res r).castends = s.castends ∧
    (s.retag c res r).book = s.book ∧ (s.retag c res r).panel = s.panel ∧ (s.retag c res r).elock = s.elock ∧
    (s.retag c res r).free = s.free ∧ (s.retag c res r).pending = s.pending := by
  and_intros <;> unfold State.retag <;> (try dsimp only) <;> (repeat' split) <;> simp

@[simp] theorem State.carry_frame (s : State) (c : Fin 6) (r : PhaseRecord) (res : Resource) :
    (s.carry c r res).tb = s.tb ∧ (s.carry c r res).loader = s.loader ∧ (s.carry c r res).cfg = s.cfg ∧
    (s.carry c r res).line = s.line ∧ (s.carry c r res).peers = s.peers ∧ (s.carry c r res).claims = s.claims ∧
    (s.carry c r res).turner = s.turner ∧ (s.carry c r res).replies = s.replies ∧
    (s.carry c r res).castends = s.castends ∧ (s.carry c r res).book = s.book ∧
    (s.carry c r res).panel = s.panel ∧ (s.carry c r res).elock = s.elock ∧ (s.carry c r res).free = s.free ∧
    (s.carry c r res).pending = s.pending := by
  and_intros <;> unfold State.carry <;> (try dsimp only) <;> (repeat' split) <;> simp

@[simp] theorem State.carryClaims_frame (s : State) (c : Fin 6) (r : PhaseRecord) :
    (s.carryClaims c r).tb = s.tb ∧ (s.carryClaims c r).loader = s.loader ∧ (s.carryClaims c r).cfg = s.cfg ∧
    (s.carryClaims c r).line = s.line ∧ (s.carryClaims c r).peers = s.peers ∧
    (s.carryClaims c r).claims = s.claims ∧ (s.carryClaims c r).turner = s.turner ∧
    (s.carryClaims c r).replies = s.replies ∧ (s.carryClaims c r).castends = s.castends ∧
    (s.carryClaims c r).book = s.book ∧ (s.carryClaims c r).panel = s.panel ∧
    (s.carryClaims c r).elock = s.elock ∧ (s.carryClaims c r).free = s.free ∧
    (s.carryClaims c r).pending = s.pending := by
  and_intros <;> unfold State.carryClaims <;> (try dsimp only) <;> (repeat' split) <;> simp

@[simp] theorem State.createPiece_frame (s : State) (c : Fin 6) (lot : Nat) :
    (s.createPiece c lot).tb = s.tb ∧ (s.createPiece c lot).loader = s.loader ∧
    (s.createPiece c lot).cfg = s.cfg ∧ (s.createPiece c lot).line = s.line ∧
    (s.createPiece c lot).peers = s.peers ∧ (s.createPiece c lot).claims = s.claims ∧
    (s.createPiece c lot).own = s.own ∧ (s.createPiece c lot).turner = s.turner ∧
    (s.createPiece c lot).replies = s.replies ∧ (s.createPiece c lot).castends = s.castends ∧
    (s.createPiece c lot).elock = s.elock ∧ (s.createPiece c lot).free = s.free ∧
    (s.createPiece c lot).pending = s.pending := by
  and_intros <;> unfold State.createPiece <;> (try dsimp only) <;> (repeat' split) <;> simp

@[simp] theorem State.startWaits_frame (s : State) (c : Fin 6) :
    (s.startWaits c).tb = s.tb ∧ (s.startWaits c).loader = s.loader ∧ (s.startWaits c).cfg = s.cfg ∧
    (s.startWaits c).line = s.line ∧ (s.startWaits c).peers = s.peers ∧ (s.startWaits c).claims = s.claims ∧
    (s.startWaits c).own = s.own ∧ (s.startWaits c).turner = s.turner ∧ (s.startWaits c).replies = s.replies ∧
    (s.startWaits c).castends = s.castends ∧ (s.startWaits c).book = s.book ∧
    (s.startWaits c).panel = s.panel ∧ (s.startWaits c).elock = s.elock ∧ (s.startWaits c).free = s.free ∧
    (s.startWaits c).pending = s.pending := by
  and_intros <;> unfold State.startWaits <;> (try dsimp only) <;> (repeat' split) <;> simp

@[simp] theorem State.startAsks_frame (s : State) (c : Fin 6) (r : PhaseRecord) :
    (s.startAsks c r).tb = s.tb ∧ (s.startAsks c r).loader = s.loader ∧ (s.startAsks c r).cfg = s.cfg ∧
    (s.startAsks c r).line = s.line ∧ (s.startAsks c r).peers = s.peers ∧ (s.startAsks c r).claims = s.claims ∧
    (s.startAsks c r).turner = s.turner ∧ (s.startAsks c r).replies = s.replies ∧
    (s.startAsks c r).castends = s.castends ∧ (s.startAsks c r).book = s.book ∧
    (s.startAsks c r).panel = s.panel ∧ (s.startAsks c r).elock = s.elock ∧ (s.startAsks c r).free = s.free ∧
    (s.startAsks c r).pending = s.pending := by
  and_intros <;> unfold State.startAsks <;> (try dsimp only) <;> (repeat' split) <;> simp

@[simp] theorem State.begin_frame (s : State) (c : Fin 6) (afterFinal orphan : Bool) :
    (s.begin c afterFinal orphan).tb = s.tb ∧ (s.begin c afterFinal orphan).loader = s.loader ∧
    (s.begin c afterFinal orphan).cfg = s.cfg ∧ (s.begin c afterFinal orphan).line = s.line ∧
    (s.begin c afterFinal orphan).peers = s.peers ∧ (s.begin c afterFinal orphan).claims = s.claims ∧
    (s.begin c afterFinal orphan).turner = s.turner ∧ (s.begin c afterFinal orphan).replies = s.replies ∧
    (s.begin c afterFinal orphan).elock = s.elock ∧ (s.begin c afterFinal orphan).free = s.free ∧
    (s.begin c afterFinal orphan).pending = s.pending := by
  and_intros <;> unfold State.begin <;> (try dsimp only) <;> (repeat' split) <;> simp

@[simp] theorem State.endPiece_frame (s : State) (c : Fin 6) :
    (s.endPiece c).tb = s.tb ∧ (s.endPiece c).loader = s.loader ∧ (s.endPiece c).cfg = s.cfg ∧
    (s.endPiece c).line = s.line ∧ (s.endPiece c).peers = s.peers ∧ (s.endPiece c).claims = s.claims ∧
    (s.endPiece c).own = s.own ∧ (s.endPiece c).turner = s.turner ∧ (s.endPiece c).replies = s.replies ∧
    (s.endPiece c).castends = s.castends ∧ (s.endPiece c).elock = s.elock ∧ (s.endPiece c).free = s.free ∧
    (s.endPiece c).pending = s.pending := by
  and_intros <;> unfold State.endPiece <;> (try dsimp only) <;> (repeat' split) <;> simp

@[simp] theorem State.afterFinal_frame (s : State) (c : Fin 6) (k : PhaseKind) :
    (s.afterFinal c k).tb = s.tb ∧ (s.afterFinal c k).loader = s.loader ∧ (s.afterFinal c k).cfg = s.cfg ∧
    (s.afterFinal c k).line = s.line ∧ (s.afterFinal c k).peers = s.peers ∧
    (s.afterFinal c k).claims = s.claims ∧ (s.afterFinal c k).turner = s.turner ∧
    (s.afterFinal c k).replies = s.replies ∧ (s.afterFinal c k).elock = s.elock ∧
    (s.afterFinal c k).free = s.free ∧ (s.afterFinal c k).pending = s.pending := by
  and_intros <;> unfold State.afterFinal <;> (try dsimp only) <;> (repeat' split) <;> simp

@[simp] theorem State.complete_frame (s : State) (c : Fin 6) (reason : EndReason) :
    (s.complete c reason).tb = s.tb ∧ (s.complete c reason).loader = s.loader ∧
    (s.complete c reason).cfg = s.cfg ∧ (s.complete c reason).line = s.line ∧
    (s.complete c reason).peers = s.peers ∧ (s.complete c reason).claims = s.claims ∧
    (s.complete c reason).turner = s.turner ∧ (s.complete c reason).replies = s.replies ∧
    (s.complete c reason).elock = s.elock ∧ (s.complete c reason).free = s.free ∧
    (s.complete c reason).pending = s.pending := by
  and_intros <;> unfold State.complete <;> (try dsimp only) <;> (repeat' split) <;> simp

@[simp] theorem State.finish_frame (s : State) (c : Fin 6) (reason : EndReason) :
    (s.finish c reason).tb = s.tb ∧ (s.finish c reason).loader = s.loader ∧ (s.finish c reason).cfg = s.cfg ∧
    (s.finish c reason).line = s.line ∧ (s.finish c reason).peers = s.peers ∧
    (s.finish c reason).claims = s.claims ∧ (s.finish c reason).turner = s.turner ∧
    (s.finish c reason).replies = s.replies ∧ (s.finish c reason).elock = s.elock ∧
    (s.finish c reason).free = s.free ∧ (s.finish c reason).pending = s.pending := by
  and_intros <;> unfold State.finish <;> (try dsimp only) <;> (repeat' split) <;> simp

@[simp] theorem State.startPhase_frame (s : State) (c : Fin 6) (orphan : Bool) :
    (s.startPhase c orphan).tb = s.tb ∧ (s.startPhase c orphan).loader = s.loader ∧
    (s.startPhase c orphan).cfg = s.cfg ∧ (s.startPhase c orphan).line = s.line ∧
    (s.startPhase c orphan).peers = s.peers ∧ (s.startPhase c orphan).claims = s.claims ∧
    (s.startPhase c orphan).turner = s.turner ∧ (s.startPhase c orphan).replies = s.replies ∧
    (s.startPhase c orphan).elock = s.elock ∧ (s.startPhase c orphan).free = s.free ∧
    (s.startPhase c orphan).pending = s.pending := by
  and_intros <;> unfold State.startPhase <;> (try dsimp only) <;> (repeat' split) <;> simp

/-! ## TurnerControl -/

@[simp] theorem State.modTurner_frame (s : State) (f : Turner → Turner) :
    (s.modTurner f).tb = s.tb ∧ (s.modTurner f).loader = s.loader ∧ (s.modTurner f).cfg = s.cfg ∧
    (s.modTurner f).line = s.line ∧ (s.modTurner f).peers = s.peers ∧ (s.modTurner f).claims = s.claims ∧
    (s.modTurner f).own = s.own ∧ (s.modTurner f).chans = s.chans ∧ (s.modTurner f).replies = s.replies ∧
    (s.modTurner f).castends = s.castends ∧ (s.modTurner f).book = s.book ∧ (s.modTurner f).panel = s.panel ∧
    (s.modTurner f).elock = s.elock ∧ (s.modTurner f).free = s.free ∧ (s.modTurner f).pending = s.pending := by
  and_intros <;> unfold State.modTurner <;> (try dsimp only) <;> (repeat' split) <;> simp

@[simp] theorem State.turnDone_frame (s : State) (o : TurnOutcome) :
    (s.turnDone o).tb = s.tb ∧ (s.turnDone o).loader = s.loader ∧ (s.turnDone o).cfg = s.cfg ∧
    (s.turnDone o).line = s.line ∧ (s.turnDone o).peers = s.peers ∧ (s.turnDone o).claims = s.claims ∧
    (s.turnDone o).own = s.own ∧ (s.turnDone o).chans = s.chans ∧ (s.turnDone o).turner = s.turner ∧
    (s.turnDone o).replies = s.replies ∧ (s.turnDone o).castends = s.castends ∧ (s.turnDone o).book = s.book ∧
    (s.turnDone o).elock = s.elock ∧ (s.turnDone o).free = s.free ∧ (s.turnDone o).pending = s.pending := by
  and_intros <;> unfold State.turnDone <;> (try dsimp only) <;> (repeat' split) <;> simp

@[simp] theorem State.turnend_frame (s : State) (box : Pair) (o : TurnOutcome) (round : Word16) :
    (s.turnend box o round).tb = s.tb ∧ (s.turnend box o round).loader = s.loader ∧
    (s.turnend box o round).cfg = s.cfg ∧ (s.turnend box o round).line = s.line ∧
    (s.turnend box o round).peers = s.peers ∧ (s.turnend box o round).claims = s.claims ∧
    (s.turnend box o round).own = s.own ∧ (s.turnend box o round).chans = s.chans ∧
    (s.turnend box o round).replies = s.replies ∧ (s.turnend box o round).castends = s.castends ∧
    (s.turnend box o round).book = s.book ∧ (s.turnend box o round).panel = s.panel ∧
    (s.turnend box o round).elock = s.elock ∧ (s.turnend box o round).free = s.free ∧
    (s.turnend box o round).pending = s.pending := by
  and_intros <;> unfold State.turnend <;> (try dsimp only) <;> (repeat' split) <;> simp

@[simp] theorem State.orderEnd_frame (s : State) (o : Order) (out : TurnOutcome) :
    (s.orderEnd o out).tb = s.tb ∧ (s.orderEnd o out).loader = s.loader ∧ (s.orderEnd o out).cfg = s.cfg ∧
    (s.orderEnd o out).line = s.line ∧ (s.orderEnd o out).peers = s.peers ∧
    (s.orderEnd o out).claims = s.claims ∧ (s.orderEnd o out).own = s.own ∧
    (s.orderEnd o out).chans = s.chans ∧ (s.orderEnd o out).replies = s.replies ∧
    (s.orderEnd o out).castends = s.castends ∧ (s.orderEnd o out).book = s.book ∧
    (s.orderEnd o out).panel = s.panel ∧ (s.orderEnd o out).elock = s.elock ∧
    (s.orderEnd o out).free = s.free ∧ (s.orderEnd o out).pending = s.pending := by
  and_intros <;> unfold State.orderEnd <;> (try dsimp only) <;> (repeat' split) <;> simp

@[simp] theorem State.dropTurner_frame (s : State) :
    (s.dropTurner).tb = s.tb ∧ (s.dropTurner).loader = s.loader ∧ (s.dropTurner).cfg = s.cfg ∧
    (s.dropTurner).line = s.line ∧ (s.dropTurner).peers = s.peers ∧ (s.dropTurner).claims = s.claims ∧
    (s.dropTurner).turner = s.turner ∧ (s.dropTurner).replies = s.replies ∧
    (s.dropTurner).castends = s.castends ∧ (s.dropTurner).book = s.book ∧ (s.dropTurner).panel = s.panel ∧
    (s.dropTurner).elock = s.elock ∧ (s.dropTurner).free = s.free ∧ (s.dropTurner).pending = s.pending := by
  and_intros <;> unfold State.dropTurner <;> (try dsimp only) <;> (repeat' split) <;> simp

@[simp] theorem State.turnerHolds_frame (s : State) (e : ClaimEntry) :
    (s.turnerHolds e).tb = s.tb ∧ (s.turnerHolds e).loader = s.loader ∧ (s.turnerHolds e).cfg = s.cfg ∧
    (s.turnerHolds e).line = s.line ∧ (s.turnerHolds e).peers = s.peers ∧ (s.turnerHolds e).claims = s.claims ∧
    (s.turnerHolds e).replies = s.replies ∧ (s.turnerHolds e).castends = s.castends ∧
    (s.turnerHolds e).book = s.book ∧ (s.turnerHolds e).elock = s.elock ∧ (s.turnerHolds e).free = s.free ∧
    (s.turnerHolds e).pending = s.pending := by
  and_intros <;> unfold State.turnerHolds <;> (try dsimp only) <;> (repeat' split) <;> simp

@[simp] theorem State.turnerGranted_frame (s : State) :
    (s.turnerGranted).tb = s.tb ∧ (s.turnerGranted).loader = s.loader ∧ (s.turnerGranted).cfg = s.cfg ∧
    (s.turnerGranted).line = s.line ∧ (s.turnerGranted).peers = s.peers ∧ (s.turnerGranted).claims = s.claims ∧
    (s.turnerGranted).own = s.own ∧ (s.turnerGranted).chans = s.chans ∧ (s.turnerGranted).replies = s.replies ∧
    (s.turnerGranted).castends = s.castends ∧ (s.turnerGranted).book = s.book ∧
    (s.turnerGranted).panel = s.panel ∧ (s.turnerGranted).elock = s.elock ∧ (s.turnerGranted).free = s.free ∧
    (s.turnerGranted).pending = s.pending := by
  and_intros <;> unfold State.turnerGranted <;> (try dsimp only) <;> (repeat' split) <;> simp

@[simp] theorem State.abandon_frame (s : State) (o : Order) :
    (s.abandon o).tb = s.tb ∧ (s.abandon o).loader = s.loader ∧ (s.abandon o).cfg = s.cfg ∧
    (s.abandon o).line = s.line ∧ (s.abandon o).peers = s.peers ∧ (s.abandon o).claims = s.claims ∧
    (s.abandon o).replies = s.replies ∧ (s.abandon o).castends = s.castends ∧ (s.abandon o).book = s.book ∧
    (s.abandon o).elock = s.elock ∧ (s.abandon o).free = s.free ∧ (s.abandon o).pending = s.pending := by
  and_intros <;> unfold State.abandon <;> (try dsimp only) <;> (repeat' split) <;> simp

@[simp] theorem State.turnerStops_frame (s : State) (station channel : Nat) :
    (s.turnerStops station channel).tb = s.tb ∧ (s.turnerStops station channel).loader = s.loader ∧
    (s.turnerStops station channel).cfg = s.cfg ∧ (s.turnerStops station channel).line = s.line ∧
    (s.turnerStops station channel).peers = s.peers ∧ (s.turnerStops station channel).claims = s.claims ∧
    (s.turnerStops station channel).replies = s.replies ∧
    (s.turnerStops station channel).castends = s.castends ∧ (s.turnerStops station channel).book = s.book ∧
    (s.turnerStops station channel).elock = s.elock ∧ (s.turnerStops station channel).free = s.free ∧
    (s.turnerStops station channel).pending = s.pending := by
  and_intros <;> unfold State.turnerStops <;> (try dsimp only) <;> (repeat' split) <;> simp

@[simp] theorem State.report_frame (s : State) (r : TurnerReport) :
    (s.report r).tb = s.tb ∧ (s.report r).loader = s.loader ∧ (s.report r).cfg = s.cfg ∧
    (s.report r).line = s.line ∧ (s.report r).peers = s.peers ∧ (s.report r).claims = s.claims ∧
    (s.report r).replies = s.replies ∧ (s.report r).castends = s.castends ∧ (s.report r).book = s.book ∧
    (s.report r).elock = s.elock ∧ (s.report r).free = s.free ∧ (s.report r).pending = s.pending := by
  and_intros <;> unfold State.report <;> (try dsimp only) <;> (repeat' split) <;> simp

@[simp] theorem State.reportAll_frame (s : State) (l : List TurnerReport) :
    (s.reportAll l).tb = s.tb ∧ (s.reportAll l).loader = s.loader ∧ (s.reportAll l).cfg = s.cfg ∧
    (s.reportAll l).line = s.line ∧ (s.reportAll l).peers = s.peers ∧ (s.reportAll l).claims = s.claims ∧
    (s.reportAll l).replies = s.replies ∧ (s.reportAll l).castends = s.castends ∧
    (s.reportAll l).book = s.book ∧ (s.reportAll l).elock = s.elock ∧ (s.reportAll l).free = s.free ∧
    (s.reportAll l).pending = s.pending := by
  and_intros <;> unfold State.reportAll <;> (try dsimp only) <;> (repeat' split) <;> simp

@[simp] theorem State.travelDone_frame (s : State) :
    (s.travelDone).tb = s.tb ∧ (s.travelDone).loader = s.loader ∧ (s.travelDone).cfg = s.cfg ∧
    (s.travelDone).line = s.line ∧ (s.travelDone).peers = s.peers ∧ (s.travelDone).claims = s.claims ∧
    (s.travelDone).own = s.own ∧ (s.travelDone).chans = s.chans ∧ (s.travelDone).replies = s.replies ∧
    (s.travelDone).castends = s.castends ∧ (s.travelDone).book = s.book ∧ (s.travelDone).panel = s.panel ∧
    (s.travelDone).elock = s.elock ∧ (s.travelDone).free = s.free ∧ (s.travelDone).pending = s.pending := by
  and_intros <;> unfold State.travelDone <;> (try dsimp only) <;> (repeat' split) <;> simp

@[simp] theorem State.turningDone_frame (s : State) :
    (s.turningDone).tb = s.tb ∧ (s.turningDone).loader = s.loader ∧ (s.turningDone).cfg = s.cfg ∧
    (s.turningDone).line = s.line ∧ (s.turningDone).peers = s.peers ∧ (s.turningDone).claims = s.claims ∧
    (s.turningDone).replies = s.replies ∧ (s.turningDone).castends = s.castends ∧
    (s.turningDone).book = s.book ∧ (s.turningDone).elock = s.elock ∧ (s.turningDone).free = s.free ∧
    (s.turningDone).pending = s.pending := by
  and_intros <;> unfold State.turningDone <;> (try dsimp only) <;> (repeat' split) <;> simp

@[simp] theorem State.turnerFaults_frame (s : State) :
    (s.turnerFaults).tb = s.tb ∧ (s.turnerFaults).loader = s.loader ∧ (s.turnerFaults).cfg = s.cfg ∧
    (s.turnerFaults).line = s.line ∧ (s.turnerFaults).peers = s.peers ∧ (s.turnerFaults).claims = s.claims ∧
    (s.turnerFaults).replies = s.replies ∧ (s.turnerFaults).castends = s.castends ∧
    (s.turnerFaults).book = s.book ∧ (s.turnerFaults).elock = s.elock ∧ (s.turnerFaults).free = s.free ∧
    (s.turnerFaults).pending = s.pending := by
  and_intros <;> unfold State.turnerFaults <;> (try dsimp only) <;> (repeat' split) <;> simp

@[simp] theorem State.listFaults_frame (s : State) (sender : Nat) (a : Applied) :
    (s.listFaults sender a).tb = s.tb ∧ (s.listFaults sender a).loader = s.loader ∧
    (s.listFaults sender a).cfg = s.cfg ∧ (s.listFaults sender a).peers = s.peers ∧
    (s.listFaults sender a).claims = s.claims ∧ (s.listFaults sender a).own = s.own ∧
    (s.listFaults sender a).chans = s.chans ∧ (s.listFaults sender a).turner = s.turner ∧
    (s.listFaults sender a).replies = s.replies ∧ (s.listFaults sender a).castends = s.castends ∧
    (s.listFaults sender a).book = s.book ∧ (s.listFaults sender a).elock = s.elock ∧
    (s.listFaults sender a).free = s.free ∧ (s.listFaults sender a).pending = s.pending := by
  and_intros <;> unfold State.listFaults <;> (try dsimp only) <;> (repeat' split) <;> simp

@[simp] theorem State.setClaims_frame (s : State) (t : List ClaimEntry) (l : List TurnerReport) :
    (s.setClaims t l).tb = s.tb ∧ (s.setClaims t l).loader = s.loader ∧ (s.setClaims t l).cfg = s.cfg ∧
    (s.setClaims t l).line = s.line ∧ (s.setClaims t l).peers = s.peers ∧
    (s.setClaims t l).replies = s.replies ∧ (s.setClaims t l).castends = s.castends ∧
    (s.setClaims t l).book = s.book ∧ (s.setClaims t l).elock = s.elock ∧ (s.setClaims t l).free = s.free ∧
    (s.setClaims t l).pending = s.pending := by
  and_intros <;> unfold State.setClaims <;> (try dsimp only) <;> (repeat' split) <;> simp

@[simp] theorem State.applyClaims_frame (s : State) (sender : Nat) (items : List ClaimItem) (turnerOk : Bool) :
    (s.applyClaims sender items turnerOk).tb = s.tb ∧ (s.applyClaims sender items turnerOk).loader = s.loader ∧
    (s.applyClaims sender items turnerOk).cfg = s.cfg ∧ (s.applyClaims sender items turnerOk).peers = s.peers ∧
    (s.applyClaims sender items turnerOk).replies = s.replies ∧
    (s.applyClaims sender items turnerOk).castends = s.castends ∧
    (s.applyClaims sender items turnerOk).book = s.book ∧
    (s.applyClaims sender items turnerOk).elock = s.elock ∧
    (s.applyClaims sender items turnerOk).free = s.free ∧
    (s.applyClaims sender items turnerOk).pending = s.pending := by
  and_intros <;> unfold State.applyClaims <;> (try dsimp only) <;> (repeat' split) <;> simp

@[simp] theorem State.expireClaims_frame (s : State) (station : Nat) :
    (s.expireClaims station).tb = s.tb ∧ (s.expireClaims station).loader = s.loader ∧
    (s.expireClaims station).cfg = s.cfg ∧ (s.expireClaims station).line = s.line ∧
    (s.expireClaims station).peers = s.peers ∧ (s.expireClaims station).replies = s.replies ∧
    (s.expireClaims station).castends = s.castends ∧ (s.expireClaims station).book = s.book ∧
    (s.expireClaims station).elock = s.elock ∧ (s.expireClaims station).free = s.free ∧
    (s.expireClaims station).pending = s.pending := by
  and_intros <;> unfold State.expireClaims <;> (try dsimp only) <;> (repeat' split) <;> simp

@[simp] theorem State.clearClaims_frame (s : State) :
    (s.clearClaims).tb = s.tb ∧ (s.clearClaims).loader = s.loader ∧ (s.clearClaims).cfg = s.cfg ∧
    (s.clearClaims).line = s.line ∧ (s.clearClaims).peers = s.peers ∧ (s.clearClaims).replies = s.replies ∧
    (s.clearClaims).castends = s.castends ∧ (s.clearClaims).book = s.book ∧ (s.clearClaims).elock = s.elock ∧
    (s.clearClaims).free = s.free ∧ (s.clearClaims).pending = s.pending := by
  and_intros <;> unfold State.clearClaims <;> (try dsimp only) <;> (repeat' split) <;> simp

/-! ## TransferItems -/

@[simp] theorem State.judgeOffer_frame (s : State) (sender : Nat) (o : OfferItem) :
    (s.judgeOffer sender o).tb = s.tb ∧ (s.judgeOffer sender o).loader = s.loader ∧
    (s.judgeOffer sender o).cfg = s.cfg ∧ (s.judgeOffer sender o).line = s.line ∧
    (s.judgeOffer sender o).peers = s.peers ∧ (s.judgeOffer sender o).claims = s.claims ∧
    (s.judgeOffer sender o).own = s.own ∧ (s.judgeOffer sender o).turner = s.turner ∧
    (s.judgeOffer sender o).castends = s.castends ∧ (s.judgeOffer sender o).book = s.book ∧
    (s.judgeOffer sender o).panel = s.panel ∧ (s.judgeOffer sender o).elock = s.elock ∧
    (s.judgeOffer sender o).free = s.free ∧ (s.judgeOffer sender o).pending = s.pending := by
  and_intros <;> unfold State.judgeOffer <;> (try dsimp only) <;> (repeat' split) <;> simp

@[simp] theorem State.askTransfer_frame (s : State) (c : Fin 6) :
    (s.askTransfer c).tb = s.tb ∧ (s.askTransfer c).loader = s.loader ∧ (s.askTransfer c).cfg = s.cfg ∧
    (s.askTransfer c).line = s.line ∧ (s.askTransfer c).peers = s.peers ∧ (s.askTransfer c).claims = s.claims ∧
    (s.askTransfer c).turner = s.turner ∧ (s.askTransfer c).replies = s.replies ∧
    (s.askTransfer c).castends = s.castends ∧ (s.askTransfer c).book = s.book ∧
    (s.askTransfer c).panel = s.panel ∧ (s.askTransfer c).elock = s.elock ∧ (s.askTransfer c).free = s.free ∧
    (s.askTransfer c).pending = s.pending := by
  and_intros <;> unfold State.askTransfer <;> (try dsimp only) <;> (repeat' split) <;> simp

@[simp] theorem State.accepted_frame (s : State) (c : Fin 6) :
    (s.accepted c).tb = s.tb ∧ (s.accepted c).loader = s.loader ∧ (s.accepted c).cfg = s.cfg ∧
    (s.accepted c).line = s.line ∧ (s.accepted c).peers = s.peers ∧ (s.accepted c).claims = s.claims ∧
    (s.accepted c).turner = s.turner ∧ (s.accepted c).replies = s.replies ∧
    (s.accepted c).castends = s.castends ∧ (s.accepted c).book = s.book ∧ (s.accepted c).panel = s.panel ∧
    (s.accepted c).elock = s.elock ∧ (s.accepted c).free = s.free ∧ (s.accepted c).pending = s.pending := by
  and_intros <;> unfold State.accepted <;> (try dsimp only) <;> (repeat' split) <;> simp

@[simp] theorem State.declined_frame (s : State) (c : Fin 6) (d : DeclineReason) :
    (s.declined c d).tb = s.tb ∧ (s.declined c d).loader = s.loader ∧ (s.declined c d).cfg = s.cfg ∧
    (s.declined c d).line = s.line ∧ (s.declined c d).peers = s.peers ∧ (s.declined c d).claims = s.claims ∧
    (s.declined c d).own = s.own ∧ (s.declined c d).turner = s.turner ∧ (s.declined c d).replies = s.replies ∧
    (s.declined c d).castends = s.castends ∧ (s.declined c d).book = s.book ∧
    (s.declined c d).elock = s.elock ∧ (s.declined c d).free = s.free ∧
    (s.declined c d).pending = s.pending := by
  and_intros <;> unfold State.declined <;> (try dsimp only) <;> (repeat' split) <;> simp

@[simp] theorem State.handleReply_frame (s : State) (sender : Nat) (r : ReplyItem) :
    (s.handleReply sender r).tb = s.tb ∧ (s.handleReply sender r).loader = s.loader ∧
    (s.handleReply sender r).cfg = s.cfg ∧ (s.handleReply sender r).line = s.line ∧
    (s.handleReply sender r).peers = s.peers ∧ (s.handleReply sender r).claims = s.claims ∧
    (s.handleReply sender r).turner = s.turner ∧ (s.handleReply sender r).replies = s.replies ∧
    (s.handleReply sender r).book = s.book ∧ (s.handleReply sender r).elock = s.elock ∧
    (s.handleReply sender r).free = s.free ∧ (s.handleReply sender r).pending = s.pending := by
  and_intros <;> unfold State.handleReply <;> (try dsimp only) <;> (repeat' split) <;> simp

@[simp] theorem State.placePiece_frame (s : State) (c : Fin 6) (content : Piece) (orphan : Bool) :
    (s.placePiece c content orphan).tb = s.tb ∧ (s.placePiece c content orphan).loader = s.loader ∧
    (s.placePiece c content orphan).cfg = s.cfg ∧ (s.placePiece c content orphan).line = s.line ∧
    (s.placePiece c content orphan).peers = s.peers ∧ (s.placePiece c content orphan).claims = s.claims ∧
    (s.placePiece c content orphan).own = s.own ∧ (s.placePiece c content orphan).turner = s.turner ∧
    (s.placePiece c content orphan).replies = s.replies ∧
    (s.placePiece c content orphan).castends = s.castends ∧ (s.placePiece c content orphan).panel = s.panel ∧
    (s.placePiece c content orphan).elock = s.elock ∧ (s.placePiece c content orphan).free = s.free ∧
    (s.placePiece c content orphan).pending = s.pending := by
  and_intros <;> unfold State.placePiece <;> (try dsimp only) <;> (repeat' split) <;> simp

@[simp] theorem State.settlePiece_frame (s : State) (c : Fin 6) :
    (s.settlePiece c).tb = s.tb ∧ (s.settlePiece c).loader = s.loader ∧ (s.settlePiece c).cfg = s.cfg ∧
    (s.settlePiece c).line = s.line ∧ (s.settlePiece c).peers = s.peers ∧ (s.settlePiece c).claims = s.claims ∧
    (s.settlePiece c).own = s.own ∧ (s.settlePiece c).turner = s.turner ∧ (s.settlePiece c).replies = s.replies ∧
    (s.settlePiece c).castends = s.castends ∧ (s.settlePiece c).book = s.book ∧ (s.settlePiece c).elock = s.elock ∧
    (s.settlePiece c).free = s.free ∧ (s.settlePiece c).pending = s.pending := by
  and_intros <;> unfold State.settlePiece <;> (try dsimp only) <;> (repeat' split) <;> simp

@[simp] theorem State.arrive_frame (s : State) (c : Fin 6) (source : Pair) (content : Piece) :
    (s.arrive c source content).tb = s.tb ∧ (s.arrive c source content).loader = s.loader ∧
    (s.arrive c source content).cfg = s.cfg ∧ (s.arrive c source content).line = s.line ∧
    (s.arrive c source content).peers = s.peers ∧ (s.arrive c source content).claims = s.claims ∧
    (s.arrive c source content).turner = s.turner ∧ (s.arrive c source content).replies = s.replies ∧
    (s.arrive c source content).elock = s.elock ∧ (s.arrive c source content).free = s.free ∧
    (s.arrive c source content).pending = s.pending := by
  and_intros <;> unfold State.arrive <;> (try dsimp only) <;> (repeat' split) <;> simp

@[simp] theorem State.modPiece_frame (s : State) (c : Fin 6) (f : Piece → Piece) :
    (s.modPiece c f).tb = s.tb ∧ (s.modPiece c f).loader = s.loader ∧ (s.modPiece c f).cfg = s.cfg ∧
    (s.modPiece c f).line = s.line ∧ (s.modPiece c f).peers = s.peers ∧ (s.modPiece c f).claims = s.claims ∧
    (s.modPiece c f).own = s.own ∧ (s.modPiece c f).turner = s.turner ∧ (s.modPiece c f).replies = s.replies ∧
    (s.modPiece c f).castends = s.castends ∧ (s.modPiece c f).book = s.book ∧
    (s.modPiece c f).panel = s.panel ∧ (s.modPiece c f).elock = s.elock ∧ (s.modPiece c f).free = s.free ∧
    (s.modPiece c f).pending = s.pending := by
  and_intros <;> unfold State.modPiece <;> (try dsimp only) <;> (repeat' split) <;> simp

@[simp] theorem State.handleCastend_frame (s : State) (sender : Nat) (x : CastendItem) :
    (s.handleCastend sender x).tb = s.tb ∧ (s.handleCastend sender x).loader = s.loader ∧
    (s.handleCastend sender x).cfg = s.cfg ∧ (s.handleCastend sender x).line = s.line ∧
    (s.handleCastend sender x).peers = s.peers ∧ (s.handleCastend sender x).claims = s.claims ∧
    (s.handleCastend sender x).turner = s.turner ∧ (s.handleCastend sender x).replies = s.replies ∧
    (s.handleCastend sender x).elock = s.elock ∧ (s.handleCastend sender x).free = s.free ∧
    (s.handleCastend sender x).pending = s.pending := by
  and_intros <;> unfold State.handleCastend <;> (try dsimp only) <;> (repeat' split) <;> simp

@[simp] theorem State.makeOrphan_frame (s : State) (c : Fin 6) (value : Nat) :
    (s.makeOrphan c value).tb = s.tb ∧ (s.makeOrphan c value).loader = s.loader ∧
    (s.makeOrphan c value).cfg = s.cfg ∧ (s.makeOrphan c value).line = s.line ∧
    (s.makeOrphan c value).peers = s.peers ∧ (s.makeOrphan c value).claims = s.claims ∧
    (s.makeOrphan c value).own = s.own ∧ (s.makeOrphan c value).turner = s.turner ∧
    (s.makeOrphan c value).replies = s.replies ∧ (s.makeOrphan c value).castends = s.castends ∧
    (s.makeOrphan c value).elock = s.elock ∧ (s.makeOrphan c value).free = s.free ∧
    (s.makeOrphan c value).pending = s.pending := by
  and_intros <;> unfold State.makeOrphan <;> (try dsimp only) <;> (repeat' split) <;> simp

@[simp] theorem State.castRead_frame (s : State) (x : CastendItem) :
    (s.castRead x).tb = s.tb ∧ (s.castRead x).loader = s.loader ∧ (s.castRead x).cfg = s.cfg ∧
    (s.castRead x).line = s.line ∧ (s.castRead x).peers = s.peers ∧ (s.castRead x).claims = s.claims ∧
    (s.castRead x).turner = s.turner ∧ (s.castRead x).replies = s.replies ∧ (s.castRead x).elock = s.elock ∧
    (s.castRead x).free = s.free ∧ (s.castRead x).pending = s.pending := by
  and_intros <;> unfold State.castRead <;> (try dsimp only) <;> (repeat' split) <;> simp

@[simp] theorem State.lossAt_frame (s : State) (station : Nat) (c : Fin 6) :
    (s.lossAt station c).tb = s.tb ∧ (s.lossAt station c).loader = s.loader ∧
    (s.lossAt station c).cfg = s.cfg ∧ (s.lossAt station c).line = s.line ∧
    (s.lossAt station c).peers = s.peers ∧ (s.lossAt station c).claims = s.claims ∧
    (s.lossAt station c).turner = s.turner ∧ (s.lossAt station c).replies = s.replies ∧
    (s.lossAt station c).elock = s.elock ∧ (s.lossAt station c).free = s.free ∧
    (s.lossAt station c).pending = s.pending := by
  and_intros <;> unfold State.lossAt <;> (try dsimp only) <;> (repeat' split) <;> simp

@[simp] theorem State.lossAll_frame (s : State) (station : Nat) :
    (s.lossAll station).tb = s.tb ∧ (s.lossAll station).loader = s.loader ∧ (s.lossAll station).cfg = s.cfg ∧
    (s.lossAll station).line = s.line ∧ (s.lossAll station).peers = s.peers ∧
    (s.lossAll station).claims = s.claims ∧ (s.lossAll station).turner = s.turner ∧
    (s.lossAll station).replies = s.replies ∧ (s.lossAll station).elock = s.elock ∧
    (s.lossAll station).free = s.free ∧ (s.lossAll station).pending = s.pending := by
  and_intros <;> unfold State.lossAll <;> (try dsimp only) <;> (repeat' split) <;> simp

@[simp] theorem State.lose_frame (s : State) (station : Nat) :
    (s.lose station).tb = s.tb ∧ (s.lose station).loader = s.loader ∧ (s.lose station).cfg = s.cfg ∧
    (s.lose station).line = s.line ∧ (s.lose station).peers = s.peers ∧ (s.lose station).replies = s.replies ∧
    (s.lose station).elock = s.elock ∧ (s.lose station).free = s.free ∧
    (s.lose station).pending = s.pending := by
  and_intros <;> unfold State.lose <;> (try dsimp only) <;> (repeat' split) <;> simp

@[simp] theorem State.turnEnds_frame (s : State) (c : Fin 6) (reason : EndReason) :
    (s.turnEnds c reason).tb = s.tb ∧ (s.turnEnds c reason).loader = s.loader ∧
    (s.turnEnds c reason).cfg = s.cfg ∧ (s.turnEnds c reason).line = s.line ∧
    (s.turnEnds c reason).peers = s.peers ∧ (s.turnEnds c reason).claims = s.claims ∧
    (s.turnEnds c reason).turner = s.turner ∧ (s.turnEnds c reason).replies = s.replies ∧
    (s.turnEnds c reason).elock = s.elock ∧ (s.turnEnds c reason).free = s.free ∧
    (s.turnEnds c reason).pending = s.pending := by
  and_intros <;> unfold State.turnEnds <;> (try dsimp only) <;> (repeat' split) <;> simp

@[simp] theorem State.handleTurnend_frame (s : State) (t : TurnendItem) :
    (s.handleTurnend t).tb = s.tb ∧ (s.handleTurnend t).loader = s.loader ∧ (s.handleTurnend t).cfg = s.cfg ∧
    (s.handleTurnend t).line = s.line ∧ (s.handleTurnend t).peers = s.peers ∧
    (s.handleTurnend t).claims = s.claims ∧ (s.handleTurnend t).turner = s.turner ∧
    (s.handleTurnend t).replies = s.replies ∧ (s.handleTurnend t).elock = s.elock ∧
    (s.handleTurnend t).free = s.free ∧ (s.handleTurnend t).pending = s.pending := by
  and_intros <;> unfold State.handleTurnend <;> (try dsimp only) <;> (repeat' split) <;> simp

@[simp] theorem State.discardPiece_frame (s : State) (c : Fin 6) :
    (s.discardPiece c).tb = s.tb ∧ (s.discardPiece c).loader = s.loader ∧ (s.discardPiece c).cfg = s.cfg ∧
    (s.discardPiece c).line = s.line ∧ (s.discardPiece c).peers = s.peers ∧
    (s.discardPiece c).claims = s.claims ∧ (s.discardPiece c).turner = s.turner ∧
    (s.discardPiece c).replies = s.replies ∧ (s.discardPiece c).elock = s.elock ∧
    (s.discardPiece c).free = s.free ∧ (s.discardPiece c).pending = s.pending := by
  and_intros <;> unfold State.discardPiece <;> (try dsimp only) <;> (repeat' split) <;> simp

/-! ## LineControl -/

@[simp] theorem State.modLine_frame (s : State) (f : Line → Line) :
    (s.modLine f).tb = s.tb ∧ (s.modLine f).loader = s.loader ∧ (s.modLine f).cfg = s.cfg ∧
    (s.modLine f).peers = s.peers ∧ (s.modLine f).claims = s.claims ∧ (s.modLine f).own = s.own ∧
    (s.modLine f).chans = s.chans ∧ (s.modLine f).turner = s.turner ∧ (s.modLine f).replies = s.replies ∧
    (s.modLine f).castends = s.castends ∧ (s.modLine f).book = s.book ∧ (s.modLine f).panel = s.panel ∧
    (s.modLine f).elock = s.elock ∧ (s.modLine f).free = s.free ∧ (s.modLine f).pending = s.pending := by
  and_intros <;> unfold State.modLine <;> (try dsimp only) <;> (repeat' split) <;> simp

@[simp] theorem State.startFrame_frame (s : State) :
    (s.startFrame).tb = s.tb ∧ (s.startFrame).loader = s.loader ∧ (s.startFrame).cfg = s.cfg ∧
    (s.startFrame).peers = s.peers ∧ (s.startFrame).claims = s.claims ∧ (s.startFrame).own = s.own ∧
    (s.startFrame).chans = s.chans ∧ (s.startFrame).turner = s.turner ∧ (s.startFrame).replies = s.replies ∧
    (s.startFrame).castends = s.castends ∧ (s.startFrame).book = s.book ∧ (s.startFrame).panel = s.panel ∧
    (s.startFrame).elock = s.elock ∧ (s.startFrame).free = s.free ∧ (s.startFrame).pending = s.pending := by
  and_intros <;> unfold State.startFrame <;> (try dsimp only) <;> (repeat' split) <;> simp

@[simp] theorem State.openWindow_frame (s : State) :
    (s.openWindow).tb = s.tb ∧ (s.openWindow).loader = s.loader ∧ (s.openWindow).cfg = s.cfg ∧
    (s.openWindow).peers = s.peers ∧ (s.openWindow).claims = s.claims ∧ (s.openWindow).own = s.own ∧
    (s.openWindow).chans = s.chans ∧ (s.openWindow).turner = s.turner ∧ (s.openWindow).replies = s.replies ∧
    (s.openWindow).castends = s.castends ∧ (s.openWindow).book = s.book ∧ (s.openWindow).panel = s.panel ∧
    (s.openWindow).elock = s.elock ∧ (s.openWindow).free = s.free ∧ (s.openWindow).pending = s.pending := by
  and_intros <;> unfold State.openWindow <;> (try dsimp only) <;> (repeat' split) <;> simp

@[simp] theorem State.closeWindow_frame (s : State) :
    (s.closeWindow).tb = s.tb ∧ (s.closeWindow).loader = s.loader ∧ (s.closeWindow).cfg = s.cfg ∧
    (s.closeWindow).peers = s.peers ∧ (s.closeWindow).claims = s.claims ∧ (s.closeWindow).own = s.own ∧
    (s.closeWindow).chans = s.chans ∧ (s.closeWindow).turner = s.turner ∧ (s.closeWindow).replies = s.replies ∧
    (s.closeWindow).castends = s.castends ∧ (s.closeWindow).book = s.book ∧ (s.closeWindow).panel = s.panel ∧
    (s.closeWindow).elock = s.elock ∧ (s.closeWindow).free = s.free ∧ (s.closeWindow).pending = s.pending := by
  and_intros <;> unfold State.closeWindow <;> (try dsimp only) <;> (repeat' split) <;> simp

@[simp] theorem State.windowAtEnd_frame (s : State) :
    (s.windowAtEnd).tb = s.tb ∧ (s.windowAtEnd).loader = s.loader ∧ (s.windowAtEnd).cfg = s.cfg ∧
    (s.windowAtEnd).peers = s.peers ∧ (s.windowAtEnd).claims = s.claims ∧ (s.windowAtEnd).own = s.own ∧
    (s.windowAtEnd).chans = s.chans ∧ (s.windowAtEnd).turner = s.turner ∧ (s.windowAtEnd).replies = s.replies ∧
    (s.windowAtEnd).castends = s.castends ∧ (s.windowAtEnd).book = s.book ∧ (s.windowAtEnd).panel = s.panel ∧
    (s.windowAtEnd).elock = s.elock ∧ (s.windowAtEnd).free = s.free ∧ (s.windowAtEnd).pending = s.pending := by
  and_intros <;> unfold State.windowAtEnd <;> (try dsimp only) <;> (repeat' split) <;> simp

@[simp] theorem State.windowAtTurn_frame (s : State) :
    (s.windowAtTurn).tb = s.tb ∧ (s.windowAtTurn).loader = s.loader ∧ (s.windowAtTurn).cfg = s.cfg ∧
    (s.windowAtTurn).peers = s.peers ∧ (s.windowAtTurn).claims = s.claims ∧ (s.windowAtTurn).own = s.own ∧
    (s.windowAtTurn).chans = s.chans ∧ (s.windowAtTurn).turner = s.turner ∧
    (s.windowAtTurn).replies = s.replies ∧ (s.windowAtTurn).castends = s.castends ∧
    (s.windowAtTurn).book = s.book ∧ (s.windowAtTurn).panel = s.panel ∧ (s.windowAtTurn).elock = s.elock ∧
    (s.windowAtTurn).free = s.free ∧ (s.windowAtTurn).pending = s.pending := by
  and_intros <;> unfold State.windowAtTurn <;> (try dsimp only) <;> (repeat' split) <;> simp

@[simp] theorem State.takeSender_frame (s : State) (x : Option Nat) :
    (s.takeSender x).tb = s.tb ∧ (s.takeSender x).loader = s.loader ∧ (s.takeSender x).cfg = s.cfg ∧
    (s.takeSender x).peers = s.peers ∧ (s.takeSender x).claims = s.claims ∧ (s.takeSender x).own = s.own ∧
    (s.takeSender x).chans = s.chans ∧ (s.takeSender x).turner = s.turner ∧
    (s.takeSender x).replies = s.replies ∧ (s.takeSender x).castends = s.castends ∧
    (s.takeSender x).book = s.book ∧ (s.takeSender x).panel = s.panel ∧ (s.takeSender x).elock = s.elock ∧
    (s.takeSender x).free = s.free ∧ (s.takeSender x).pending = s.pending := by
  and_intros <;> unfold State.takeSender <;> (try dsimp only) <;> (repeat' split) <;> simp

@[simp] theorem State.markFailure_frame (s : State) :
    (s.markFailure).tb = s.tb ∧ (s.markFailure).loader = s.loader ∧ (s.markFailure).cfg = s.cfg ∧
    (s.markFailure).peers = s.peers ∧ (s.markFailure).claims = s.claims ∧ (s.markFailure).own = s.own ∧
    (s.markFailure).chans = s.chans ∧ (s.markFailure).turner = s.turner ∧ (s.markFailure).replies = s.replies ∧
    (s.markFailure).castends = s.castends ∧ (s.markFailure).book = s.book ∧ (s.markFailure).panel = s.panel ∧
    (s.markFailure).elock = s.elock ∧ (s.markFailure).free = s.free ∧ (s.markFailure).pending = s.pending := by
  and_intros <;> unfold State.markFailure <;> (try dsimp only) <;> (repeat' split) <;> simp

@[simp] theorem State.enterListening_frame (s : State) :
    (s.enterListening).tb = s.tb ∧ (s.enterListening).loader = s.loader ∧ (s.enterListening).cfg = s.cfg ∧
    (s.enterListening).peers = s.peers ∧ (s.enterListening).claims = s.claims ∧
    (s.enterListening).own = s.own ∧ (s.enterListening).chans = s.chans ∧
    (s.enterListening).turner = s.turner ∧ (s.enterListening).replies = s.replies ∧
    (s.enterListening).castends = s.castends ∧ (s.enterListening).book = s.book ∧
    (s.enterListening).elock = s.elock ∧ (s.enterListening).free = s.free ∧
    (s.enterListening).pending = s.pending := by
  and_intros <;> unfold State.enterListening <;> (try dsimp only) <;> (repeat' split) <;> simp

@[simp] theorem State.enterJoining_frame (s : State) :
    (s.enterJoining).tb = s.tb ∧ (s.enterJoining).loader = s.loader ∧ (s.enterJoining).cfg = s.cfg ∧
    (s.enterJoining).peers = s.peers ∧ (s.enterJoining).claims = s.claims ∧ (s.enterJoining).own = s.own ∧
    (s.enterJoining).chans = s.chans ∧ (s.enterJoining).turner = s.turner ∧
    (s.enterJoining).replies = s.replies ∧ (s.enterJoining).castends = s.castends ∧
    (s.enterJoining).book = s.book ∧ (s.enterJoining).elock = s.elock ∧ (s.enterJoining).free = s.free ∧
    (s.enterJoining).pending = s.pending := by
  and_intros <;> unfold State.enterJoining <;> (try dsimp only) <;> (repeat' split) <;> simp

@[simp] theorem State.ownAbsent_frame (s : State) :
    (s.ownAbsent).tb = s.tb ∧ (s.ownAbsent).loader = s.loader ∧ (s.ownAbsent).cfg = s.cfg ∧
    (s.ownAbsent).line = s.line ∧ (s.ownAbsent).claims = s.claims ∧ (s.ownAbsent).own = s.own ∧
    (s.ownAbsent).chans = s.chans ∧ (s.ownAbsent).turner = s.turner ∧ (s.ownAbsent).replies = s.replies ∧
    (s.ownAbsent).castends = s.castends ∧ (s.ownAbsent).book = s.book ∧ (s.ownAbsent).panel = s.panel ∧
    (s.ownAbsent).elock = s.elock ∧ (s.ownAbsent).free = s.free ∧ (s.ownAbsent).pending = s.pending := by
  and_intros <;> unfold State.ownAbsent <;> (try dsimp only) <;> (repeat' split) <;> simp

@[simp] theorem State.depart_frame (s : State) :
    (s.depart).tb = s.tb ∧ (s.depart).loader = s.loader ∧ (s.depart).cfg = s.cfg ∧
    (s.depart).replies = s.replies ∧ (s.depart).castends = s.castends ∧ (s.depart).book = s.book ∧
    (s.depart).elock = s.elock ∧ (s.depart).free = s.free ∧ (s.depart).pending = s.pending := by
  and_intros <;> unfold State.depart <;> (try dsimp only) <;> (repeat' split) <;> simp

@[simp] theorem State.departIfMember_frame (s : State) :
    (s.departIfMember).tb = s.tb ∧ (s.departIfMember).loader = s.loader ∧ (s.departIfMember).cfg = s.cfg ∧
    (s.departIfMember).replies = s.replies ∧ (s.departIfMember).castends = s.castends ∧
    (s.departIfMember).book = s.book ∧ (s.departIfMember).elock = s.elock ∧ (s.departIfMember).free = s.free ∧
    (s.departIfMember).pending = s.pending := by
  and_intros <;> unfold State.departIfMember <;> (try dsimp only) <;> (repeat' split) <;> simp

@[simp] theorem State.enterMute_frame (s : State) :
    (s.enterMute).tb = s.tb ∧ (s.enterMute).loader = s.loader ∧ (s.enterMute).cfg = s.cfg ∧
    (s.enterMute).replies = s.replies ∧ (s.enterMute).castends = s.castends ∧ (s.enterMute).book = s.book ∧
    (s.enterMute).elock = s.elock ∧ (s.enterMute).free = s.free ∧ (s.enterMute).pending = s.pending := by
  and_intros <;> unfold State.enterMute <;> (try dsimp only) <;> (repeat' split) <;> simp

@[simp] theorem State.muteDown_frame (s : State) :
    (s.muteDown).tb = s.tb ∧ (s.muteDown).loader = s.loader ∧ (s.muteDown).cfg = s.cfg ∧
    (s.muteDown).peers = s.peers ∧ (s.muteDown).claims = s.claims ∧ (s.muteDown).own = s.own ∧
    (s.muteDown).chans = s.chans ∧ (s.muteDown).turner = s.turner ∧ (s.muteDown).replies = s.replies ∧
    (s.muteDown).castends = s.castends ∧ (s.muteDown).book = s.book ∧ (s.muteDown).elock = s.elock ∧
    (s.muteDown).free = s.free ∧ (s.muteDown).pending = s.pending := by
  and_intros <;> unfold State.muteDown <;> (try dsimp only) <;> (repeat' split) <;> simp

@[simp] theorem State.dropLine_frame (s : State) :
    (s.dropLine).tb = s.tb ∧ (s.dropLine).loader = s.loader ∧ (s.dropLine).cfg = s.cfg ∧
    (s.dropLine).peers = s.peers ∧ (s.dropLine).claims = s.claims ∧ (s.dropLine).own = s.own ∧
    (s.dropLine).chans = s.chans ∧ (s.dropLine).turner = s.turner ∧ (s.dropLine).replies = s.replies ∧
    (s.dropLine).castends = s.castends ∧ (s.dropLine).book = s.book ∧ (s.dropLine).panel = s.panel ∧
    (s.dropLine).elock = s.elock ∧ (s.dropLine).free = s.free ∧ (s.dropLine).pending = s.pending := by
  and_intros <;> unfold State.dropLine <;> (try dsimp only) <;> (repeat' split) <;> simp

@[simp] theorem State.emptyTable_frame (s : State) :
    (s.emptyTable).tb = s.tb ∧ (s.emptyTable).loader = s.loader ∧ (s.emptyTable).cfg = s.cfg ∧
    (s.emptyTable).replies = s.replies ∧ (s.emptyTable).castends = s.castends ∧ (s.emptyTable).book = s.book ∧
    (s.emptyTable).elock = s.elock ∧ (s.emptyTable).free = s.free ∧ (s.emptyTable).pending = s.pending := by
  and_intros <;> unfold State.emptyTable <;> (try dsimp only) <;> (repeat' split) <;> simp

@[simp] theorem State.enterClocking_frame (s : State) :
    (s.enterClocking).tb = s.tb ∧ (s.enterClocking).loader = s.loader ∧ (s.enterClocking).cfg = s.cfg ∧
    (s.enterClocking).replies = s.replies ∧ (s.enterClocking).castends = s.castends ∧
    (s.enterClocking).book = s.book ∧ (s.enterClocking).elock = s.elock ∧ (s.enterClocking).free = s.free ∧
    (s.enterClocking).pending = s.pending := by
  and_intros <;> unfold State.enterClocking <;> (try dsimp only) <;> (repeat' split) <;> simp

@[simp] theorem State.newcomer_frame (s : State) (a : Nat) :
    (s.newcomer a).tb = s.tb ∧ (s.newcomer a).loader = s.loader ∧ (s.newcomer a).cfg = s.cfg ∧
    (s.newcomer a).peers = s.peers ∧ (s.newcomer a).claims = s.claims ∧ (s.newcomer a).own = s.own ∧
    (s.newcomer a).chans = s.chans ∧ (s.newcomer a).turner = s.turner ∧ (s.newcomer a).replies = s.replies ∧
    (s.newcomer a).castends = s.castends ∧ (s.newcomer a).book = s.book ∧ (s.newcomer a).panel = s.panel ∧
    (s.newcomer a).elock = s.elock ∧ (s.newcomer a).free = s.free ∧ (s.newcomer a).pending = s.pending := by
  and_intros <;> unfold State.newcomer <;> (try dsimp only) <;> (repeat' split) <;> simp

@[simp] theorem State.becomeMember_frame (s : State) :
    (s.becomeMember).tb = s.tb ∧ (s.becomeMember).loader = s.loader ∧ (s.becomeMember).cfg = s.cfg ∧
    (s.becomeMember).claims = s.claims ∧ (s.becomeMember).own = s.own ∧ (s.becomeMember).chans = s.chans ∧
    (s.becomeMember).turner = s.turner ∧ (s.becomeMember).replies = s.replies ∧
    (s.becomeMember).castends = s.castends ∧ (s.becomeMember).book = s.book ∧
    (s.becomeMember).elock = s.elock ∧ (s.becomeMember).free = s.free ∧
    (s.becomeMember).pending = s.pending := by
  and_intros <;> unfold State.becomeMember <;> (try dsimp only) <;> (repeat' split) <;> simp

@[simp] theorem State.hearHeader_frame (s : State) (f : TurnFrame) :
    (s.hearHeader f).tb = s.tb ∧ (s.hearHeader f).loader = s.loader ∧ (s.hearHeader f).cfg = s.cfg ∧
    (s.hearHeader f).claims = s.claims ∧ (s.hearHeader f).own = s.own ∧ (s.hearHeader f).chans = s.chans ∧
    (s.hearHeader f).turner = s.turner ∧ (s.hearHeader f).replies = s.replies ∧
    (s.hearHeader f).castends = s.castends ∧ (s.hearHeader f).book = s.book ∧
    (s.hearHeader f).elock = s.elock ∧ (s.hearHeader f).free = s.free ∧
    (s.hearHeader f).pending = s.pending := by
  and_intros <;> unfold State.hearHeader <;> (try dsimp only) <;> (repeat' split) <;> simp

@[simp] theorem State.losePeer_frame (s : State) (a : Nat) :
    (s.losePeer a).tb = s.tb ∧ (s.losePeer a).loader = s.loader ∧ (s.losePeer a).cfg = s.cfg ∧
    (s.losePeer a).replies = s.replies ∧ (s.losePeer a).elock = s.elock ∧ (s.losePeer a).free = s.free ∧
    (s.losePeer a).pending = s.pending := by
  and_intros <;> unfold State.losePeer <;> (try dsimp only) <;> (repeat' split) <;> simp

@[simp] theorem State.charge_frame (s : State) (a : Nat) :
    (s.charge a).tb = s.tb ∧ (s.charge a).loader = s.loader ∧ (s.charge a).cfg = s.cfg ∧
    (s.charge a).replies = s.replies ∧ (s.charge a).elock = s.elock ∧ (s.charge a).free = s.free ∧
    (s.charge a).pending = s.pending := by
  and_intros <;> unfold State.charge <;> (try dsimp only) <;> (repeat' split) <;> simp

@[simp] theorem State.chargeAll_frame (s : State) (l : List Nat) :
    (s.chargeAll l).tb = s.tb ∧ (s.chargeAll l).loader = s.loader ∧ (s.chargeAll l).cfg = s.cfg ∧
    (s.chargeAll l).replies = s.replies ∧ (s.chargeAll l).elock = s.elock ∧ (s.chargeAll l).free = s.free ∧
    (s.chargeAll l).pending = s.pending := by
  and_intros <;> unfold State.chargeAll <;> (try dsimp only) <;> (repeat' split) <;> simp

@[simp] theorem State.heardOther_frame (s : State) :
    (s.heardOther).tb = s.tb ∧ (s.heardOther).loader = s.loader ∧ (s.heardOther).cfg = s.cfg ∧
    (s.heardOther).peers = s.peers ∧ (s.heardOther).claims = s.claims ∧ (s.heardOther).own = s.own ∧
    (s.heardOther).chans = s.chans ∧ (s.heardOther).turner = s.turner ∧ (s.heardOther).replies = s.replies ∧
    (s.heardOther).castends = s.castends ∧ (s.heardOther).book = s.book ∧ (s.heardOther).panel = s.panel ∧
    (s.heardOther).elock = s.elock ∧ (s.heardOther).free = s.free ∧ (s.heardOther).pending = s.pending := by
  and_intros <;> unfold State.heardOther <;> (try dsimp only) <;> (repeat' split) <;> simp

@[simp] theorem State.offerUnanswered_frame (s : State) (c : Fin 6) :
    (s.offerUnanswered c).tb = s.tb ∧ (s.offerUnanswered c).loader = s.loader ∧
    (s.offerUnanswered c).cfg = s.cfg ∧ (s.offerUnanswered c).line = s.line ∧
    (s.offerUnanswered c).peers = s.peers ∧ (s.offerUnanswered c).claims = s.claims ∧
    (s.offerUnanswered c).own = s.own ∧ (s.offerUnanswered c).turner = s.turner ∧
    (s.offerUnanswered c).replies = s.replies ∧ (s.offerUnanswered c).castends = s.castends ∧
    (s.offerUnanswered c).book = s.book ∧ (s.offerUnanswered c).elock = s.elock ∧
    (s.offerUnanswered c).free = s.free ∧ (s.offerUnanswered c).pending = s.pending := by
  and_intros <;> unfold State.offerUnanswered <;> (try dsimp only) <;> (repeat' split) <;> simp

@[simp] theorem State.offerRound_frame (s : State) (c : Fin 6) :
    (s.offerRound c).tb = s.tb ∧ (s.offerRound c).loader = s.loader ∧ (s.offerRound c).cfg = s.cfg ∧
    (s.offerRound c).line = s.line ∧ (s.offerRound c).peers = s.peers ∧ (s.offerRound c).claims = s.claims ∧
    (s.offerRound c).own = s.own ∧ (s.offerRound c).turner = s.turner ∧ (s.offerRound c).replies = s.replies ∧
    (s.offerRound c).castends = s.castends ∧ (s.offerRound c).book = s.book ∧
    (s.offerRound c).elock = s.elock ∧ (s.offerRound c).free = s.free ∧
    (s.offerRound c).pending = s.pending := by
  and_intros <;> unfold State.offerRound <;> (try dsimp only) <;> (repeat' split) <;> simp

@[simp] theorem State.countRound_frame (s : State) :
    (s.countRound).tb = s.tb ∧ (s.countRound).loader = s.loader ∧ (s.countRound).cfg = s.cfg ∧
    (s.countRound).line = s.line ∧ (s.countRound).peers = s.peers ∧ (s.countRound).claims = s.claims ∧
    (s.countRound).turner = s.turner ∧ (s.countRound).replies = s.replies ∧
    (s.countRound).castends = s.castends ∧ (s.countRound).elock = s.elock ∧ (s.countRound).free = s.free ∧
    (s.countRound).pending = s.pending := by
  and_intros <;> unfold State.countRound <;> (try dsimp only) <;> (repeat' split) <;> simp

@[simp] theorem State.judgeView_frame (s : State) :
    (s.judgeView).tb = s.tb ∧ (s.judgeView).loader = s.loader ∧ (s.judgeView).cfg = s.cfg ∧
    (s.judgeView).peers = s.peers ∧ (s.judgeView).claims = s.claims ∧ (s.judgeView).own = s.own ∧
    (s.judgeView).chans = s.chans ∧ (s.judgeView).turner = s.turner ∧ (s.judgeView).replies = s.replies ∧
    (s.judgeView).castends = s.castends ∧ (s.judgeView).book = s.book ∧ (s.judgeView).panel = s.panel ∧
    (s.judgeView).elock = s.elock ∧ (s.judgeView).free = s.free ∧ (s.judgeView).pending = s.pending := by
  and_intros <;> unfold State.judgeView <;> (try dsimp only) <;> (repeat' split) <;> simp

@[simp] theorem State.judgeDissent_frame (s : State) (opener : Nat) (digest : Word16) :
    (s.judgeDissent opener digest).tb = s.tb ∧ (s.judgeDissent opener digest).loader = s.loader ∧
    (s.judgeDissent opener digest).cfg = s.cfg ∧ (s.judgeDissent opener digest).peers = s.peers ∧
    (s.judgeDissent opener digest).turner = s.turner ∧ (s.judgeDissent opener digest).replies = s.replies ∧
    (s.judgeDissent opener digest).castends = s.castends ∧ (s.judgeDissent opener digest).book = s.book ∧
    (s.judgeDissent opener digest).elock = s.elock ∧ (s.judgeDissent opener digest).free = s.free ∧
    (s.judgeDissent opener digest).pending = s.pending := by
  and_intros <;> unfold State.judgeDissent <;> (try dsimp only) <;> (repeat' split) <;> simp

@[simp] theorem State.openRound_frame (s : State) :
    (s.openRound).tb = s.tb ∧ (s.openRound).loader = s.loader ∧ (s.openRound).cfg = s.cfg ∧
    (s.openRound).peers = s.peers ∧ (s.openRound).claims = s.claims ∧ (s.openRound).turner = s.turner ∧
    (s.openRound).replies = s.replies ∧ (s.openRound).castends = s.castends ∧ (s.openRound).elock = s.elock ∧
    (s.openRound).free = s.free ∧ (s.openRound).pending = s.pending := by
  and_intros <;> unfold State.openRound <;> (try dsimp only) <;> (repeat' split) <;> simp

@[simp] theorem State.ownOpening_frame (s : State) :
    (s.ownOpening).tb = s.tb ∧ (s.ownOpening).loader = s.loader ∧ (s.ownOpening).cfg = s.cfg ∧
    (s.ownOpening).peers = s.peers ∧ (s.ownOpening).claims = s.claims ∧ (s.ownOpening).turner = s.turner ∧
    (s.ownOpening).replies = s.replies ∧ (s.ownOpening).castends = s.castends ∧
    (s.ownOpening).elock = s.elock ∧ (s.ownOpening).free = s.free ∧ (s.ownOpening).pending = s.pending := by
  and_intros <;> unfold State.ownOpening <;> (try dsimp only) <;> (repeat' split) <;> simp

@[simp] theorem State.heardOpening_frame (s : State) (f : TurnFrame) :
    (s.heardOpening f).tb = s.tb ∧ (s.heardOpening f).loader = s.loader ∧ (s.heardOpening f).cfg = s.cfg ∧
    (s.heardOpening f).peers = s.peers ∧ (s.heardOpening f).turner = s.turner ∧
    (s.heardOpening f).replies = s.replies ∧ (s.heardOpening f).castends = s.castends ∧
    (s.heardOpening f).elock = s.elock ∧ (s.heardOpening f).free = s.free ∧
    (s.heardOpening f).pending = s.pending := by
  and_intros <;> unfold State.heardOpening <;> (try dsimp only) <;> (repeat' split) <;> simp

@[simp] theorem State.garbledOpening_frame (s : State) :
    (s.garbledOpening).tb = s.tb ∧ (s.garbledOpening).loader = s.loader ∧ (s.garbledOpening).cfg = s.cfg ∧
    (s.garbledOpening).peers = s.peers ∧ (s.garbledOpening).claims = s.claims ∧
    (s.garbledOpening).turner = s.turner ∧ (s.garbledOpening).replies = s.replies ∧
    (s.garbledOpening).castends = s.castends ∧ (s.garbledOpening).elock = s.elock ∧
    (s.garbledOpening).free = s.free ∧ (s.garbledOpening).pending = s.pending := by
  and_intros <;> unfold State.garbledOpening <;> (try dsimp only) <;> (repeat' split) <;> simp

@[simp] theorem State.compareRound_frame (s : State) (round : Word16) :
    (s.compareRound round).tb = s.tb ∧ (s.compareRound round).loader = s.loader ∧
    (s.compareRound round).cfg = s.cfg ∧ (s.compareRound round).peers = s.peers ∧
    (s.compareRound round).claims = s.claims ∧ (s.compareRound round).own = s.own ∧
    (s.compareRound round).chans = s.chans ∧ (s.compareRound round).turner = s.turner ∧
    (s.compareRound round).replies = s.replies ∧ (s.compareRound round).castends = s.castends ∧
    (s.compareRound round).book = s.book ∧ (s.compareRound round).panel = s.panel ∧
    (s.compareRound round).elock = s.elock ∧ (s.compareRound round).free = s.free ∧
    (s.compareRound round).pending = s.pending := by
  and_intros <;> unfold State.compareRound <;> (try dsimp only) <;> (repeat' split) <;> simp

@[simp] theorem State.countComplete_frame (s : State) :
    (s.countComplete).tb = s.tb ∧ (s.countComplete).loader = s.loader ∧ (s.countComplete).cfg = s.cfg ∧
    (s.countComplete).peers = s.peers ∧ (s.countComplete).claims = s.claims ∧ (s.countComplete).own = s.own ∧
    (s.countComplete).chans = s.chans ∧ (s.countComplete).turner = s.turner ∧
    (s.countComplete).replies = s.replies ∧ (s.countComplete).castends = s.castends ∧
    (s.countComplete).book = s.book ∧ (s.countComplete).elock = s.elock ∧ (s.countComplete).free = s.free ∧
    (s.countComplete).pending = s.pending := by
  and_intros <;> unfold State.countComplete <;> (try dsimp only) <;> (repeat' split) <;> simp

@[simp] theorem State.openingTime_frame (s : State) :
    (s.openingTime).tb = s.tb ∧ (s.openingTime).loader = s.loader ∧ (s.openingTime).cfg = s.cfg ∧
    (s.openingTime).peers = s.peers ∧ (s.openingTime).claims = s.claims ∧ (s.openingTime).own = s.own ∧
    (s.openingTime).chans = s.chans ∧ (s.openingTime).turner = s.turner ∧ (s.openingTime).replies = s.replies ∧
    (s.openingTime).castends = s.castends ∧ (s.openingTime).book = s.book ∧ (s.openingTime).panel = s.panel ∧
    (s.openingTime).elock = s.elock ∧ (s.openingTime).free = s.free ∧ (s.openingTime).pending = s.pending := by
  and_intros <;> unfold State.openingTime <;> (try dsimp only) <;> (repeat' split) <;> simp

@[simp] theorem State.isolate_frame (s : State) :
    (s.isolate).tb = s.tb ∧ (s.isolate).loader = s.loader ∧ (s.isolate).cfg = s.cfg ∧
    (s.isolate).peers = s.peers ∧ (s.isolate).turner = s.turner ∧ (s.isolate).replies = s.replies ∧
    (s.isolate).castends = s.castends ∧ (s.isolate).book = s.book ∧ (s.isolate).panel = s.panel ∧
    (s.isolate).elock = s.elock ∧ (s.isolate).free = s.free ∧ (s.isolate).pending = s.pending := by
  and_intros <;> unfold State.isolate <;> (try dsimp only) <;> (repeat' split) <;> simp

/-! ## Frames -/

@[simp] theorem State.startTurn_frame (s : State) (opening cold : Bool) (round : Word16) :
    (s.startTurn opening cold round).tb = s.tb ∧ (s.startTurn opening cold round).loader = s.loader ∧
    (s.startTurn opening cold round).cfg = s.cfg ∧ (s.startTurn opening cold round).peers = s.peers ∧
    (s.startTurn opening cold round).claims = s.claims ∧ (s.startTurn opening cold round).chans = s.chans ∧
    (s.startTurn opening cold round).book = s.book ∧ (s.startTurn opening cold round).panel = s.panel ∧
    (s.startTurn opening cold round).elock = s.elock ∧ (s.startTurn opening cold round).free = s.free ∧
    (s.startTurn opening cold round).pending = s.pending := by
  and_intros <;> unfold State.startTurn <;> (try dsimp only) <;> (repeat' split) <;> simp

@[simp] theorem State.startOpening_frame (s : State) :
    (s.startOpening).tb = s.tb ∧ (s.startOpening).loader = s.loader ∧ (s.startOpening).cfg = s.cfg ∧
    (s.startOpening).peers = s.peers ∧ (s.startOpening).claims = s.claims ∧ (s.startOpening).elock = s.elock ∧
    (s.startOpening).free = s.free ∧ (s.startOpening).pending = s.pending := by
  and_intros <;> unfold State.startOpening <;> (try dsimp only) <;> (repeat' split) <;> simp

@[simp] theorem State.startCold_frame (s : State) :
    (s.startCold).tb = s.tb ∧ (s.startCold).loader = s.loader ∧ (s.startCold).cfg = s.cfg ∧
    (s.startCold).peers = s.peers ∧ (s.startCold).claims = s.claims ∧ (s.startCold).chans = s.chans ∧
    (s.startCold).book = s.book ∧ (s.startCold).panel = s.panel ∧ (s.startCold).elock = s.elock ∧
    (s.startCold).free = s.free ∧ (s.startCold).pending = s.pending := by
  and_intros <;> unfold State.startCold <;> (try dsimp only) <;> (repeat' split) <;> simp

@[simp] theorem State.startJoin_frame (s : State) :
    (s.startJoin).tb = s.tb ∧ (s.startJoin).loader = s.loader ∧ (s.startJoin).cfg = s.cfg ∧
    (s.startJoin).peers = s.peers ∧ (s.startJoin).claims = s.claims ∧ (s.startJoin).own = s.own ∧
    (s.startJoin).chans = s.chans ∧ (s.startJoin).turner = s.turner ∧ (s.startJoin).replies = s.replies ∧
    (s.startJoin).castends = s.castends ∧ (s.startJoin).book = s.book ∧ (s.startJoin).panel = s.panel ∧
    (s.startJoin).elock = s.elock ∧ (s.startJoin).free = s.free ∧ (s.startJoin).pending = s.pending := by
  and_intros <;> unfold State.startJoin <;> (try dsimp only) <;> (repeat' split) <;> simp

@[simp] theorem State.abortCounted_frame (s : State) :
    (s.abortCounted).tb = s.tb ∧ (s.abortCounted).loader = s.loader ∧ (s.abortCounted).cfg = s.cfg ∧
    (s.abortCounted).replies = s.replies ∧ (s.abortCounted).castends = s.castends ∧
    (s.abortCounted).book = s.book ∧ (s.abortCounted).elock = s.elock ∧ (s.abortCounted).free = s.free ∧
    (s.abortCounted).pending = s.pending := by
  and_intros <;> unfold State.abortCounted <;> (try dsimp only) <;> (repeat' split) <;> simp

@[simp] theorem State.stopSending_frame (s : State) (other : Bool) :
    (s.stopSending other).tb = s.tb ∧ (s.stopSending other).loader = s.loader ∧
    (s.stopSending other).cfg = s.cfg ∧ (s.stopSending other).peers = s.peers ∧
    (s.stopSending other).claims = s.claims ∧ (s.stopSending other).own = s.own ∧
    (s.stopSending other).chans = s.chans ∧ (s.stopSending other).turner = s.turner ∧
    (s.stopSending other).replies = s.replies ∧ (s.stopSending other).castends = s.castends ∧
    (s.stopSending other).book = s.book ∧ (s.stopSending other).panel = s.panel ∧
    (s.stopSending other).elock = s.elock ∧ (s.stopSending other).free = s.free ∧
    (s.stopSending other).pending = s.pending := by
  and_intros <;> unfold State.stopSending <;> (try dsimp only) <;> (repeat' split) <;> simp

@[simp] theorem State.cutShort_frame (s : State) (other : Bool) :
    (s.cutShort other).tb = s.tb ∧ (s.cutShort other).loader = s.loader ∧ (s.cutShort other).cfg = s.cfg ∧
    (s.cutShort other).peers = s.peers ∧ (s.cutShort other).claims = s.claims ∧ (s.cutShort other).own = s.own ∧
    (s.cutShort other).chans = s.chans ∧ (s.cutShort other).turner = s.turner ∧
    (s.cutShort other).replies = s.replies ∧ (s.cutShort other).castends = s.castends ∧
    (s.cutShort other).book = s.book ∧ (s.cutShort other).panel = s.panel ∧ (s.cutShort other).elock = s.elock ∧
    (s.cutShort other).free = s.free ∧ (s.cutShort other).pending = s.pending := by
  and_intros <;> unfold State.cutShort <;> (try dsimp only) <;> (repeat' split) <;> simp

@[simp] theorem State.abortEnds_frame (s : State) (own : OwnFrame) (other : Bool) :
    (s.abortEnds own other).tb = s.tb ∧ (s.abortEnds own other).loader = s.loader ∧
    (s.abortEnds own other).cfg = s.cfg ∧ (s.abortEnds own other).peers = s.peers ∧
    (s.abortEnds own other).claims = s.claims ∧ (s.abortEnds own other).own = s.own ∧
    (s.abortEnds own other).chans = s.chans ∧ (s.abortEnds own other).turner = s.turner ∧
    (s.abortEnds own other).replies = s.replies ∧ (s.abortEnds own other).castends = s.castends ∧
    (s.abortEnds own other).book = s.book ∧ (s.abortEnds own other).panel = s.panel ∧
    (s.abortEnds own other).elock = s.elock ∧ (s.abortEnds own other).free = s.free ∧
    (s.abortEnds own other).pending = s.pending := by
  and_intros <;> unfold State.abortEnds <;> (try dsimp only) <;> (repeat' split) <;> simp

@[simp] theorem State.aborted_frame (s : State) (own : OwnFrame) (other : Bool) :
    (s.aborted own other).tb = s.tb ∧ (s.aborted own other).loader = s.loader ∧
    (s.aborted own other).cfg = s.cfg ∧ (s.aborted own other).replies = s.replies ∧
    (s.aborted own other).castends = s.castends ∧ (s.aborted own other).book = s.book ∧
    (s.aborted own other).elock = s.elock ∧ (s.aborted own other).free = s.free ∧
    (s.aborted own other).pending = s.pending := by
  and_intros <;> unfold State.aborted <;> (try dsimp only) <;> (repeat' split) <;> simp

@[simp] theorem State.applyMerge_frame (s : State) (c : Fin 6) :
    (s.applyMerge c).tb = s.tb ∧ (s.applyMerge c).loader = s.loader ∧ (s.applyMerge c).cfg = s.cfg ∧
    (s.applyMerge c).line = s.line ∧ (s.applyMerge c).peers = s.peers ∧ (s.applyMerge c).claims = s.claims ∧
    (s.applyMerge c).chans = s.chans ∧ (s.applyMerge c).turner = s.turner ∧
    (s.applyMerge c).replies = s.replies ∧ (s.applyMerge c).castends = s.castends ∧
    (s.applyMerge c).book = s.book ∧ (s.applyMerge c).panel = s.panel ∧ (s.applyMerge c).elock = s.elock ∧
    (s.applyMerge c).free = s.free ∧ (s.applyMerge c).pending = s.pending := by
  and_intros <;> unfold State.applyMerge <;> (try dsimp only) <;> (repeat' split) <;> simp

@[simp] theorem State.granted_frame (s : State) (o : OwnClaim) :
    (s.granted o).tb = s.tb ∧ (s.granted o).loader = s.loader ∧ (s.granted o).cfg = s.cfg ∧
    (s.granted o).line = s.line ∧ (s.granted o).peers = s.peers ∧ (s.granted o).claims = s.claims ∧
    (s.granted o).own = s.own ∧ (s.granted o).replies = s.replies ∧ (s.granted o).castends = s.castends ∧
    (s.granted o).book = s.book ∧ (s.granted o).panel = s.panel ∧ (s.granted o).elock = s.elock ∧
    (s.granted o).free = s.free ∧ (s.granted o).pending = s.pending := by
  and_intros <;> unfold State.granted <;> (try dsimp only) <;> (repeat' split) <;> simp

@[simp] theorem State.updateOwn_frame (s : State) (items : List ClaimItem) :
    (s.updateOwn items).tb = s.tb ∧ (s.updateOwn items).loader = s.loader ∧ (s.updateOwn items).cfg = s.cfg ∧
    (s.updateOwn items).line = s.line ∧ (s.updateOwn items).peers = s.peers ∧
    (s.updateOwn items).claims = s.claims ∧ (s.updateOwn items).replies = s.replies ∧
    (s.updateOwn items).castends = s.castends ∧ (s.updateOwn items).book = s.book ∧
    (s.updateOwn items).panel = s.panel ∧ (s.updateOwn items).elock = s.elock ∧
    (s.updateOwn items).free = s.free ∧ (s.updateOwn items).pending = s.pending := by
  and_intros <;> unfold State.updateOwn <;> (try dsimp only) <;> (repeat' split) <;> simp

@[simp] theorem State.captureRead_frame (s : State) (c : Fin 6) :
    (s.captureRead c).tb = s.tb ∧ (s.captureRead c).loader = s.loader ∧ (s.captureRead c).cfg = s.cfg ∧
    (s.captureRead c).line = s.line ∧ (s.captureRead c).peers = s.peers ∧ (s.captureRead c).claims = s.claims ∧
    (s.captureRead c).turner = s.turner ∧ (s.captureRead c).replies = s.replies ∧
    (s.captureRead c).elock = s.elock ∧ (s.captureRead c).free = s.free ∧
    (s.captureRead c).pending = s.pending := by
  and_intros <;> unfold State.captureRead <;> (try dsimp only) <;> (repeat' split) <;> simp

@[simp] theorem State.ownEntry_frame (s : State) (round : Word16) (e : EntryItem) :
    (s.ownEntry round e).tb = s.tb ∧ (s.ownEntry round e).loader = s.loader ∧
    (s.ownEntry round e).cfg = s.cfg ∧ (s.ownEntry round e).line = s.line ∧
    (s.ownEntry round e).peers = s.peers ∧ (s.ownEntry round e).claims = s.claims ∧
    (s.ownEntry round e).turner = s.turner ∧ (s.ownEntry round e).replies = s.replies ∧
    (s.ownEntry round e).elock = s.elock ∧ (s.ownEntry round e).free = s.free ∧
    (s.ownEntry round e).pending = s.pending := by
  and_intros <;> unfold State.ownEntry <;> (try dsimp only) <;> (repeat' split) <;> simp

@[simp] theorem State.ownEntries_frame (s : State) (f : TurnFrame) :
    (s.ownEntries f).tb = s.tb ∧ (s.ownEntries f).loader = s.loader ∧ (s.ownEntries f).cfg = s.cfg ∧
    (s.ownEntries f).line = s.line ∧ (s.ownEntries f).peers = s.peers ∧ (s.ownEntries f).claims = s.claims ∧
    (s.ownEntries f).turner = s.turner ∧ (s.ownEntries f).replies = s.replies ∧
    (s.ownEntries f).elock = s.elock ∧ (s.ownEntries f).free = s.free ∧
    (s.ownEntries f).pending = s.pending := by
  and_intros <;> unfold State.ownEntries <;> (try dsimp only) <;> (repeat' split) <;> simp

@[simp] theorem State.transferItems_frame (s : State) (f : TurnFrame) (own : Bool) :
    (s.transferItems f own).tb = s.tb ∧ (s.transferItems f own).loader = s.loader ∧
    (s.transferItems f own).cfg = s.cfg ∧ (s.transferItems f own).line = s.line ∧
    (s.transferItems f own).peers = s.peers ∧ (s.transferItems f own).claims = s.claims ∧
    (s.transferItems f own).turner = s.turner ∧ (s.transferItems f own).elock = s.elock ∧
    (s.transferItems f own).free = s.free ∧ (s.transferItems f own).pending = s.pending := by
  and_intros <;> unfold State.transferItems <;> (try dsimp only) <;> (repeat' split) <;> simp

@[simp] theorem State.removeCarried_frame (s : State) :
    (s.removeCarried).tb = s.tb ∧ (s.removeCarried).loader = s.loader ∧ (s.removeCarried).cfg = s.cfg ∧
    (s.removeCarried).line = s.line ∧ (s.removeCarried).peers = s.peers ∧ (s.removeCarried).claims = s.claims ∧
    (s.removeCarried).own = s.own ∧ (s.removeCarried).chans = s.chans ∧ (s.removeCarried).book = s.book ∧
    (s.removeCarried).panel = s.panel ∧ (s.removeCarried).elock = s.elock ∧ (s.removeCarried).free = s.free ∧
    (s.removeCarried).pending = s.pending := by
  and_intros <;> unfold State.removeCarried <;> (try dsimp only) <;> (repeat' split) <;> simp

@[simp] theorem State.ownContent_frame (s : State) (f : TurnFrame) (turnerOk : Bool) :
    (s.ownContent f turnerOk).tb = s.tb ∧ (s.ownContent f turnerOk).loader = s.loader ∧
    (s.ownContent f turnerOk).cfg = s.cfg ∧ (s.ownContent f turnerOk).elock = s.elock ∧
    (s.ownContent f turnerOk).free = s.free ∧ (s.ownContent f turnerOk).pending = s.pending := by
  and_intros <;> unfold State.ownContent <;> (try dsimp only) <;> (repeat' split) <;> simp

@[simp] theorem State.ownEnd_frame (s : State) :
    (s.ownEnd).tb = s.tb ∧ (s.ownEnd).loader = s.loader ∧ (s.ownEnd).cfg = s.cfg ∧ (s.ownEnd).peers = s.peers ∧
    (s.ownEnd).claims = s.claims ∧ (s.ownEnd).own = s.own ∧ (s.ownEnd).chans = s.chans ∧
    (s.ownEnd).turner = s.turner ∧ (s.ownEnd).replies = s.replies ∧ (s.ownEnd).castends = s.castends ∧
    (s.ownEnd).book = s.book ∧ (s.ownEnd).panel = s.panel ∧ (s.ownEnd).elock = s.elock ∧
    (s.ownEnd).free = s.free ∧ (s.ownEnd).pending = s.pending := by
  and_intros <;> unfold State.ownEnd <;> (try dsimp only) <;> (repeat' split) <;> simp

@[simp] theorem State.turnRead_frame (s : State) (f : TurnFrame) (turnerOk : Bool) :
    (s.turnRead f turnerOk).tb = s.tb ∧ (s.turnRead f turnerOk).loader = s.loader ∧
    (s.turnRead f turnerOk).cfg = s.cfg ∧ (s.turnRead f turnerOk).elock = s.elock ∧
    (s.turnRead f turnerOk).free = s.free ∧ (s.turnRead f turnerOk).pending = s.pending := by
  and_intros <;> unfold State.turnRead <;> (try dsimp only) <;> (repeat' split) <;> simp

@[simp] theorem State.coldRead_frame (s : State) (f : TurnFrame) (turnerOk : Bool) :
    (s.coldRead f turnerOk).tb = s.tb ∧ (s.coldRead f turnerOk).loader = s.loader ∧
    (s.coldRead f turnerOk).cfg = s.cfg ∧ (s.coldRead f turnerOk).elock = s.elock ∧
    (s.coldRead f turnerOk).free = s.free ∧ (s.coldRead f turnerOk).pending = s.pending := by
  and_intros <;> unfold State.coldRead <;> (try dsimp only) <;> (repeat' split) <;> simp

@[simp] theorem State.joinRead_frame (s : State) :
    (s.joinRead).tb = s.tb ∧ (s.joinRead).loader = s.loader ∧ (s.joinRead).cfg = s.cfg ∧
    (s.joinRead).claims = s.claims ∧ (s.joinRead).own = s.own ∧ (s.joinRead).chans = s.chans ∧
    (s.joinRead).turner = s.turner ∧ (s.joinRead).replies = s.replies ∧ (s.joinRead).castends = s.castends ∧
    (s.joinRead).book = s.book ∧ (s.joinRead).elock = s.elock ∧ (s.joinRead).free = s.free ∧
    (s.joinRead).pending = s.pending := by
  and_intros <;> unfold State.joinRead <;> (try dsimp only) <;> (repeat' split) <;> simp

@[simp] theorem State.frameEnd_frame (s : State) :
    (s.frameEnd).tb = s.tb ∧ (s.frameEnd).loader = s.loader ∧ (s.frameEnd).cfg = s.cfg ∧
    (s.frameEnd).peers = s.peers ∧ (s.frameEnd).claims = s.claims ∧ (s.frameEnd).own = s.own ∧
    (s.frameEnd).chans = s.chans ∧ (s.frameEnd).turner = s.turner ∧ (s.frameEnd).replies = s.replies ∧
    (s.frameEnd).castends = s.castends ∧ (s.frameEnd).book = s.book ∧ (s.frameEnd).panel = s.panel ∧
    (s.frameEnd).elock = s.elock ∧ (s.frameEnd).free = s.free ∧ (s.frameEnd).pending = s.pending := by
  and_intros <;> unfold State.frameEnd <;> (try dsimp only) <;> (repeat' split) <;> simp

@[simp] theorem State.restartCold_frame (s : State) :
    (s.restartCold).tb = s.tb ∧ (s.restartCold).loader = s.loader ∧ (s.restartCold).cfg = s.cfg ∧
    (s.restartCold).peers = s.peers ∧ (s.restartCold).claims = s.claims ∧ (s.restartCold).own = s.own ∧
    (s.restartCold).chans = s.chans ∧ (s.restartCold).turner = s.turner ∧ (s.restartCold).replies = s.replies ∧
    (s.restartCold).castends = s.castends ∧ (s.restartCold).book = s.book ∧ (s.restartCold).panel = s.panel ∧
    (s.restartCold).elock = s.elock ∧ (s.restartCold).free = s.free ∧ (s.restartCold).pending = s.pending := by
  and_intros <;> unfold State.restartCold <;> (try dsimp only) <;> (repeat' split) <;> simp

@[simp] theorem State.duplicate_frame (s : State) :
    (s.duplicate).tb = s.tb ∧ (s.duplicate).loader = s.loader ∧ (s.duplicate).cfg = s.cfg ∧
    (s.duplicate).replies = s.replies ∧ (s.duplicate).castends = s.castends ∧ (s.duplicate).book = s.book ∧
    (s.duplicate).elock = s.elock ∧ (s.duplicate).free = s.free ∧ (s.duplicate).pending = s.pending := by
  and_intros <;> unfold State.duplicate <;> (try dsimp only) <;> (repeat' split) <;> simp

@[simp] theorem State.hearRound_frame (s : State) (f : TurnFrame) (late : Bool) :
    (s.hearRound f late).tb = s.tb ∧ (s.hearRound f late).loader = s.loader ∧
    (s.hearRound f late).cfg = s.cfg ∧ (s.hearRound f late).peers = s.peers ∧
    (s.hearRound f late).turner = s.turner ∧ (s.hearRound f late).replies = s.replies ∧
    (s.hearRound f late).castends = s.castends ∧ (s.hearRound f late).elock = s.elock ∧
    (s.hearRound f late).free = s.free ∧ (s.hearRound f late).pending = s.pending := by
  and_intros <;> unfold State.hearRound <;> (try dsimp only) <;> (repeat' split) <;> simp

@[simp] theorem State.hearContent_frame (s : State) (f : TurnFrame) :
    (s.hearContent f).tb = s.tb ∧ (s.hearContent f).loader = s.loader ∧ (s.hearContent f).cfg = s.cfg ∧
    (s.hearContent f).elock = s.elock ∧ (s.hearContent f).free = s.free ∧
    (s.hearContent f).pending = s.pending := by
  and_intros <;> unfold State.hearContent <;> (try dsimp only) <;> (repeat' split) <;> simp

@[simp] theorem State.hearTurn_frame (s : State) (f : TurnFrame) :
    (s.hearTurn f).tb = s.tb ∧ (s.hearTurn f).loader = s.loader ∧ (s.hearTurn f).cfg = s.cfg ∧
    (s.hearTurn f).elock = s.elock ∧ (s.hearTurn f).free = s.free ∧ (s.hearTurn f).pending = s.pending := by
  and_intros <;> unfold State.hearTurn <;> (try dsimp only) <;> (repeat' split) <;> simp

@[simp] theorem State.hearJoin_frame (s : State) (f : JoinFrame) :
    (s.hearJoin f).tb = s.tb ∧ (s.hearJoin f).loader = s.loader ∧ (s.hearJoin f).cfg = s.cfg ∧
    (s.hearJoin f).replies = s.replies ∧ (s.hearJoin f).castends = s.castends ∧ (s.hearJoin f).book = s.book ∧
    (s.hearJoin f).elock = s.elock ∧ (s.hearJoin f).free = s.free ∧ (s.hearJoin f).pending = s.pending := by
  and_intros <;> unfold State.hearJoin <;> (try dsimp only) <;> (repeat' split) <;> simp

@[simp] theorem State.checkFailed_frame (s : State) :
    (s.checkFailed).tb = s.tb ∧ (s.checkFailed).loader = s.loader ∧ (s.checkFailed).cfg = s.cfg ∧
    (s.checkFailed).peers = s.peers ∧ (s.checkFailed).claims = s.claims ∧ (s.checkFailed).own = s.own ∧
    (s.checkFailed).chans = s.chans ∧ (s.checkFailed).turner = s.turner ∧ (s.checkFailed).replies = s.replies ∧
    (s.checkFailed).castends = s.castends ∧ (s.checkFailed).book = s.book ∧ (s.checkFailed).panel = s.panel ∧
    (s.checkFailed).elock = s.elock ∧ (s.checkFailed).free = s.free ∧ (s.checkFailed).pending = s.pending := by
  and_intros <;> unfold State.checkFailed <;> (try dsimp only) <;> (repeat' split) <;> simp

@[simp] theorem State.hearGarbled_frame (s : State) :
    (s.hearGarbled).tb = s.tb ∧ (s.hearGarbled).loader = s.loader ∧ (s.hearGarbled).cfg = s.cfg ∧
    (s.hearGarbled).elock = s.elock ∧ (s.hearGarbled).free = s.free ∧ (s.hearGarbled).pending = s.pending := by
  and_intros <;> unfold State.hearGarbled <;> (try dsimp only) <;> (repeat' split) <;> simp

/-! ## Arrivals -/

@[simp] theorem State.sensorEvent_frame (s : State) (c : Fin 6) (i : Input) (word : Nat) :
    (s.sensorEvent c i word).tb = s.tb ∧ (s.sensorEvent c i word).loader = s.loader ∧
    (s.sensorEvent c i word).cfg = s.cfg ∧ (s.sensorEvent c i word).line = s.line ∧
    (s.sensorEvent c i word).peers = s.peers ∧ (s.sensorEvent c i word).claims = s.claims ∧
    (s.sensorEvent c i word).own = s.own ∧ (s.sensorEvent c i word).chans = s.chans ∧
    (s.sensorEvent c i word).turner = s.turner ∧ (s.sensorEvent c i word).replies = s.replies ∧
    (s.sensorEvent c i word).castends = s.castends ∧ (s.sensorEvent c i word).book = s.book ∧
    (s.sensorEvent c i word).elock = s.elock ∧ (s.sensorEvent c i word).free = s.free ∧
    (s.sensorEvent c i word).pending = s.pending := by
  and_intros <;> unfold State.sensorEvent <;> (try dsimp only) <;> (repeat' split) <;> simp

@[simp] theorem State.sensorChange_frame (s : State) (c : Fin 6) (i : Input) (was is : Bool) :
    (s.sensorChange c i was is).tb = s.tb ∧ (s.sensorChange c i was is).loader = s.loader ∧
    (s.sensorChange c i was is).cfg = s.cfg ∧ (s.sensorChange c i was is).line = s.line ∧
    (s.sensorChange c i was is).peers = s.peers ∧ (s.sensorChange c i was is).claims = s.claims ∧
    (s.sensorChange c i was is).own = s.own ∧ (s.sensorChange c i was is).chans = s.chans ∧
    (s.sensorChange c i was is).turner = s.turner ∧ (s.sensorChange c i was is).replies = s.replies ∧
    (s.sensorChange c i was is).castends = s.castends ∧ (s.sensorChange c i was is).book = s.book ∧
    (s.sensorChange c i was is).elock = s.elock ∧ (s.sensorChange c i was is).free = s.free ∧
    (s.sensorChange c i was is).pending = s.pending := by
  and_intros <;> unfold State.sensorChange <;> (try dsimp only) <;> (repeat' split) <;> simp

@[simp] theorem State.sample_frame (s : State) (c : Fin 6) (raw : RawArrival) :
    (s.sample c raw).tb = s.tb ∧ (s.sample c raw).loader = s.loader ∧ (s.sample c raw).cfg = s.cfg ∧
    (s.sample c raw).line = s.line ∧ (s.sample c raw).peers = s.peers ∧ (s.sample c raw).claims = s.claims ∧
    (s.sample c raw).own = s.own ∧ (s.sample c raw).turner = s.turner ∧ (s.sample c raw).replies = s.replies ∧
    (s.sample c raw).castends = s.castends ∧ (s.sample c raw).book = s.book ∧
    (s.sample c raw).elock = s.elock ∧ (s.sample c raw).free = s.free ∧
    (s.sample c raw).pending = s.pending := by
  and_intros <;> unfold State.sample <;> (try dsimp only) <;> (repeat' split) <;> simp

@[simp] theorem State.judgeInput_frame (s : State) (c : Fin 6) (i : Input) :
    (s.judgeInput c i).tb = s.tb ∧ (s.judgeInput c i).loader = s.loader ∧ (s.judgeInput c i).cfg = s.cfg ∧
    (s.judgeInput c i).line = s.line ∧ (s.judgeInput c i).peers = s.peers ∧
    (s.judgeInput c i).claims = s.claims ∧ (s.judgeInput c i).turner = s.turner ∧
    (s.judgeInput c i).replies = s.replies ∧ (s.judgeInput c i).elock = s.elock ∧
    (s.judgeInput c i).free = s.free ∧ (s.judgeInput c i).pending = s.pending := by
  and_intros <;> unfold State.judgeInput <;> (try dsimp only) <;> (repeat' split) <;> simp

@[simp] theorem State.judgeInputs_frame (s : State) (c : Fin 6) :
    (s.judgeInputs c).tb = s.tb ∧ (s.judgeInputs c).loader = s.loader ∧ (s.judgeInputs c).cfg = s.cfg ∧
    (s.judgeInputs c).line = s.line ∧ (s.judgeInputs c).peers = s.peers ∧ (s.judgeInputs c).claims = s.claims ∧
    (s.judgeInputs c).turner = s.turner ∧ (s.judgeInputs c).replies = s.replies ∧
    (s.judgeInputs c).elock = s.elock ∧ (s.judgeInputs c).free = s.free ∧
    (s.judgeInputs c).pending = s.pending := by
  and_intros <;> unfold State.judgeInputs <;> (try dsimp only) <;> (repeat' split) <;> simp

@[simp] theorem State.accumulate_frame (s : State) (c : Fin 6) :
    (s.accumulate c).tb = s.tb ∧ (s.accumulate c).loader = s.loader ∧ (s.accumulate c).cfg = s.cfg ∧
    (s.accumulate c).line = s.line ∧ (s.accumulate c).peers = s.peers ∧ (s.accumulate c).claims = s.claims ∧
    (s.accumulate c).own = s.own ∧ (s.accumulate c).turner = s.turner ∧ (s.accumulate c).replies = s.replies ∧
    (s.accumulate c).castends = s.castends ∧ (s.accumulate c).book = s.book ∧
    (s.accumulate c).panel = s.panel ∧ (s.accumulate c).elock = s.elock ∧ (s.accumulate c).free = s.free ∧
    (s.accumulate c).pending = s.pending := by
  and_intros <;> unfold State.accumulate <;> (try dsimp only) <;> (repeat' split) <;> simp

@[simp] theorem State.captureLevel_frame (s : State) (c : Fin 6) (run : SteadyRun) :
    (s.captureLevel c run).tb = s.tb ∧ (s.captureLevel c run).loader = s.loader ∧
    (s.captureLevel c run).cfg = s.cfg ∧ (s.captureLevel c run).line = s.line ∧
    (s.captureLevel c run).peers = s.peers ∧ (s.captureLevel c run).claims = s.claims ∧
    (s.captureLevel c run).own = s.own ∧ (s.captureLevel c run).turner = s.turner ∧
    (s.captureLevel c run).replies = s.replies ∧ (s.captureLevel c run).castends = s.castends ∧
    (s.captureLevel c run).panel = s.panel ∧ (s.captureLevel c run).elock = s.elock ∧
    (s.captureLevel c run).free = s.free ∧ (s.captureLevel c run).pending = s.pending := by
  and_intros <;> unfold State.captureLevel <;> (try dsimp only) <;> (repeat' split) <;> simp

@[simp] theorem State.judgeLevel_frame (s : State) (c : Fin 6) (level : Option Int) :
    (s.judgeLevel c level).tb = s.tb ∧ (s.judgeLevel c level).loader = s.loader ∧
    (s.judgeLevel c level).cfg = s.cfg ∧ (s.judgeLevel c level).line = s.line ∧
    (s.judgeLevel c level).peers = s.peers ∧ (s.judgeLevel c level).claims = s.claims ∧
    (s.judgeLevel c level).own = s.own ∧ (s.judgeLevel c level).turner = s.turner ∧
    (s.judgeLevel c level).replies = s.replies ∧ (s.judgeLevel c level).castends = s.castends ∧
    (s.judgeLevel c level).panel = s.panel ∧ (s.judgeLevel c level).elock = s.elock ∧
    (s.judgeLevel c level).free = s.free ∧ (s.judgeLevel c level).pending = s.pending := by
  and_intros <;> unfold State.judgeLevel <;> (try dsimp only) <;> (repeat' split) <;> simp

@[simp] theorem State.fillEnd_frame (s : State) (c : Fin 6) (r : PhaseRecord) :
    (s.fillEnd c r).tb = s.tb ∧ (s.fillEnd c r).loader = s.loader ∧ (s.fillEnd c r).cfg = s.cfg ∧
    (s.fillEnd c r).line = s.line ∧ (s.fillEnd c r).peers = s.peers ∧ (s.fillEnd c r).claims = s.claims ∧
    (s.fillEnd c r).turner = s.turner ∧ (s.fillEnd c r).replies = s.replies ∧
    (s.fillEnd c r).castends = s.castends ∧ (s.fillEnd c r).book = s.book ∧ (s.fillEnd c r).panel = s.panel ∧
    (s.fillEnd c r).elock = s.elock ∧ (s.fillEnd c r).free = s.free ∧ (s.fillEnd c r).pending = s.pending := by
  and_intros <;> unfold State.fillEnd <;> (try dsimp only) <;> (repeat' split) <;> simp

@[simp] theorem State.drainEnd_frame (s : State) (c : Fin 6) :
    (s.drainEnd c).tb = s.tb ∧ (s.drainEnd c).loader = s.loader ∧ (s.drainEnd c).cfg = s.cfg ∧
    (s.drainEnd c).line = s.line ∧ (s.drainEnd c).peers = s.peers ∧ (s.drainEnd c).claims = s.claims ∧
    (s.drainEnd c).own = s.own ∧ (s.drainEnd c).turner = s.turner ∧ (s.drainEnd c).replies = s.replies ∧
    (s.drainEnd c).castends = s.castends ∧ (s.drainEnd c).book = s.book ∧ (s.drainEnd c).panel = s.panel ∧
    (s.drainEnd c).elock = s.elock ∧ (s.drainEnd c).free = s.free ∧ (s.drainEnd c).pending = s.pending := by
  and_intros <;> unfold State.drainEnd <;> (try dsimp only) <;> (repeat' split) <;> simp

@[simp] theorem State.castEnd_frame (s : State) (c : Fin 6) :
    (s.castEnd c).tb = s.tb ∧ (s.castEnd c).loader = s.loader ∧ (s.castEnd c).cfg = s.cfg ∧
    (s.castEnd c).line = s.line ∧ (s.castEnd c).peers = s.peers ∧ (s.castEnd c).claims = s.claims ∧
    (s.castEnd c).turner = s.turner ∧ (s.castEnd c).replies = s.replies ∧ (s.castEnd c).book = s.book ∧
    (s.castEnd c).panel = s.panel ∧ (s.castEnd c).elock = s.elock ∧ (s.castEnd c).free = s.free ∧
    (s.castEnd c).pending = s.pending := by
  and_intros <;> unfold State.castEnd <;> (try dsimp only) <;> (repeat' split) <;> simp

@[simp] theorem State.fillShed_frame (s : State) (c : Fin 6) :
    (s.fillShed c).tb = s.tb ∧ (s.fillShed c).loader = s.loader ∧ (s.fillShed c).cfg = s.cfg ∧
    (s.fillShed c).line = s.line ∧ (s.fillShed c).peers = s.peers ∧ (s.fillShed c).claims = s.claims ∧
    (s.fillShed c).turner = s.turner ∧ (s.fillShed c).replies = s.replies ∧
    (s.fillShed c).castends = s.castends ∧ (s.fillShed c).book = s.book ∧ (s.fillShed c).elock = s.elock ∧
    (s.fillShed c).free = s.free ∧ (s.fillShed c).pending = s.pending := by
  and_intros <;> unfold State.fillShed <;> (try dsimp only) <;> (repeat' split) <;> simp

@[simp] theorem State.steepRunning_frame (s : State) (c : Fin 6) (r : PhaseRecord) :
    (s.steepRunning c r).tb = s.tb ∧ (s.steepRunning c r).loader = s.loader ∧
    (s.steepRunning c r).cfg = s.cfg ∧ (s.steepRunning c r).line = s.line ∧
    (s.steepRunning c r).peers = s.peers ∧ (s.steepRunning c r).claims = s.claims ∧
    (s.steepRunning c r).turner = s.turner ∧ (s.steepRunning c r).replies = s.replies ∧
    (s.steepRunning c r).elock = s.elock ∧ (s.steepRunning c r).free = s.free ∧
    (s.steepRunning c r).pending = s.pending := by
  and_intros <;> unfold State.steepRunning <;> (try dsimp only) <;> (repeat' split) <;> simp

@[simp] theorem State.steepArrival_frame (s : State) (c : Fin 6) :
    (s.steepArrival c).tb = s.tb ∧ (s.steepArrival c).loader = s.loader ∧ (s.steepArrival c).cfg = s.cfg ∧
    (s.steepArrival c).line = s.line ∧ (s.steepArrival c).peers = s.peers ∧
    (s.steepArrival c).claims = s.claims ∧ (s.steepArrival c).turner = s.turner ∧
    (s.steepArrival c).replies = s.replies ∧ (s.steepArrival c).elock = s.elock ∧
    (s.steepArrival c).free = s.free ∧ (s.steepArrival c).pending = s.pending := by
  and_intros <;> unfold State.steepArrival <;> (try dsimp only) <;> (repeat' split) <;> simp

@[simp] theorem State.askTopUp_frame (s : State) (c : Fin 6) :
    (s.askTopUp c).tb = s.tb ∧ (s.askTopUp c).loader = s.loader ∧ (s.askTopUp c).cfg = s.cfg ∧
    (s.askTopUp c).line = s.line ∧ (s.askTopUp c).peers = s.peers ∧ (s.askTopUp c).claims = s.claims ∧
    (s.askTopUp c).turner = s.turner ∧ (s.askTopUp c).replies = s.replies ∧
    (s.askTopUp c).castends = s.castends ∧ (s.askTopUp c).book = s.book ∧ (s.askTopUp c).panel = s.panel ∧
    (s.askTopUp c).elock = s.elock ∧ (s.askTopUp c).free = s.free ∧ (s.askTopUp c).pending = s.pending := by
  and_intros <;> unfold State.askTopUp <;> (try dsimp only) <;> (repeat' split) <;> simp

@[simp] theorem State.judgeLimited_frame (s : State) (c : Fin 6) :
    (s.judgeLimited c).tb = s.tb ∧ (s.judgeLimited c).loader = s.loader ∧ (s.judgeLimited c).cfg = s.cfg ∧
    (s.judgeLimited c).line = s.line ∧ (s.judgeLimited c).peers = s.peers ∧
    (s.judgeLimited c).claims = s.claims ∧ (s.judgeLimited c).turner = s.turner ∧
    (s.judgeLimited c).replies = s.replies ∧ (s.judgeLimited c).castends = s.castends ∧
    (s.judgeLimited c).book = s.book ∧ (s.judgeLimited c).panel = s.panel ∧
    (s.judgeLimited c).elock = s.elock ∧ (s.judgeLimited c).free = s.free ∧
    (s.judgeLimited c).pending = s.pending := by
  and_intros <;> unfold State.judgeLimited <;> (try dsimp only) <;> (repeat' split) <;> simp

@[simp] theorem State.fanLaw_frame (s : State) (c : Fin 6) (r : PhaseRecord) :
    (s.fanLaw c r).tb = s.tb ∧ (s.fanLaw c r).loader = s.loader ∧ (s.fanLaw c r).cfg = s.cfg ∧
    (s.fanLaw c r).line = s.line ∧ (s.fanLaw c r).peers = s.peers ∧ (s.fanLaw c r).claims = s.claims ∧
    (s.fanLaw c r).turner = s.turner ∧ (s.fanLaw c r).replies = s.replies ∧
    (s.fanLaw c r).castends = s.castends ∧ (s.fanLaw c r).book = s.book ∧ (s.fanLaw c r).elock = s.elock ∧
    (s.fanLaw c r).free = s.free ∧ (s.fanLaw c r).pending = s.pending := by
  and_intros <;> unfold State.fanLaw <;> (try dsimp only) <;> (repeat' split) <;> simp

@[simp] theorem State.boxArrival_frame (s : State) (c : Fin 6) :
    (s.boxArrival c).tb = s.tb ∧ (s.boxArrival c).loader = s.loader ∧ (s.boxArrival c).cfg = s.cfg ∧
    (s.boxArrival c).line = s.line ∧ (s.boxArrival c).peers = s.peers ∧ (s.boxArrival c).claims = s.claims ∧
    (s.boxArrival c).turner = s.turner ∧ (s.boxArrival c).replies = s.replies ∧
    (s.boxArrival c).elock = s.elock ∧ (s.boxArrival c).free = s.free ∧
    (s.boxArrival c).pending = s.pending := by
  and_intros <;> unfold State.boxArrival <;> (try dsimp only) <;> (repeat' split) <;> simp

@[simp] theorem State.fire_frame (s : State) (c : Fin 6) (r : PhaseRecord) :
    (s.fire c r).tb = s.tb ∧ (s.fire c r).loader = s.loader ∧ (s.fire c r).cfg = s.cfg ∧
    (s.fire c r).line = s.line ∧ (s.fire c r).peers = s.peers ∧ (s.fire c r).claims = s.claims ∧
    (s.fire c r).own = s.own ∧ (s.fire c r).turner = s.turner ∧ (s.fire c r).replies = s.replies ∧
    (s.fire c r).castends = s.castends ∧ (s.fire c r).book = s.book ∧ (s.fire c r).panel = s.panel ∧
    (s.fire c r).elock = s.elock ∧ (s.fire c r).free = s.free ∧ (s.fire c r).pending = s.pending := by
  and_intros <;> unfold State.fire <;> (try dsimp only) <;> (repeat' split) <;> simp

@[simp] theorem State.burnerLaw_frame (s : State) (c : Fin 6) (r : PhaseRecord) :
    (s.burnerLaw c r).tb = s.tb ∧ (s.burnerLaw c r).loader = s.loader ∧ (s.burnerLaw c r).cfg = s.cfg ∧
    (s.burnerLaw c r).line = s.line ∧ (s.burnerLaw c r).peers = s.peers ∧ (s.burnerLaw c r).claims = s.claims ∧
    (s.burnerLaw c r).turner = s.turner ∧ (s.burnerLaw c r).replies = s.replies ∧
    (s.burnerLaw c r).elock = s.elock ∧ (s.burnerLaw c r).free = s.free ∧
    (s.burnerLaw c r).pending = s.pending := by
  and_intros <;> unfold State.burnerLaw <;> (try dsimp only) <;> (repeat' split) <;> simp

@[simp] theorem State.burnerArrival_frame (s : State) (c : Fin 6) :
    (s.burnerArrival c).tb = s.tb ∧ (s.burnerArrival c).loader = s.loader ∧ (s.burnerArrival c).cfg = s.cfg ∧
    (s.burnerArrival c).line = s.line ∧ (s.burnerArrival c).peers = s.peers ∧
    (s.burnerArrival c).claims = s.claims ∧ (s.burnerArrival c).turner = s.turner ∧
    (s.burnerArrival c).replies = s.replies ∧ (s.burnerArrival c).elock = s.elock ∧
    (s.burnerArrival c).free = s.free ∧ (s.burnerArrival c).pending = s.pending := by
  and_intros <;> unfold State.burnerArrival <;> (try dsimp only) <;> (repeat' split) <;> simp

@[simp] theorem State.judgeBreak_frame (s : State) (c : Fin 6) (r : PhaseRecord) :
    (s.judgeBreak c r).tb = s.tb ∧ (s.judgeBreak c r).loader = s.loader ∧ (s.judgeBreak c r).cfg = s.cfg ∧
    (s.judgeBreak c r).line = s.line ∧ (s.judgeBreak c r).peers = s.peers ∧
    (s.judgeBreak c r).claims = s.claims ∧ (s.judgeBreak c r).turner = s.turner ∧
    (s.judgeBreak c r).replies = s.replies ∧ (s.judgeBreak c r).elock = s.elock ∧
    (s.judgeBreak c r).free = s.free ∧ (s.judgeBreak c r).pending = s.pending := by
  and_intros <;> unfold State.judgeBreak <;> (try dsimp only) <;> (repeat' split) <;> simp

@[simp] theorem State.makeMoisture_frame (s : State) (c : Fin 6) (values : List Int) :
    (s.makeMoisture c values).tb = s.tb ∧ (s.makeMoisture c values).loader = s.loader ∧
    (s.makeMoisture c values).cfg = s.cfg ∧ (s.makeMoisture c values).line = s.line ∧
    (s.makeMoisture c values).peers = s.peers ∧ (s.makeMoisture c values).claims = s.claims ∧
    (s.makeMoisture c values).own = s.own ∧ (s.makeMoisture c values).turner = s.turner ∧
    (s.makeMoisture c values).replies = s.replies ∧ (s.makeMoisture c values).castends = s.castends ∧
    (s.makeMoisture c values).panel = s.panel ∧ (s.makeMoisture c values).elock = s.elock ∧
    (s.makeMoisture c values).free = s.free ∧ (s.makeMoisture c values).pending = s.pending := by
  and_intros <;> unfold State.makeMoisture <;> (try dsimp only) <;> (repeat' split) <;> simp

@[simp] theorem State.addReading_frame (s : State) (c : Fin 6) (v : Int) :
    (s.addReading c v).tb = s.tb ∧ (s.addReading c v).loader = s.loader ∧ (s.addReading c v).cfg = s.cfg ∧
    (s.addReading c v).line = s.line ∧ (s.addReading c v).peers = s.peers ∧
    (s.addReading c v).claims = s.claims ∧ (s.addReading c v).own = s.own ∧
    (s.addReading c v).turner = s.turner ∧ (s.addReading c v).replies = s.replies ∧
    (s.addReading c v).castends = s.castends ∧ (s.addReading c v).panel = s.panel ∧
    (s.addReading c v).elock = s.elock ∧ (s.addReading c v).free = s.free ∧
    (s.addReading c v).pending = s.pending := by
  and_intros <;> unfold State.addReading <;> (try dsimp only) <;> (repeat' split) <;> simp

@[simp] theorem State.readMoisture_frame (s : State) (c : Fin 6) :
    (s.readMoisture c).tb = s.tb ∧ (s.readMoisture c).loader = s.loader ∧ (s.readMoisture c).cfg = s.cfg ∧
    (s.readMoisture c).line = s.line ∧ (s.readMoisture c).peers = s.peers ∧
    (s.readMoisture c).claims = s.claims ∧ (s.readMoisture c).own = s.own ∧
    (s.readMoisture c).turner = s.turner ∧ (s.readMoisture c).replies = s.replies ∧
    (s.readMoisture c).castends = s.castends ∧ (s.readMoisture c).panel = s.panel ∧
    (s.readMoisture c).elock = s.elock ∧ (s.readMoisture c).free = s.free ∧
    (s.readMoisture c).pending = s.pending := by
  and_intros <;> unfold State.readMoisture <;> (try dsimp only) <;> (repeat' split) <;> simp

@[simp] theorem State.kilnArrival_frame (s : State) (c : Fin 6) :
    (s.kilnArrival c).tb = s.tb ∧ (s.kilnArrival c).loader = s.loader ∧ (s.kilnArrival c).cfg = s.cfg ∧
    (s.kilnArrival c).line = s.line ∧ (s.kilnArrival c).peers = s.peers ∧ (s.kilnArrival c).claims = s.claims ∧
    (s.kilnArrival c).turner = s.turner ∧ (s.kilnArrival c).replies = s.replies ∧
    (s.kilnArrival c).elock = s.elock ∧ (s.kilnArrival c).free = s.free ∧
    (s.kilnArrival c).pending = s.pending := by
  and_intros <;> unfold State.kilnArrival <;> (try dsimp only) <;> (repeat' split) <;> simp

@[simp] theorem State.judgeOverload_frame (s : State) (active : Bool) :
    (s.judgeOverload active).tb = s.tb ∧ (s.judgeOverload active).loader = s.loader ∧
    (s.judgeOverload active).cfg = s.cfg ∧ (s.judgeOverload active).line = s.line ∧
    (s.judgeOverload active).peers = s.peers ∧ (s.judgeOverload active).claims = s.claims ∧
    (s.judgeOverload active).replies = s.replies ∧ (s.judgeOverload active).castends = s.castends ∧
    (s.judgeOverload active).book = s.book ∧ (s.judgeOverload active).elock = s.elock ∧
    (s.judgeOverload active).free = s.free ∧ (s.judgeOverload active).pending = s.pending := by
  and_intros <;> unfold State.judgeOverload <;> (try dsimp only) <;> (repeat' split) <;> simp

@[simp] theorem State.kindArrival_frame (s : State) (c : Fin 6) (raw : RawArrival) :
    (s.kindArrival c raw).tb = s.tb ∧ (s.kindArrival c raw).loader = s.loader ∧
    (s.kindArrival c raw).cfg = s.cfg ∧ (s.kindArrival c raw).line = s.line ∧
    (s.kindArrival c raw).peers = s.peers ∧ (s.kindArrival c raw).claims = s.claims ∧
    (s.kindArrival c raw).replies = s.replies ∧ (s.kindArrival c raw).elock = s.elock ∧
    (s.kindArrival c raw).free = s.free ∧ (s.kindArrival c raw).pending = s.pending := by
  and_intros <;> unfold State.kindArrival <;> (try dsimp only) <;> (repeat' split) <;> simp

@[simp] theorem State.arrival_frame (s : State) (c : Fin 6) (raw : RawArrival) :
    (s.arrival c raw).tb = s.tb ∧ (s.arrival c raw).loader = s.loader ∧ (s.arrival c raw).cfg = s.cfg ∧
    (s.arrival c raw).line = s.line ∧ (s.arrival c raw).peers = s.peers ∧ (s.arrival c raw).claims = s.claims ∧
    (s.arrival c raw).replies = s.replies ∧ (s.arrival c raw).elock = s.elock ∧
    (s.arrival c raw).free = s.free ∧ (s.arrival c raw).pending = s.pending := by
  and_intros <;> unfold State.arrival <;> (try dsimp only) <;> (repeat' split) <;> simp

/-! ## Restart -/

@[simp] theorem State.poweredUp_frame (s : State) (held : Bool) :
    (s.poweredUp held).free = s.free ∧ (s.poweredUp held).pending = s.pending := by
  and_intros <;> unfold State.poweredUp <;> (try dsimp only) <;> (repeat' split) <;> simp

@[simp] theorem State.pinTaken_frame (s : State) :
    (s.pinTaken).cfg = s.cfg ∧ (s.pinTaken).castends = s.castends ∧ (s.pinTaken).book = s.book ∧
    (s.pinTaken).elock = s.elock ∧ (s.pinTaken).free = s.free ∧ (s.pinTaken).pending = s.pending := by
  and_intros <;> unfold State.pinTaken <;> (try dsimp only) <;> (repeat' split) <;> simp

@[simp] theorem State.takePin_frame (s : State) :
    (s.takePin).free = s.free ∧ (s.takePin).pending = s.pending := by
  and_intros <;> unfold State.takePin <;> (try dsimp only) <;> (repeat' split) <;> simp

@[simp] theorem State.endReset_frame (s : State) :
    (s.endReset).cfg = s.cfg ∧ (s.endReset).line = s.line ∧ (s.endReset).peers = s.peers ∧
    (s.endReset).claims = s.claims ∧ (s.endReset).own = s.own ∧ (s.endReset).chans = s.chans ∧
    (s.endReset).turner = s.turner ∧ (s.endReset).replies = s.replies ∧ (s.endReset).castends = s.castends ∧
    (s.endReset).book = s.book ∧ (s.endReset).panel = s.panel ∧ (s.endReset).elock = s.elock ∧
    (s.endReset).free = s.free ∧ (s.endReset).pending = s.pending := by
  and_intros <;> unfold State.endReset <;> (try dsimp only) <;> (repeat' split) <;> simp

@[simp] theorem State.askSaved_frame (s : State) (c : Fin 6) (x : Saved) :
    (s.askSaved c x).tb = s.tb ∧ (s.askSaved c x).loader = s.loader ∧ (s.askSaved c x).cfg = s.cfg ∧
    (s.askSaved c x).line = s.line ∧ (s.askSaved c x).peers = s.peers ∧ (s.askSaved c x).claims = s.claims ∧
    (s.askSaved c x).chans = s.chans ∧ (s.askSaved c x).turner = s.turner ∧
    (s.askSaved c x).replies = s.replies ∧ (s.askSaved c x).castends = s.castends ∧
    (s.askSaved c x).book = s.book ∧ (s.askSaved c x).panel = s.panel ∧ (s.askSaved c x).elock = s.elock ∧
    (s.askSaved c x).free = s.free ∧ (s.askSaved c x).pending = s.pending := by
  and_intros <;> unfold State.askSaved <;> (try dsimp only) <;> (repeat' split) <;> simp

@[simp] theorem State.askRestart_frame (s : State) (c : Fin 6) :
    (s.askRestart c).tb = s.tb ∧ (s.askRestart c).loader = s.loader ∧ (s.askRestart c).cfg = s.cfg ∧
    (s.askRestart c).line = s.line ∧ (s.askRestart c).peers = s.peers ∧ (s.askRestart c).claims = s.claims ∧
    (s.askRestart c).turner = s.turner ∧ (s.askRestart c).replies = s.replies ∧
    (s.askRestart c).castends = s.castends ∧ (s.askRestart c).book = s.book ∧
    (s.askRestart c).panel = s.panel ∧ (s.askRestart c).elock = s.elock ∧ (s.askRestart c).free = s.free ∧
    (s.askRestart c).pending = s.pending := by
  and_intros <;> unfold State.askRestart <;> (try dsimp only) <;> (repeat' split) <;> simp

@[simp] theorem State.pauseRestart_frame (s : State) (c : Fin 6) (resume : Resume) :
    (s.pauseRestart c resume).tb = s.tb ∧ (s.pauseRestart c resume).loader = s.loader ∧
    (s.pauseRestart c resume).cfg = s.cfg ∧ (s.pauseRestart c resume).line = s.line ∧
    (s.pauseRestart c resume).peers = s.peers ∧ (s.pauseRestart c resume).claims = s.claims ∧
    (s.pauseRestart c resume).own = s.own ∧ (s.pauseRestart c resume).turner = s.turner ∧
    (s.pauseRestart c resume).replies = s.replies ∧ (s.pauseRestart c resume).castends = s.castends ∧
    (s.pauseRestart c resume).book = s.book ∧ (s.pauseRestart c resume).elock = s.elock ∧
    (s.pauseRestart c resume).free = s.free ∧ (s.pauseRestart c resume).pending = s.pending := by
  and_intros <;> unfold State.pauseRestart <;> (try dsimp only) <;> (repeat' split) <;> simp

@[simp] theorem State.castRestart_frame (s : State) (c : Fin 6) :
    (s.castRestart c).tb = s.tb ∧ (s.castRestart c).loader = s.loader ∧ (s.castRestart c).cfg = s.cfg ∧
    (s.castRestart c).line = s.line ∧ (s.castRestart c).peers = s.peers ∧ (s.castRestart c).claims = s.claims ∧
    (s.castRestart c).own = s.own ∧ (s.castRestart c).turner = s.turner ∧
    (s.castRestart c).replies = s.replies ∧ (s.castRestart c).castends = s.castends ∧
    (s.castRestart c).book = s.book ∧ (s.castRestart c).elock = s.elock ∧ (s.castRestart c).free = s.free ∧
    (s.castRestart c).pending = s.pending := by
  and_intros <;> unfold State.castRestart <;> (try dsimp only) <;> (repeat' split) <;> simp

@[simp] theorem State.dropList_frame (s : State) (c : Fin 6) :
    (s.dropList c).tb = s.tb ∧ (s.dropList c).loader = s.loader ∧ (s.dropList c).cfg = s.cfg ∧
    (s.dropList c).line = s.line ∧ (s.dropList c).peers = s.peers ∧ (s.dropList c).claims = s.claims ∧
    (s.dropList c).own = s.own ∧ (s.dropList c).turner = s.turner ∧ (s.dropList c).replies = s.replies ∧
    (s.dropList c).castends = s.castends ∧ (s.dropList c).book = s.book ∧ (s.dropList c).panel = s.panel ∧
    (s.dropList c).elock = s.elock ∧ (s.dropList c).free = s.free ∧ (s.dropList c).pending = s.pending := by
  and_intros <;> unfold State.dropList <;> (try dsimp only) <;> (repeat' split) <;> simp

@[simp] theorem State.decide_frame (s : State) (c : Fin 6) :
    (s.decide c).tb = s.tb ∧ (s.decide c).loader = s.loader ∧ (s.decide c).cfg = s.cfg ∧
    (s.decide c).line = s.line ∧ (s.decide c).peers = s.peers ∧ (s.decide c).claims = s.claims ∧
    (s.decide c).turner = s.turner ∧ (s.decide c).replies = s.replies ∧ (s.decide c).castends = s.castends ∧
    (s.decide c).book = s.book ∧ (s.decide c).elock = s.elock ∧ (s.decide c).free = s.free ∧
    (s.decide c).pending = s.pending := by
  and_intros <;> unfold State.decide <;> (try dsimp only) <;> (repeat' split) <;> simp

@[simp] theorem State.mapCh_frame (s : State) (f : Fin 6 → Channel → Channel) :
    (s.mapCh f).tb = s.tb ∧ (s.mapCh f).loader = s.loader ∧ (s.mapCh f).cfg = s.cfg ∧
    (s.mapCh f).line = s.line ∧ (s.mapCh f).peers = s.peers ∧ (s.mapCh f).claims = s.claims ∧
    (s.mapCh f).own = s.own ∧ (s.mapCh f).turner = s.turner ∧ (s.mapCh f).replies = s.replies ∧
    (s.mapCh f).castends = s.castends ∧ (s.mapCh f).book = s.book ∧ (s.mapCh f).panel = s.panel ∧
    (s.mapCh f).elock = s.elock ∧ (s.mapCh f).free = s.free ∧ (s.mapCh f).pending = s.pending := by
  and_intros <;> unfold State.mapCh <;> (try dsimp only) <;> (repeat' split) <;> simp

@[simp] theorem State.loadImage_frame (s : State) (image : List Byte) :
    (s.loadImage image).tb = s.tb ∧ (s.loadImage image).line = s.line ∧ (s.loadImage image).peers = s.peers ∧
    (s.loadImage image).claims = s.claims ∧ (s.loadImage image).own = s.own ∧
    (s.loadImage image).chans = s.chans ∧ (s.loadImage image).turner = s.turner ∧
    (s.loadImage image).replies = s.replies ∧ (s.loadImage image).castends = s.castends ∧
    (s.loadImage image).book = s.book ∧ (s.loadImage image).panel = s.panel ∧
    (s.loadImage image).elock = s.elock ∧ (s.loadImage image).free = s.free ∧
    (s.loadImage image).pending = s.pending := by
  and_intros <;> unfold State.loadImage <;> (try dsimp only) <;> (repeat' split) <;> simp

@[simp] theorem State.newStation_frame (s : State) (image : List Byte) :
    (s.newStation image).tb = s.tb ∧ (s.newStation image).loader = s.loader ∧
    (s.newStation image).cfg = s.cfg ∧ (s.newStation image).peers = s.peers ∧
    (s.newStation image).claims = s.claims ∧ (s.newStation image).own = s.own ∧
    (s.newStation image).turner = s.turner ∧ (s.newStation image).replies = s.replies ∧
    (s.newStation image).panel = s.panel ∧ (s.newStation image).elock = s.elock ∧
    (s.newStation image).free = s.free ∧ (s.newStation image).pending = s.pending := by
  and_intros <;> unfold State.newStation <;> (try dsimp only) <;> (repeat' split) <;> simp

@[simp] theorem State.recordRestart_frame (s : State) :
    (s.recordRestart).tb = s.tb ∧ (s.recordRestart).loader = s.loader ∧ (s.recordRestart).cfg = s.cfg ∧
    (s.recordRestart).line = s.line ∧ (s.recordRestart).peers = s.peers ∧ (s.recordRestart).claims = s.claims ∧
    (s.recordRestart).own = s.own ∧ (s.recordRestart).chans = s.chans ∧ (s.recordRestart).turner = s.turner ∧
    (s.recordRestart).replies = s.replies ∧ (s.recordRestart).castends = s.castends ∧
    (s.recordRestart).book = s.book ∧ (s.recordRestart).elock = s.elock ∧ (s.recordRestart).free = s.free ∧
    (s.recordRestart).pending = s.pending := by
  and_intros <;> unfold State.recordRestart <;> (try dsimp only) <;> (repeat' split) <;> simp

@[simp] theorem State.takeStates_frame (s : State) (image : List Byte) (digest : Option Word16) :
    (s.takeStates image digest).tb = s.tb ∧ (s.takeStates image digest).loader = s.loader ∧
    (s.takeStates image digest).cfg = s.cfg ∧ (s.takeStates image digest).peers = s.peers ∧
    (s.takeStates image digest).claims = s.claims ∧ (s.takeStates image digest).turner = s.turner ∧
    (s.takeStates image digest).replies = s.replies ∧ (s.takeStates image digest).elock = s.elock ∧
    (s.takeStates image digest).free = s.free ∧ (s.takeStates image digest).pending = s.pending := by
  and_intros <;> unfold State.takeStates <;> (try dsimp only) <;> (repeat' split) <;> simp

@[simp] theorem State.leaveClocking_frame (s : State) :
    (s.leaveClocking).tb = s.tb ∧ (s.leaveClocking).loader = s.loader ∧ (s.leaveClocking).cfg = s.cfg ∧
    (s.leaveClocking).peers = s.peers ∧ (s.leaveClocking).claims = s.claims ∧ (s.leaveClocking).own = s.own ∧
    (s.leaveClocking).chans = s.chans ∧ (s.leaveClocking).turner = s.turner ∧
    (s.leaveClocking).replies = s.replies ∧ (s.leaveClocking).castends = s.castends ∧
    (s.leaveClocking).book = s.book ∧ (s.leaveClocking).elock = s.elock ∧ (s.leaveClocking).free = s.free ∧
    (s.leaveClocking).pending = s.pending := by
  and_intros <;> unfold State.leaveClocking <;> (try dsimp only) <;> (repeat' split) <;> simp

@[simp] theorem State.emptyReply_frame (s : State) :
    (s.emptyReply).tb = s.tb ∧ (s.emptyReply).loader = s.loader ∧ (s.emptyReply).cfg = s.cfg ∧
    (s.emptyReply).line = s.line ∧ (s.emptyReply).peers = s.peers ∧ (s.emptyReply).claims = s.claims ∧
    (s.emptyReply).own = s.own ∧ (s.emptyReply).chans = s.chans ∧ (s.emptyReply).turner = s.turner ∧
    (s.emptyReply).replies = s.replies ∧ (s.emptyReply).castends = s.castends ∧ (s.emptyReply).book = s.book ∧
    (s.emptyReply).elock = s.elock ∧ (s.emptyReply).free = s.free ∧ (s.emptyReply).pending = s.pending := by
  and_intros <;> unfold State.emptyReply <;> (try dsimp only) <;> (repeat' split) <;> simp

@[simp] theorem State.goodLoad_frame (s : State) (image : List Byte) :
    (s.goodLoad image).tb = s.tb ∧ (s.goodLoad image).peers = s.peers ∧ (s.goodLoad image).claims = s.claims ∧
    (s.goodLoad image).turner = s.turner ∧ (s.goodLoad image).replies = s.replies ∧
    (s.goodLoad image).elock = s.elock ∧ (s.goodLoad image).free = s.free ∧
    (s.goodLoad image).pending = s.pending := by
  and_intros <;> unfold State.goodLoad <;> (try dsimp only) <;> (repeat' split) <;> simp

@[simp] theorem State.badLoad_frame (s : State) :
    (s.badLoad).tb = s.tb ∧ (s.badLoad).cfg = s.cfg ∧ (s.badLoad).peers = s.peers ∧
    (s.badLoad).claims = s.claims ∧ (s.badLoad).own = s.own ∧ (s.badLoad).chans = s.chans ∧
    (s.badLoad).turner = s.turner ∧ (s.badLoad).replies = s.replies ∧ (s.badLoad).castends = s.castends ∧
    (s.badLoad).book = s.book ∧ (s.badLoad).elock = s.elock ∧ (s.badLoad).free = s.free ∧
    (s.badLoad).pending = s.pending := by
  and_intros <;> unfold State.badLoad <;> (try dsimp only) <;> (repeat' split) <;> simp

@[simp] theorem State.endLoad_frame (s : State) (image : List Byte) :
    (s.endLoad image).tb = s.tb ∧ (s.endLoad image).peers = s.peers ∧ (s.endLoad image).claims = s.claims ∧
    (s.endLoad image).turner = s.turner ∧ (s.endLoad image).replies = s.replies ∧
    (s.endLoad image).elock = s.elock ∧ (s.endLoad image).free = s.free ∧
    (s.endLoad image).pending = s.pending := by
  and_intros <;> unfold State.endLoad <;> (try dsimp only) <;> (repeat' split) <;> simp

@[simp] theorem State.endBadLoad_frame (s : State) :
    (s.endBadLoad).tb = s.tb ∧ (s.endBadLoad).cfg = s.cfg ∧ (s.endBadLoad).peers = s.peers ∧
    (s.endBadLoad).claims = s.claims ∧ (s.endBadLoad).own = s.own ∧ (s.endBadLoad).chans = s.chans ∧
    (s.endBadLoad).turner = s.turner ∧ (s.endBadLoad).replies = s.replies ∧
    (s.endBadLoad).castends = s.castends ∧ (s.endBadLoad).book = s.book ∧ (s.endBadLoad).elock = s.elock ∧
    (s.endBadLoad).free = s.free ∧ (s.endBadLoad).pending = s.pending := by
  and_intros <;> unfold State.endBadLoad <;> (try dsimp only) <;> (repeat' split) <;> simp

@[simp] theorem State.setXtal_frame (s : State) :
    (s.setXtal).tb = s.tb ∧ (s.setXtal).loader = s.loader ∧ (s.setXtal).cfg = s.cfg ∧
    (s.setXtal).line = s.line ∧ (s.setXtal).peers = s.peers ∧ (s.setXtal).claims = s.claims ∧
    (s.setXtal).own = s.own ∧ (s.setXtal).chans = s.chans ∧ (s.setXtal).turner = s.turner ∧
    (s.setXtal).replies = s.replies ∧ (s.setXtal).castends = s.castends ∧ (s.setXtal).book = s.book ∧
    (s.setXtal).elock = s.elock ∧ (s.setXtal).free = s.free ∧ (s.setXtal).pending = s.pending := by
  and_intros <;> unfold State.setXtal <;> (try dsimp only) <;> (repeat' split) <;> simp

@[simp] theorem State.crystalIsReady_frame (s : State) :
    (s.crystalIsReady).loader = s.loader ∧ (s.crystalIsReady).cfg = s.cfg ∧
    (s.crystalIsReady).peers = s.peers ∧ (s.crystalIsReady).claims = s.claims ∧
    (s.crystalIsReady).own = s.own ∧ (s.crystalIsReady).chans = s.chans ∧
    (s.crystalIsReady).turner = s.turner ∧ (s.crystalIsReady).replies = s.replies ∧
    (s.crystalIsReady).castends = s.castends ∧ (s.crystalIsReady).book = s.book ∧
    (s.crystalIsReady).elock = s.elock ∧ (s.crystalIsReady).free = s.free ∧
    (s.crystalIsReady).pending = s.pending := by
  and_intros <;> unfold State.crystalIsReady <;> (try dsimp only) <;> (repeat' split) <;> simp

@[simp] theorem State.restartWait_frame (s : State) :
    (s.restartWait).loader = s.loader ∧ (s.restartWait).cfg = s.cfg ∧ (s.restartWait).line = s.line ∧
    (s.restartWait).peers = s.peers ∧ (s.restartWait).claims = s.claims ∧ (s.restartWait).own = s.own ∧
    (s.restartWait).chans = s.chans ∧ (s.restartWait).turner = s.turner ∧ (s.restartWait).replies = s.replies ∧
    (s.restartWait).castends = s.castends ∧ (s.restartWait).book = s.book ∧ (s.restartWait).panel = s.panel ∧
    (s.restartWait).elock = s.elock ∧ (s.restartWait).free = s.free ∧ (s.restartWait).pending = s.pending := by
  and_intros <;> unfold State.restartWait <;> (try dsimp only) <;> (repeat' split) <;> simp

@[simp] theorem State.crystalIsLost_frame (s : State) :
    (s.crystalIsLost).loader = s.loader ∧ (s.crystalIsLost).cfg = s.cfg ∧
    (s.crystalIsLost).replies = s.replies ∧ (s.crystalIsLost).castends = s.castends ∧
    (s.crystalIsLost).book = s.book ∧ (s.crystalIsLost).elock = s.elock ∧ (s.crystalIsLost).free = s.free ∧
    (s.crystalIsLost).pending = s.pending := by
  and_intros <;> unfold State.crystalIsLost <;> (try dsimp only) <;> (repeat' split) <;> simp

/-! ## Replies -/

@[simp] theorem State.answer_frame (s : State) (code : Byte) (result : Result) (data : List Nat) :
    (s.answer code result data).tb = s.tb ∧ (s.answer code result data).loader = s.loader ∧
    (s.answer code result data).cfg = s.cfg ∧ (s.answer code result data).line = s.line ∧
    (s.answer code result data).peers = s.peers ∧ (s.answer code result data).claims = s.claims ∧
    (s.answer code result data).own = s.own ∧ (s.answer code result data).chans = s.chans ∧
    (s.answer code result data).turner = s.turner ∧ (s.answer code result data).replies = s.replies ∧
    (s.answer code result data).castends = s.castends ∧ (s.answer code result data).book = s.book ∧
    (s.answer code result data).elock = s.elock ∧ (s.answer code result data).free = s.free ∧
    (s.answer code result data).pending = s.pending := by
  and_intros <;> unfold State.answer <;> (try dsimp only) <;> (repeat' split) <;> simp

@[simp] theorem State.okData_frame (s : State) (code : Byte) (data : List Nat) :
    (s.okData code data).tb = s.tb ∧ (s.okData code data).loader = s.loader ∧
    (s.okData code data).cfg = s.cfg ∧ (s.okData code data).line = s.line ∧
    (s.okData code data).peers = s.peers ∧ (s.okData code data).claims = s.claims ∧
    (s.okData code data).own = s.own ∧ (s.okData code data).chans = s.chans ∧
    (s.okData code data).turner = s.turner ∧ (s.okData code data).replies = s.replies ∧
    (s.okData code data).castends = s.castends ∧ (s.okData code data).book = s.book ∧
    (s.okData code data).elock = s.elock ∧ (s.okData code data).free = s.free ∧
    (s.okData code data).pending = s.pending := by
  and_intros <;> unfold State.okData <;> (try dsimp only) <;> (repeat' split) <;> simp

@[simp] theorem State.ok_frame (s : State) (code : Byte) :
    (s.ok code).tb = s.tb ∧ (s.ok code).loader = s.loader ∧ (s.ok code).cfg = s.cfg ∧
    (s.ok code).line = s.line ∧ (s.ok code).peers = s.peers ∧ (s.ok code).claims = s.claims ∧
    (s.ok code).own = s.own ∧ (s.ok code).chans = s.chans ∧ (s.ok code).turner = s.turner ∧
    (s.ok code).replies = s.replies ∧ (s.ok code).castends = s.castends ∧ (s.ok code).book = s.book ∧
    (s.ok code).elock = s.elock ∧ (s.ok code).free = s.free ∧ (s.ok code).pending = s.pending := by
  and_intros <;> unfold State.ok <;> (try dsimp only) <;> (repeat' split) <;> simp

@[simp] theorem State.refuse_frame (s : State) (code : Byte) (r : Reason) :
    (s.refuse code r).tb = s.tb ∧ (s.refuse code r).loader = s.loader ∧ (s.refuse code r).cfg = s.cfg ∧
    (s.refuse code r).line = s.line ∧ (s.refuse code r).peers = s.peers ∧ (s.refuse code r).claims = s.claims ∧
    (s.refuse code r).own = s.own ∧ (s.refuse code r).chans = s.chans ∧ (s.refuse code r).turner = s.turner ∧
    (s.refuse code r).replies = s.replies ∧ (s.refuse code r).castends = s.castends ∧
    (s.refuse code r).book = s.book ∧ (s.refuse code r).elock = s.elock ∧ (s.refuse code r).free = s.free ∧
    (s.refuse code r).pending = s.pending := by
  and_intros <;> unfold State.refuse <;> (try dsimp only) <;> (repeat' split) <;> simp

@[simp] theorem State.taken_frame (s : State) (code : Byte) :
    (s.taken code).tb = s.tb ∧ (s.taken code).loader = s.loader ∧ (s.taken code).cfg = s.cfg ∧
    (s.taken code).line = s.line ∧ (s.taken code).peers = s.peers ∧ (s.taken code).claims = s.claims ∧
    (s.taken code).own = s.own ∧ (s.taken code).chans = s.chans ∧ (s.taken code).turner = s.turner ∧
    (s.taken code).replies = s.replies ∧ (s.taken code).castends = s.castends ∧ (s.taken code).book = s.book ∧
    (s.taken code).elock = s.elock ∧ (s.taken code).free = s.free ∧ (s.taken code).pending = s.pending := by
  and_intros <;> unfold State.taken <;> (try dsimp only) <;> (repeat' split) <;> simp

@[simp] theorem State.bad_frame (s : State) (code : Byte) :
    (s.bad code).tb = s.tb ∧ (s.bad code).loader = s.loader ∧ (s.bad code).cfg = s.cfg ∧
    (s.bad code).line = s.line ∧ (s.bad code).peers = s.peers ∧ (s.bad code).claims = s.claims ∧
    (s.bad code).own = s.own ∧ (s.bad code).chans = s.chans ∧ (s.bad code).turner = s.turner ∧
    (s.bad code).replies = s.replies ∧ (s.bad code).castends = s.castends ∧ (s.bad code).book = s.book ∧
    (s.bad code).elock = s.elock ∧ (s.bad code).free = s.free ∧ (s.bad code).pending = s.pending := by
  and_intros <;> unfold State.bad <;> (try dsimp only) <;> (repeat' split) <;> simp

/-! ## LineCommands -/

@[simp] theorem State.coldExpires_frame (s : State) :
    (s.coldExpires).tb = s.tb ∧ (s.coldExpires).loader = s.loader ∧ (s.coldExpires).cfg = s.cfg ∧
    (s.coldExpires).peers = s.peers ∧ (s.coldExpires).claims = s.claims ∧ (s.coldExpires).chans = s.chans ∧
    (s.coldExpires).book = s.book ∧ (s.coldExpires).panel = s.panel ∧ (s.coldExpires).elock = s.elock ∧
    (s.coldExpires).free = s.free ∧ (s.coldExpires).pending = s.pending := by
  and_intros <;> unfold State.coldExpires <;> (try dsimp only) <;> (repeat' split) <;> simp

@[simp] theorem State.atOpening_frame (s : State) (k : Nat) :
    (s.atOpening k).tb = s.tb ∧ (s.atOpening k).loader = s.loader ∧ (s.atOpening k).cfg = s.cfg ∧
    (s.atOpening k).peers = s.peers ∧ (s.atOpening k).claims = s.claims ∧ (s.atOpening k).own = s.own ∧
    (s.atOpening k).chans = s.chans ∧ (s.atOpening k).turner = s.turner ∧ (s.atOpening k).replies = s.replies ∧
    (s.atOpening k).castends = s.castends ∧ (s.atOpening k).book = s.book ∧ (s.atOpening k).panel = s.panel ∧
    (s.atOpening k).elock = s.elock ∧ (s.atOpening k).free = s.free ∧ (s.atOpening k).pending = s.pending := by
  and_intros <;> unfold State.atOpening <;> (try dsimp only) <;> (repeat' split) <;> simp

@[simp] theorem State.opens_frame (s : State) :
    (s.opens).tb = s.tb ∧ (s.opens).loader = s.loader ∧ (s.opens).cfg = s.cfg ∧ (s.opens).peers = s.peers ∧
    (s.opens).claims = s.claims ∧ (s.opens).elock = s.elock ∧ (s.opens).free = s.free ∧
    (s.opens).pending = s.pending := by
  and_intros <;> unfold State.opens <;> (try dsimp only) <;> (repeat' split) <;> simp

@[simp] theorem State.abortsTwice_frame (s : State) :
    (s.abortsTwice).tb = s.tb ∧ (s.abortsTwice).loader = s.loader ∧ (s.abortsTwice).cfg = s.cfg ∧
    (s.abortsTwice).replies = s.replies ∧ (s.abortsTwice).castends = s.castends ∧
    (s.abortsTwice).book = s.book ∧ (s.abortsTwice).elock = s.elock ∧ (s.abortsTwice).free = s.free ∧
    (s.abortsTwice).pending = s.pending := by
  and_intros <;> unfold State.abortsTwice <;> (try dsimp only) <;> (repeat' split) <;> simp

@[simp] theorem State.takesTurn_frame (s : State) :
    (s.takesTurn).tb = s.tb ∧ (s.takesTurn).loader = s.loader ∧ (s.takesTurn).cfg = s.cfg ∧
    (s.takesTurn).peers = s.peers ∧ (s.takesTurn).claims = s.claims ∧ (s.takesTurn).chans = s.chans ∧
    (s.takesTurn).book = s.book ∧ (s.takesTurn).panel = s.panel ∧ (s.takesTurn).elock = s.elock ∧
    (s.takesTurn).free = s.free ∧ (s.takesTurn).pending = s.pending := by
  and_intros <;> unfold State.takesTurn <;> (try dsimp only) <;> (repeat' split) <;> simp

@[simp] theorem State.windowBySilence_frame (s : State) :
    (s.windowBySilence).tb = s.tb ∧ (s.windowBySilence).loader = s.loader ∧ (s.windowBySilence).cfg = s.cfg ∧
    (s.windowBySilence).replies = s.replies ∧ (s.windowBySilence).elock = s.elock ∧
    (s.windowBySilence).free = s.free ∧ (s.windowBySilence).pending = s.pending := by
  and_intros <;> unfold State.windowBySilence <;> (try dsimp only) <;> (repeat' split) <;> simp

/-! ## ArrivalCommands -/

/-! ## TimerCommands -/

@[simp] theorem State.timerAt_frame (s : State) (c : Fin 6) (t : Nat) :
    (s.timerAt c t).tb = s.tb ∧ (s.timerAt c t).loader = s.loader ∧ (s.timerAt c t).cfg = s.cfg ∧
    (s.timerAt c t).line = s.line ∧ (s.timerAt c t).peers = s.peers ∧ (s.timerAt c t).claims = s.claims ∧
    (s.timerAt c t).own = s.own ∧ (s.timerAt c t).turner = s.turner ∧ (s.timerAt c t).replies = s.replies ∧
    (s.timerAt c t).castends = s.castends ∧ (s.timerAt c t).book = s.book ∧ (s.timerAt c t).panel = s.panel ∧
    (s.timerAt c t).elock = s.elock ∧ (s.timerAt c t).free = s.free ∧ (s.timerAt c t).pending = s.pending := by
  and_intros <;> unfold State.timerAt <;> (try dsimp only) <;> (repeat' split) <;> simp

@[simp] theorem State.durationDone_frame (s : State) (c : Fin 6) (r : PhaseRecord) :
    (s.durationDone c r).tb = s.tb ∧ (s.durationDone c r).loader = s.loader ∧
    (s.durationDone c r).cfg = s.cfg ∧ (s.durationDone c r).line = s.line ∧
    (s.durationDone c r).peers = s.peers ∧ (s.durationDone c r).claims = s.claims ∧
    (s.durationDone c r).turner = s.turner ∧ (s.durationDone c r).replies = s.replies ∧
    (s.durationDone c r).elock = s.elock ∧ (s.durationDone c r).free = s.free ∧
    (s.durationDone c r).pending = s.pending := by
  and_intros <;> unfold State.durationDone <;> (try dsimp only) <;> (repeat' split) <;> simp

@[simp] theorem State.durationReached_frame (s : State) (c : Fin 6) :
    (s.durationReached c).tb = s.tb ∧ (s.durationReached c).loader = s.loader ∧
    (s.durationReached c).cfg = s.cfg ∧ (s.durationReached c).line = s.line ∧
    (s.durationReached c).peers = s.peers ∧ (s.durationReached c).claims = s.claims ∧
    (s.durationReached c).turner = s.turner ∧ (s.durationReached c).replies = s.replies ∧
    (s.durationReached c).elock = s.elock ∧ (s.durationReached c).free = s.free ∧
    (s.durationReached c).pending = s.pending := by
  and_intros <;> unfold State.durationReached <;> (try dsimp only) <;> (repeat' split) <;> simp

@[simp] theorem State.blowerOnEdge_frame (s : State) (c : Fin 6) :
    (s.blowerOnEdge c).tb = s.tb ∧ (s.blowerOnEdge c).loader = s.loader ∧ (s.blowerOnEdge c).cfg = s.cfg ∧
    (s.blowerOnEdge c).line = s.line ∧ (s.blowerOnEdge c).peers = s.peers ∧
    (s.blowerOnEdge c).claims = s.claims ∧ (s.blowerOnEdge c).own = s.own ∧
    (s.blowerOnEdge c).turner = s.turner ∧ (s.blowerOnEdge c).replies = s.replies ∧
    (s.blowerOnEdge c).castends = s.castends ∧ (s.blowerOnEdge c).book = s.book ∧
    (s.blowerOnEdge c).panel = s.panel ∧ (s.blowerOnEdge c).elock = s.elock ∧
    (s.blowerOnEdge c).free = s.free ∧ (s.blowerOnEdge c).pending = s.pending := by
  and_intros <;> unfold State.blowerOnEdge <;> (try dsimp only) <;> (repeat' split) <;> simp

@[simp] theorem State.blowerOffEdge_frame (s : State) (c : Fin 6) :
    (s.blowerOffEdge c).tb = s.tb ∧ (s.blowerOffEdge c).loader = s.loader ∧ (s.blowerOffEdge c).cfg = s.cfg ∧
    (s.blowerOffEdge c).line = s.line ∧ (s.blowerOffEdge c).peers = s.peers ∧
    (s.blowerOffEdge c).claims = s.claims ∧ (s.blowerOffEdge c).turner = s.turner ∧
    (s.blowerOffEdge c).replies = s.replies ∧ (s.blowerOffEdge c).castends = s.castends ∧
    (s.blowerOffEdge c).book = s.book ∧ (s.blowerOffEdge c).elock = s.elock ∧
    (s.blowerOffEdge c).free = s.free ∧ (s.blowerOffEdge c).pending = s.pending := by
  and_intros <;> unfold State.blowerOffEdge <;> (try dsimp only) <;> (repeat' split) <;> simp

@[simp] theorem State.restShed_frame (s : State) (c : Fin 6) :
    (s.restShed c).tb = s.tb ∧ (s.restShed c).loader = s.loader ∧ (s.restShed c).cfg = s.cfg ∧
    (s.restShed c).line = s.line ∧ (s.restShed c).peers = s.peers ∧ (s.restShed c).claims = s.claims ∧
    (s.restShed c).turner = s.turner ∧ (s.restShed c).replies = s.replies ∧
    (s.restShed c).castends = s.castends ∧ (s.restShed c).book = s.book ∧ (s.restShed c).elock = s.elock ∧
    (s.restShed c).free = s.free ∧ (s.restShed c).pending = s.pending := by
  and_intros <;> unfold State.restShed <;> (try dsimp only) <;> (repeat' split) <;> simp

@[simp] theorem State.airRestEdge_frame (s : State) (c : Fin 6) :
    (s.airRestEdge c).tb = s.tb ∧ (s.airRestEdge c).loader = s.loader ∧ (s.airRestEdge c).cfg = s.cfg ∧
    (s.airRestEdge c).line = s.line ∧ (s.airRestEdge c).peers = s.peers ∧ (s.airRestEdge c).claims = s.claims ∧
    (s.airRestEdge c).turner = s.turner ∧ (s.airRestEdge c).replies = s.replies ∧
    (s.airRestEdge c).castends = s.castends ∧ (s.airRestEdge c).book = s.book ∧
    (s.airRestEdge c).elock = s.elock ∧ (s.airRestEdge c).free = s.free ∧
    (s.airRestEdge c).pending = s.pending := by
  and_intros <;> unfold State.airRestEdge <;> (try dsimp only) <;> (repeat' split) <;> simp

@[simp] theorem State.sprayEdge_frame (s : State) (c : Fin 6) :
    (s.sprayEdge c).tb = s.tb ∧ (s.sprayEdge c).loader = s.loader ∧ (s.sprayEdge c).cfg = s.cfg ∧
    (s.sprayEdge c).line = s.line ∧ (s.sprayEdge c).peers = s.peers ∧ (s.sprayEdge c).claims = s.claims ∧
    (s.sprayEdge c).own = s.own ∧ (s.sprayEdge c).turner = s.turner ∧ (s.sprayEdge c).replies = s.replies ∧
    (s.sprayEdge c).castends = s.castends ∧ (s.sprayEdge c).book = s.book ∧ (s.sprayEdge c).panel = s.panel ∧
    (s.sprayEdge c).elock = s.elock ∧ (s.sprayEdge c).free = s.free ∧ (s.sprayEdge c).pending = s.pending := by
  and_intros <;> unfold State.sprayEdge <;> (try dsimp only) <;> (repeat' split) <;> simp

/-! ## PanelCommands -/

@[simp] theorem State.loadAt_frame (r : PhaseRecord) (c : Fin 6) (s : State) :
    (State.loadAt r c s).tb = s.tb ∧ (State.loadAt r c s).loader = s.loader ∧
    (State.loadAt r c s).cfg = s.cfg ∧ (State.loadAt r c s).line = s.line ∧
    (State.loadAt r c s).peers = s.peers ∧ (State.loadAt r c s).claims = s.claims ∧
    (State.loadAt r c s).turner = s.turner ∧ (State.loadAt r c s).replies = s.replies ∧
    (State.loadAt r c s).elock = s.elock ∧ (State.loadAt r c s).free = s.free ∧
    (State.loadAt r c s).pending = s.pending := by
  and_intros <;> unfold State.loadAt <;> (try dsimp only) <;> (repeat' split) <;> simp

@[simp] theorem State.holdAt_frame (c : Fin 6) (s : State) :
    (State.holdAt c s).tb = s.tb ∧ (State.holdAt c s).loader = s.loader ∧ (State.holdAt c s).cfg = s.cfg ∧
    (State.holdAt c s).line = s.line ∧ (State.holdAt c s).peers = s.peers ∧
    (State.holdAt c s).claims = s.claims ∧ (State.holdAt c s).own = s.own ∧
    (State.holdAt c s).turner = s.turner ∧ (State.holdAt c s).replies = s.replies ∧
    (State.holdAt c s).castends = s.castends ∧ (State.holdAt c s).book = s.book ∧
    (State.holdAt c s).elock = s.elock ∧ (State.holdAt c s).free = s.free ∧
    (State.holdAt c s).pending = s.pending := by
  and_intros <;> unfold State.holdAt <;> (try dsimp only) <;> (repeat' split) <;> simp

@[simp] theorem State.runAgain_frame (s : State) (c : Fin 6) :
    (s.runAgain c).tb = s.tb ∧ (s.runAgain c).loader = s.loader ∧ (s.runAgain c).cfg = s.cfg ∧
    (s.runAgain c).line = s.line ∧ (s.runAgain c).peers = s.peers ∧ (s.runAgain c).claims = s.claims ∧
    (s.runAgain c).own = s.own ∧ (s.runAgain c).turner = s.turner ∧ (s.runAgain c).replies = s.replies ∧
    (s.runAgain c).castends = s.castends ∧ (s.runAgain c).book = s.book ∧ (s.runAgain c).panel = s.panel ∧
    (s.runAgain c).elock = s.elock ∧ (s.runAgain c).free = s.free ∧ (s.runAgain c).pending = s.pending := by
  and_intros <;> unfold State.runAgain <;> (try dsimp only) <;> (repeat' split) <;> simp

@[simp] theorem State.resumeRunning_frame (s : State) (c : Fin 6) :
    (s.resumeRunning c).tb = s.tb ∧ (s.resumeRunning c).loader = s.loader ∧ (s.resumeRunning c).cfg = s.cfg ∧
    (s.resumeRunning c).line = s.line ∧ (s.resumeRunning c).peers = s.peers ∧
    (s.resumeRunning c).claims = s.claims ∧ (s.resumeRunning c).turner = s.turner ∧
    (s.resumeRunning c).replies = s.replies ∧ (s.resumeRunning c).elock = s.elock ∧
    (s.resumeRunning c).free = s.free ∧ (s.resumeRunning c).pending = s.pending := by
  and_intros <;> unfold State.resumeRunning <;> (try dsimp only) <;> (repeat' split) <;> simp

@[simp] theorem State.resumeStarved_frame (s : State) (c : Fin 6) (orphan : Bool) :
    (s.resumeStarved c orphan).tb = s.tb ∧ (s.resumeStarved c orphan).loader = s.loader ∧
    (s.resumeStarved c orphan).cfg = s.cfg ∧ (s.resumeStarved c orphan).line = s.line ∧
    (s.resumeStarved c orphan).peers = s.peers ∧ (s.resumeStarved c orphan).claims = s.claims ∧
    (s.resumeStarved c orphan).turner = s.turner ∧ (s.resumeStarved c orphan).replies = s.replies ∧
    (s.resumeStarved c orphan).elock = s.elock ∧ (s.resumeStarved c orphan).free = s.free ∧
    (s.resumeStarved c orphan).pending = s.pending := by
  and_intros <;> unfold State.resumeStarved <;> (try dsimp only) <;> (repeat' split) <;> simp

@[simp] theorem State.releaseCleared_frame (s : State) (c : Fin 6) :
    (s.releaseCleared c).tb = s.tb ∧ (s.releaseCleared c).loader = s.loader ∧
    (s.releaseCleared c).cfg = s.cfg ∧ (s.releaseCleared c).line = s.line ∧
    (s.releaseCleared c).peers = s.peers ∧ (s.releaseCleared c).claims = s.claims ∧
    (s.releaseCleared c).turner = s.turner ∧ (s.releaseCleared c).replies = s.replies ∧
    (s.releaseCleared c).elock = s.elock ∧ (s.releaseCleared c).free = s.free ∧
    (s.releaseCleared c).pending = s.pending := by
  and_intros <;> unfold State.releaseCleared <;> (try dsimp only) <;> (repeat' split) <;> simp

@[simp] theorem State.offerAgain_frame (s : State) (c : Fin 6) :
    (s.offerAgain c).tb = s.tb ∧ (s.offerAgain c).loader = s.loader ∧ (s.offerAgain c).cfg = s.cfg ∧
    (s.offerAgain c).line = s.line ∧ (s.offerAgain c).peers = s.peers ∧ (s.offerAgain c).claims = s.claims ∧
    (s.offerAgain c).own = s.own ∧ (s.offerAgain c).turner = s.turner ∧ (s.offerAgain c).replies = s.replies ∧
    (s.offerAgain c).castends = s.castends ∧ (s.offerAgain c).book = s.book ∧
    (s.offerAgain c).panel = s.panel ∧ (s.offerAgain c).elock = s.elock ∧ (s.offerAgain c).free = s.free ∧
    (s.offerAgain c).pending = s.pending := by
  and_intros <;> unfold State.offerAgain <;> (try dsimp only) <;> (repeat' split) <;> simp

@[simp] theorem State.releaseOffer_frame (s : State) (c : Fin 6) :
    (s.releaseOffer c).tb = s.tb ∧ (s.releaseOffer c).loader = s.loader ∧
    (s.releaseOffer c).cfg = s.cfg ∧ (s.releaseOffer c).line = s.line ∧
    (s.releaseOffer c).peers = s.peers ∧ (s.releaseOffer c).claims = s.claims ∧
    (s.releaseOffer c).turner = s.turner ∧ (s.releaseOffer c).replies = s.replies ∧
    (s.releaseOffer c).elock = s.elock ∧ (s.releaseOffer c).free = s.free ∧
    (s.releaseOffer c).pending = s.pending := by
  and_intros <;> unfold State.releaseOffer <;> (try dsimp only) <;> (repeat' split) <;> simp

@[simp] theorem State.releaseRestart_frame (s : State) (c : Fin 6) :
    (s.releaseRestart c).tb = s.tb ∧ (s.releaseRestart c).loader = s.loader ∧
    (s.releaseRestart c).cfg = s.cfg ∧ (s.releaseRestart c).line = s.line ∧
    (s.releaseRestart c).peers = s.peers ∧ (s.releaseRestart c).claims = s.claims ∧
    (s.releaseRestart c).turner = s.turner ∧ (s.releaseRestart c).replies = s.replies ∧
    (s.releaseRestart c).elock = s.elock ∧ (s.releaseRestart c).free = s.free ∧
    (s.releaseRestart c).pending = s.pending := by
  and_intros <;> unfold State.releaseRestart <;> (try dsimp only) <;> (repeat' split) <;> simp

@[simp] theorem State.releasePaused_frame (s : State) (c : Fin 6) :
    (s.releasePaused c).tb = s.tb ∧ (s.releasePaused c).loader = s.loader ∧ (s.releasePaused c).cfg = s.cfg ∧
    (s.releasePaused c).line = s.line ∧ (s.releasePaused c).peers = s.peers ∧
    (s.releasePaused c).claims = s.claims ∧ (s.releasePaused c).turner = s.turner ∧
    (s.releasePaused c).replies = s.replies ∧ (s.releasePaused c).elock = s.elock ∧
    (s.releasePaused c).free = s.free ∧ (s.releasePaused c).pending = s.pending := by
  and_intros <;> unfold State.releasePaused <;> (try dsimp only) <;> (repeat' split) <;> simp

@[simp] theorem State.releaseAt_frame (c : Fin 6) (s : State) :
    (State.releaseAt c s).tb = s.tb ∧ (State.releaseAt c s).loader = s.loader ∧
    (State.releaseAt c s).cfg = s.cfg ∧ (State.releaseAt c s).line = s.line ∧
    (State.releaseAt c s).peers = s.peers ∧ (State.releaseAt c s).claims = s.claims ∧
    (State.releaseAt c s).turner = s.turner ∧ (State.releaseAt c s).replies = s.replies ∧
    (State.releaseAt c s).elock = s.elock ∧ (State.releaseAt c s).free = s.free ∧
    (State.releaseAt c s).pending = s.pending := by
  and_intros <;> unfold State.releaseAt <;> (try dsimp only) <;> (repeat' split) <;> simp

@[simp] theorem State.clearTransfer_frame (s : State) (c : Fin 6) :
    (s.clearTransfer c).tb = s.tb ∧ (s.clearTransfer c).loader = s.loader ∧ (s.clearTransfer c).cfg = s.cfg ∧
    (s.clearTransfer c).line = s.line ∧ (s.clearTransfer c).peers = s.peers ∧
    (s.clearTransfer c).claims = s.claims ∧ (s.clearTransfer c).own = s.own ∧
    (s.clearTransfer c).turner = s.turner ∧ (s.clearTransfer c).replies = s.replies ∧
    (s.clearTransfer c).book = s.book ∧ (s.clearTransfer c).panel = s.panel ∧
    (s.clearTransfer c).elock = s.elock ∧ (s.clearTransfer c).free = s.free ∧
    (s.clearTransfer c).pending = s.pending := by
  and_intros <;> unfold State.clearTransfer <;> (try dsimp only) <;> (repeat' split) <;> simp

@[simp] theorem State.clearHaltAt_frame (c : Fin 6) (s : State) :
    (State.clearHaltAt c s).tb = s.tb ∧ (State.clearHaltAt c s).loader = s.loader ∧
    (State.clearHaltAt c s).cfg = s.cfg ∧ (State.clearHaltAt c s).line = s.line ∧
    (State.clearHaltAt c s).peers = s.peers ∧ (State.clearHaltAt c s).claims = s.claims ∧
    (State.clearHaltAt c s).own = s.own ∧ (State.clearHaltAt c s).turner = s.turner ∧
    (State.clearHaltAt c s).replies = s.replies ∧ (State.clearHaltAt c s).book = s.book ∧
    (State.clearHaltAt c s).elock = s.elock ∧ (State.clearHaltAt c s).free = s.free ∧
    (State.clearHaltAt c s).pending = s.pending := by
  and_intros <;> unfold State.clearHaltAt <;> (try dsimp only) <;> (repeat' split) <;> simp

@[simp] theorem State.clearTurner_frame (s : State) :
    (s.clearTurner).tb = s.tb ∧ (s.clearTurner).loader = s.loader ∧ (s.clearTurner).cfg = s.cfg ∧
    (s.clearTurner).line = s.line ∧ (s.clearTurner).peers = s.peers ∧ (s.clearTurner).claims = s.claims ∧
    (s.clearTurner).own = s.own ∧ (s.clearTurner).chans = s.chans ∧ (s.clearTurner).replies = s.replies ∧
    (s.clearTurner).castends = s.castends ∧ (s.clearTurner).book = s.book ∧ (s.clearTurner).elock = s.elock ∧
    (s.clearTurner).free = s.free ∧ (s.clearTurner).pending = s.pending := by
  and_intros <;> unfold State.clearTurner <;> (try dsimp only) <;> (repeat' split) <;> simp

@[simp] theorem State.channelResetAt_frame (c : Fin 6) (s : State) :
    (State.channelResetAt c s).tb = s.tb ∧ (State.channelResetAt c s).loader = s.loader ∧
    (State.channelResetAt c s).cfg = s.cfg ∧ (State.channelResetAt c s).line = s.line ∧
    (State.channelResetAt c s).peers = s.peers ∧ (State.channelResetAt c s).claims = s.claims ∧
    (State.channelResetAt c s).turner = s.turner ∧ (State.channelResetAt c s).replies = s.replies ∧
    (State.channelResetAt c s).castends = s.castends ∧ (State.channelResetAt c s).book = s.book ∧
    (State.channelResetAt c s).elock = s.elock ∧ (State.channelResetAt c s).free = s.free ∧
    (State.channelResetAt c s).pending = s.pending := by
  and_intros <;> unfold State.channelResetAt <;> (try dsimp only) <;> (repeat' split) <;> simp

@[simp] theorem State.withdraw_frame (s : State) (c : Fin 6) :
    (s.withdraw c).tb = s.tb ∧ (s.withdraw c).loader = s.loader ∧ (s.withdraw c).cfg = s.cfg ∧
    (s.withdraw c).line = s.line ∧ (s.withdraw c).peers = s.peers ∧ (s.withdraw c).claims = s.claims ∧
    (s.withdraw c).own = s.own ∧ (s.withdraw c).turner = s.turner ∧ (s.withdraw c).replies = s.replies ∧
    (s.withdraw c).book = s.book ∧ (s.withdraw c).elock = s.elock ∧ (s.withdraw c).free = s.free ∧
    (s.withdraw c).pending = s.pending := by
  and_intros <;> unfold State.withdraw <;> (try dsimp only) <;> (repeat' split) <;> simp

@[simp] theorem State.withdrawAt_frame (c : Fin 6) (s : State) :
    (State.withdrawAt c s).tb = s.tb ∧ (State.withdrawAt c s).loader = s.loader ∧
    (State.withdrawAt c s).cfg = s.cfg ∧ (State.withdrawAt c s).line = s.line ∧
    (State.withdrawAt c s).peers = s.peers ∧ (State.withdrawAt c s).claims = s.claims ∧
    (State.withdrawAt c s).own = s.own ∧ (State.withdrawAt c s).turner = s.turner ∧
    (State.withdrawAt c s).replies = s.replies ∧ (State.withdrawAt c s).book = s.book ∧
    (State.withdrawAt c s).elock = s.elock ∧ (State.withdrawAt c s).free = s.free ∧
    (State.withdrawAt c s).pending = s.pending := by
  and_intros <;> unfold State.withdrawAt <;> (try dsimp only) <;> (repeat' split) <;> simp

@[simp] theorem State.sampleElock_frame (s : State) (low : Bool) :
    (s.sampleElock low).tb = s.tb ∧ (s.sampleElock low).loader = s.loader ∧ (s.sampleElock low).cfg = s.cfg ∧
    (s.sampleElock low).line = s.line ∧ (s.sampleElock low).peers = s.peers ∧
    (s.sampleElock low).claims = s.claims ∧ (s.sampleElock low).own = s.own ∧
    (s.sampleElock low).chans = s.chans ∧ (s.sampleElock low).turner = s.turner ∧
    (s.sampleElock low).replies = s.replies ∧ (s.sampleElock low).castends = s.castends ∧
    (s.sampleElock low).book = s.book ∧ (s.sampleElock low).panel = s.panel ∧
    (s.sampleElock low).free = s.free ∧ (s.sampleElock low).pending = s.pending := by
  and_intros <;> unfold State.sampleElock <;> (try dsimp only) <;> (repeat' split) <;> simp

@[simp] theorem State.discardAt_frame (c : Fin 6) (s : State) :
    (State.discardAt c s).tb = s.tb ∧ (State.discardAt c s).loader = s.loader ∧
    (State.discardAt c s).cfg = s.cfg ∧ (State.discardAt c s).line = s.line ∧
    (State.discardAt c s).peers = s.peers ∧ (State.discardAt c s).claims = s.claims ∧
    (State.discardAt c s).turner = s.turner ∧ (State.discardAt c s).replies = s.replies ∧
    (State.discardAt c s).elock = s.elock ∧ (State.discardAt c s).free = s.free ∧
    (State.discardAt c s).pending = s.pending := by
  and_intros <;> unfold State.discardAt <;> (try dsimp only) <;> (repeat' split) <;> simp

@[simp] theorem State.handGaugeAt_frame (k : HandKind) (g : Nat) (c : Fin 6) (s : State) :
    (State.handGaugeAt k g c s).tb = s.tb ∧ (State.handGaugeAt k g c s).loader = s.loader ∧
    (State.handGaugeAt k g c s).cfg = s.cfg ∧ (State.handGaugeAt k g c s).line = s.line ∧
    (State.handGaugeAt k g c s).peers = s.peers ∧ (State.handGaugeAt k g c s).claims = s.claims ∧
    (State.handGaugeAt k g c s).own = s.own ∧ (State.handGaugeAt k g c s).chans = s.chans ∧
    (State.handGaugeAt k g c s).turner = s.turner ∧ (State.handGaugeAt k g c s).replies = s.replies ∧
    (State.handGaugeAt k g c s).castends = s.castends ∧ (State.handGaugeAt k g c s).elock = s.elock ∧
    (State.handGaugeAt k g c s).free = s.free ∧ (State.handGaugeAt k g c s).pending = s.pending := by
  and_intros <;> unfold State.handGaugeAt <;> (try dsimp only) <;> (repeat' split) <;> simp

/-! ## StationCommands -/

@[simp] theorem State.takeBook_frame (s : State) (sequence : Seq) :
    (s.takeBook sequence).tb = s.tb ∧ (s.takeBook sequence).loader = s.loader ∧
    (s.takeBook sequence).cfg = s.cfg ∧ (s.takeBook sequence).line = s.line ∧
    (s.takeBook sequence).peers = s.peers ∧ (s.takeBook sequence).claims = s.claims ∧
    (s.takeBook sequence).own = s.own ∧ (s.takeBook sequence).turner = s.turner ∧
    (s.takeBook sequence).replies = s.replies ∧ (s.takeBook sequence).castends = s.castends ∧
    (s.takeBook sequence).elock = s.elock ∧ (s.takeBook sequence).free = s.free ∧
    (s.takeBook sequence).pending = s.pending := by
  and_intros <;> unfold State.takeBook <;> (try dsimp only) <;> (repeat' split) <;> simp

@[simp] theorem State.setMask_frame (s : State) (m : Mask) :
    (s.setMask m).tb = s.tb ∧ (s.setMask m).loader = s.loader ∧ (s.setMask m).cfg = s.cfg ∧
    (s.setMask m).line = s.line ∧ (s.setMask m).peers = s.peers ∧ (s.setMask m).claims = s.claims ∧
    (s.setMask m).own = s.own ∧ (s.setMask m).chans = s.chans ∧ (s.setMask m).turner = s.turner ∧
    (s.setMask m).replies = s.replies ∧ (s.setMask m).castends = s.castends ∧ (s.setMask m).book = s.book ∧
    (s.setMask m).elock = s.elock ∧ (s.setMask m).free = s.free ∧ (s.setMask m).pending = s.pending := by
  and_intros <;> unfold State.setMask <;> (try dsimp only) <;> (repeat' split) <;> simp

@[simp] theorem State.popped_frame (s : State) :
    (s.popped).tb = s.tb ∧ (s.popped).loader = s.loader ∧ (s.popped).cfg = s.cfg ∧ (s.popped).line = s.line ∧
    (s.popped).peers = s.peers ∧ (s.popped).claims = s.claims ∧ (s.popped).own = s.own ∧
    (s.popped).chans = s.chans ∧ (s.popped).turner = s.turner ∧ (s.popped).replies = s.replies ∧
    (s.popped).castends = s.castends ∧ (s.popped).book = s.book ∧ (s.popped).elock = s.elock ∧
    (s.popped).free = s.free ∧ (s.popped).pending = s.pending := by
  and_intros <;> unfold State.popped <;> (try dsimp only) <;> (repeat' split) <;> simp

@[simp] theorem State.faultRead_frame (s : State) :
    (s.faultRead).tb = s.tb ∧ (s.faultRead).loader = s.loader ∧ (s.faultRead).cfg = s.cfg ∧
    (s.faultRead).line = s.line ∧ (s.faultRead).peers = s.peers ∧ (s.faultRead).claims = s.claims ∧
    (s.faultRead).own = s.own ∧ (s.faultRead).chans = s.chans ∧ (s.faultRead).turner = s.turner ∧
    (s.faultRead).replies = s.replies ∧ (s.faultRead).castends = s.castends ∧ (s.faultRead).book = s.book ∧
    (s.faultRead).elock = s.elock ∧ (s.faultRead).free = s.free ∧ (s.faultRead).pending = s.pending := by
  and_intros <;> unfold State.faultRead <;> (try dsimp only) <;> (repeat' split) <;> simp

/-! ## Tick -/

end Sys2Proof.Machine
end

