-- ==== Sys2Proof/Laws/Channels.lean ====
section
/-! SUPPORT. What each operation leaves alone among the channels: an operation on channel `c` leaves every other channel, and
an operation that changes no channel leaves all of them. -/

set_option linter.unusedTactic false
set_option linter.unreachableTactic false
set_option linter.unusedSimpArgs false
set_option linter.unnecessarySeqFocus false

namespace Sys2Proof.Machine

@[simp] theorem foldl_ch {α : Type} (f : State → α → State) (l : List α) (s : State) (d : Fin 6)
    (h : ∀ t a, (f t a).ch d = t.ch d) : (l.foldl f s).ch d = s.ch d := by
  induction l generalizing s with
  | nil => rfl
  | cons a r ih => simp only [List.foldl_cons]; rw [ih, h]

@[simp] theorem State.setCh_others (s : State) (c : Fin 6) (x : Channel) (d : Fin 6) (h : d ≠ c) :
    (s.setCh c x).ch d = s.ch d := by
  simp [State.ch_setCh, h]

@[simp] theorem State.modCh_others (s : State) (c : Fin 6) (f : Channel → Channel) (d : Fin 6) (h : d ≠ c) :
    (s.modCh c f).ch d = s.ch d := by
  unfold State.modCh <;> (try dsimp only) <;> (repeat' split) <;> simp [h, State.ch_modCh]

@[simp] theorem State.event_ch (s : State) (kind : EventKind) (channel : Option (Fin 6)) (piece : Option Word16) (value : List Nat) (d : Fin 6) :
    (s.event kind channel piece value).ch d = s.ch d :=
  State.ch_of_chans (by simp) d

@[simp] theorem State.chEvent_ch (s : State) (c : Fin 6) (kind : EventKind) (value : List Nat) (d : Fin 6) :
    (s.chEvent c kind value).ch d = s.ch d :=
  State.ch_of_chans (by simp) d

@[simp] theorem State.faultAt_ch (s : State) (kind : FaultKind) (station channel : Option Nat) (round : Word16) (d : Fin 6) :
    (s.faultAt kind station channel round).ch d = s.ch d :=
  State.ch_of_chans (by simp) d

@[simp] theorem State.recordFault_ch (s : State) (kind : FaultKind) (station channel : Option Nat) (d : Fin 6) :
    (s.recordFault kind station channel).ch d = s.ch d :=
  State.ch_of_chans (by simp) d

@[simp] theorem State.setLine_ch (s : State) (st : LineState) (d : Fin 6) :
    (s.setLine st).ch d = s.ch d :=
  State.ch_of_chans (by simp) d

@[simp] theorem State.mark_ch (s : State) (f : RoundRecord → RoundRecord) (d : Fin 6) :
    (s.mark f).ch d = s.ch d :=
  State.ch_of_chans (by simp) d

@[simp] theorem State.modPeer_ch (s : State) (a : Nat) (f : Peer → Peer) (d : Fin 6) :
    (s.modPeer a f).ch d = s.ch d :=
  State.ch_of_chans (by simp) d

@[simp] theorem State.followPeers_ch (s : State) (d : Fin 6) :
    (s.followPeers).ch d = s.ch d :=
  State.ch_of_chans (by simp) d

@[simp] theorem State.clearFlags_ch (s : State) (m : Mask) (d : Fin 6) :
    (s.clearFlags m).ch d = s.ch d :=
  State.ch_of_chans (by simp) d

@[simp] theorem State.askAt_ch (s : State) (c : Fin 6) (slot : Nat) (a : Ask) (d : Fin 6) :
    (s.askAt c slot a).ch d = s.ch d :=
  State.ch_of_chans (by simp) d

@[simp] theorem State.modOwn_ch (s : State) (c : Fin 6) (slot : Nat) (f : OwnClaim → OwnClaim) (d : Fin 6) :
    (s.modOwn c slot f).ch d = s.ch d :=
  State.ch_of_chans (by simp) d

@[simp] theorem State.followWaits_others (s : State) (c : Fin 6) (d : Fin 6) (h : d ≠ c) :
    (s.followWaits c).ch d = s.ch d := by
  unfold State.followWaits <;> (try dsimp only) <;> (repeat' split) <;> simp [h, State.ch_modCh]

@[simp] theorem State.followFan_others (s : State) (c : Fin 6) (d : Fin 6) (h : d ≠ c) :
    (s.followFan c).ch d = s.ch d := by
  unfold State.followFan <;> (try dsimp only) <;> (repeat' split) <;> simp [h, State.ch_modCh]

@[simp] theorem State.followCast_others (s : State) (c : Fin 6) (d : Fin 6) (h : d ≠ c) :
    (s.followCast c).ch d = s.ch d := by
  unfold State.followCast <;> (try dsimp only) <;> (repeat' split) <;> simp [h, State.ch_modCh]

@[simp] theorem State.follow_others (s : State) (c : Fin 6) (d : Fin 6) (h : d ≠ c) :
    (s.follow c).ch d = s.ch d := by
  unfold State.follow <;> (try dsimp only) <;> (repeat' split) <;> simp [h, State.ch_modCh]

@[simp] theorem State.ask_others (s : State) (c : Fin 6) (a : Ask) (d : Fin 6) (h : d ≠ c) :
    (s.ask c a).ch d = s.ch d := by
  unfold State.ask <;> (try dsimp only) <;> (repeat' split) <;> simp [h, State.ch_modCh]

@[simp] theorem State.repeatAsks_others (s : State) (c : Fin 6) (d : Fin 6) (h : d ≠ c) :
    (s.repeatAsks c).ch d = s.ch d := by
  unfold State.repeatAsks <;> (try dsimp only) <;> (repeat' split) <;> simp [h, State.ch_modCh]

@[simp] theorem State.dropClaim_others (s : State) (c : Fin 6) (slot : Nat) (d : Fin 6) (h : d ≠ c) :
    (s.dropClaim c slot).ch d = s.ch d := by
  unfold State.dropClaim <;> (try dsimp only) <;> (repeat' split) <;> simp [h, State.ch_modCh]

@[simp] theorem State.dropOn_others (s : State) (c : Fin 6) (r : Resource) (d : Fin 6) (h : d ≠ c) :
    (s.dropOn c r).ch d = s.ch d := by
  unfold State.dropOn <;> (try dsimp only) <;> (repeat' split) <;> simp [h, State.ch_modCh]

@[simp] theorem State.dropAll_others (s : State) (c : Fin 6) (d : Fin 6) (h : d ≠ c) :
    (s.dropAll c).ch d = s.ch d := by
  unfold State.dropAll <;> (try dsimp only) <;> (repeat' split) <;> simp [h, State.ch_modCh]

@[simp] theorem State.lowerClaim_others (s : State) (c : Fin 6) (slot amount : Nat) (d : Fin 6) (h : d ≠ c) :
    (s.lowerClaim c slot amount).ch d = s.ch d := by
  unfold State.lowerClaim <;> (try dsimp only) <;> (repeat' split) <;> simp [h, State.ch_modCh]

@[simp] theorem State.countShed_others (s : State) (c : Fin 6) (d : Fin 6) (h : d ≠ c) :
    (s.countShed c).ch d = s.ch d := by
  unfold State.countShed <;> (try dsimp only) <;> (repeat' split) <;> simp [h, State.ch_modCh]

@[simp] theorem State.shedOne_others (s : State) (c : Fin 6) (o : OwnClaim) (d : Fin 6) (h : d ≠ c) :
    (s.shedOne c o).ch d = s.ch d := by
  unfold State.shedOne <;> (try dsimp only) <;> (repeat' split) <;> simp [h, State.ch_modCh]

@[simp] theorem State.shedPoint_others (s : State) (c : Fin 6) (rs : List Resource) (d : Fin 6) (h : d ≠ c) :
    (s.shedPoint c rs).ch d = s.ch d := by
  unfold State.shedPoint <;> (try dsimp only) <;> (repeat' split) <;> simp [h, State.ch_modCh]

@[simp] theorem State.allAsked_ch (s : State) (d : Fin 6) :
    (s.allAsked).ch d = s.ch d :=
  State.ch_of_chans (by simp) d

@[simp] theorem State.append_ch (s : State) (item : EntryItem) (span : Nat) (round : Word16) (station : Nat) (d : Fin 6) :
    (s.append item span round station).ch d = s.ch d :=
  State.ch_of_chans (by simp) d

@[simp] theorem State.compareCount_ch (s : State) (count : Seq) (hasEntries : Bool) (sender : Nat) (round : Word16) (d : Fin 6) :
    (s.compareCount count hasEntries sender round).ch d = s.ch d :=
  State.ch_of_chans (by simp) d

@[simp] theorem State.numberBook_ch (s : State) (count : Seq) (d : Fin 6) :
    (s.numberBook count).ch d = s.ch d :=
  State.ch_of_chans (by simp) d

@[simp] theorem State.hearEntries_ch (s : State) (count : Seq) (entries : List EntryItem) (sender : Nat) (round : Word16) (d : Fin 6) :
    (s.hearEntries count entries sender round).ch d = s.ch d :=
  State.ch_of_chans (by simp) d

@[simp] theorem State.takeCaptures_ch (s : State) (items : List EntryItem) (d : Fin 6) :
    (s.takeCaptures items).ch d = s.ch d :=
  State.ch_of_chans (by simp) d

@[simp] theorem State.offerCaptures_others (s : State) (c : Fin 6) (items : List EntryItem) (d : Fin 6) (h : d ≠ c) :
    (s.offerCaptures c items).ch d = s.ch d := by
  unfold State.offerCaptures <;> (try dsimp only) <;> (repeat' split) <;> simp [h, State.ch_modCh]

@[simp] theorem State.dropCaptures_others (s : State) (c : Fin 6) (d : Fin 6) (h : d ≠ c) :
    (s.dropCaptures c).ch d = s.ch d := by
  unfold State.dropCaptures <;> (try dsimp only) <;> (repeat' split) <;> simp [h, State.ch_modCh]

@[simp] theorem State.placeEntry_ch (s : State) (item : EntryItem) (d : Fin 6) :
    (s.placeEntry item).ch d = s.ch d :=
  State.ch_of_chans (by simp) d

@[simp] theorem State.countCreated_ch (s : State) (d : Fin 6) :
    (s.countCreated).ch d = s.ch d :=
  State.ch_of_chans (by simp) d

@[simp] theorem State.countReceived_ch (s : State) (d : Fin 6) :
    (s.countReceived).ch d = s.ch d :=
  State.ch_of_chans (by simp) d

@[simp] theorem State.countHanded_ch (s : State) (d : Fin 6) :
    (s.countHanded).ch d = s.ch d :=
  State.ch_of_chans (by simp) d

@[simp] theorem State.countFinished_ch (s : State) (d : Fin 6) :
    (s.countFinished).ch d = s.ch d :=
  State.ch_of_chans (by simp) d

@[simp] theorem State.countDiscarded_ch (s : State) (d : Fin 6) :
    (s.countDiscarded).ch d = s.ch d :=
  State.ch_of_chans (by simp) d

@[simp] theorem State.reply_ch (s : State) (r : ReplyItem) (d : Fin 6) :
    (s.reply r).ch d = s.ch d :=
  State.ch_of_chans (by simp) d

@[simp] theorem State.castend_ch (s : State) (c : CastendItem) (d : Fin 6) :
    (s.castend c).ch d = s.ch d :=
  State.ch_of_chans (by simp) d

@[simp] theorem State.modXfer_others (s : State) (c : Fin 6) (f : Xfer → Xfer) (d : Fin 6) (h : d ≠ c) :
    (s.modXfer c f).ch d = s.ch d := by
  unfold State.modXfer <;> (try dsimp only) <;> (repeat' split) <;> simp [h, State.ch_modCh]

@[simp] theorem State.endXfer_others (s : State) (c : Fin 6) (d : Fin 6) (h : d ≠ c) :
    (s.endXfer c).ch d = s.ch d := by
  unfold State.endXfer <;> (try dsimp only) <;> (repeat' split) <;> simp [h, State.ch_modCh]

@[simp] theorem State.offerWait_others (s : State) (c : Fin 6) (b : Bool) (d : Fin 6) (h : d ≠ c) :
    (s.offerWait c b).ch d = s.ch d := by
  unfold State.offerWait <;> (try dsimp only) <;> (repeat' split) <;> simp [h, State.ch_modCh]

@[simp] theorem State.cancelPartner_ch (s : State) (c : Fin 6) (d : Fin 6) :
    (s.cancelPartner c).ch d = s.ch d :=
  State.ch_of_chans (by simp) d

@[simp] theorem State.endOffer_others (s : State) (c : Fin 6) (d : Fin 6) (h : d ≠ c) :
    (s.endOffer c).ch d = s.ch d := by
  unfold State.endOffer <;> (try dsimp only) <;> (repeat' split) <;> simp [h, State.ch_modCh]

@[simp] theorem State.startOffer_others (s : State) (c : Fin 6) (r : PhaseRecord) (d : Fin 6) (h : d ≠ c) :
    (s.startOffer c r).ch d = s.ch d := by
  unfold State.startOffer <;> (try dsimp only) <;> (repeat' split) <;> simp [h, State.ch_modCh]

@[simp] theorem State.xferHalted_others (s : State) (c : Fin 6) (d : Fin 6) (h : d ≠ c) :
    (s.xferHalted c).ch d = s.ch d := by
  unfold State.xferHalted <;> (try dsimp only) <;> (repeat' split) <;> simp [h, State.ch_modCh]

@[simp] theorem State.completeCast_others (s : State) (c : Fin 6) (d : Fin 6) (h : d ≠ c) :
    (s.completeCast c).ch d = s.ch d := by
  unfold State.completeCast <;> (try dsimp only) <;> (repeat' split) <;> simp [h, State.ch_modCh]

@[simp] theorem State.halt_others (s : State) (c : Fin 6) (r : HaltReason) (d : Fin 6) (h : d ≠ c) :
    (s.halt c r).ch d = s.ch d := by
  unfold State.halt <;> (try dsimp only) <;> (repeat' split) <;> simp [h, State.ch_modCh]

@[simp] theorem State.pause_others (s : State) (c : Fin 6) (reason : PauseReason) (resume : Option Resume) (d : Fin 6) (h : d ≠ c) :
    (s.pause c reason resume).ch d = s.ch d := by
  unfold State.pause <;> (try dsimp only) <;> (repeat' split) <;> simp [h, State.ch_modCh]

@[simp] theorem State.starve_others (s : State) (c : Fin 6) (d : Fin 6) (h : d ≠ c) :
    (s.starve c).ch d = s.ch d := by
  unfold State.starve <;> (try dsimp only) <;> (repeat' split) <;> simp [h, State.ch_modCh]

@[simp] theorem State.lowerBy_others (s : State) (c : Fin 6) (e : Nat) (l : List OwnClaim) (d : Fin 6) (h : d ≠ c) :
    (s.lowerBy c e l).ch d = s.ch d := by
  induction l generalizing s e with
  | nil => rfl
  | cons o r ih => unfold State.lowerBy <;> (repeat' split) <;> simp [ih, h]

@[simp] theorem State.retag_ch (s : State) (c : Fin 6) (res : Resource) (r : PhaseRecord) (d : Fin 6) :
    (s.retag c res r).ch d = s.ch d :=
  State.ch_of_chans (by simp) d

@[simp] theorem State.carry_others (s : State) (c : Fin 6) (r : PhaseRecord) (res : Resource) (d : Fin 6) (h : d ≠ c) :
    (s.carry c r res).ch d = s.ch d := by
  unfold State.carry <;> (try dsimp only) <;> (repeat' split) <;> simp [h, State.ch_modCh]

@[simp] theorem State.carryClaims_others (s : State) (c : Fin 6) (r : PhaseRecord) (d : Fin 6) (h : d ≠ c) :
    (s.carryClaims c r).ch d = s.ch d := by
  unfold State.carryClaims <;> (try dsimp only) <;> (repeat' split) <;> simp [h, State.ch_modCh]

@[simp] theorem State.createPiece_others (s : State) (c : Fin 6) (lot : Nat) (d : Fin 6) (h : d ≠ c) :
    (s.createPiece c lot).ch d = s.ch d := by
  unfold State.createPiece <;> (try dsimp only) <;> (repeat' split) <;> simp [h, State.ch_modCh]

@[simp] theorem State.startWaits_others (s : State) (c : Fin 6) (d : Fin 6) (h : d ≠ c) :
    (s.startWaits c).ch d = s.ch d := by
  unfold State.startWaits <;> (try dsimp only) <;> (repeat' split) <;> simp [h, State.ch_modCh]

@[simp] theorem State.startAsks_others (s : State) (c : Fin 6) (r : PhaseRecord) (d : Fin 6) (h : d ≠ c) :
    (s.startAsks c r).ch d = s.ch d := by
  unfold State.startAsks <;> (try dsimp only) <;> (repeat' split) <;> simp [h, State.ch_modCh]

@[simp] theorem State.begin_others (s : State) (c : Fin 6) (afterFinal orphan : Bool) (d : Fin 6) (h : d ≠ c) :
    (s.begin c afterFinal orphan).ch d = s.ch d := by
  unfold State.begin <;> (try dsimp only) <;> (repeat' split) <;> simp [h, State.ch_modCh]

@[simp] theorem State.endPiece_others (s : State) (c : Fin 6) (d : Fin 6) (h : d ≠ c) :
    (s.endPiece c).ch d = s.ch d := by
  unfold State.endPiece <;> (try dsimp only) <;> (repeat' split) <;> simp [h, State.ch_modCh]

@[simp] theorem State.afterFinal_others (s : State) (c : Fin 6) (k : PhaseKind) (d : Fin 6) (h : d ≠ c) :
    (s.afterFinal c k).ch d = s.ch d := by
  unfold State.afterFinal <;> (try dsimp only) <;> (repeat' split) <;> simp [h, State.ch_modCh]

@[simp] theorem State.complete_others (s : State) (c : Fin 6) (reason : EndReason) (d : Fin 6) (h : d ≠ c) :
    (s.complete c reason).ch d = s.ch d := by
  unfold State.complete <;> (try dsimp only) <;> (repeat' split) <;> simp [h, State.ch_modCh]

@[simp] theorem State.finish_others (s : State) (c : Fin 6) (reason : EndReason) (d : Fin 6) (h : d ≠ c) :
    (s.finish c reason).ch d = s.ch d := by
  unfold State.finish <;> (try dsimp only) <;> (repeat' split) <;> simp [h, State.ch_modCh]

@[simp] theorem State.startPhase_others (s : State) (c : Fin 6) (orphan : Bool) (d : Fin 6) (h : d ≠ c) :
    (s.startPhase c orphan).ch d = s.ch d := by
  unfold State.startPhase <;> (try dsimp only) <;> (repeat' split) <;> simp [h, State.ch_modCh]

@[simp] theorem State.modTurner_ch (s : State) (f : Turner → Turner) (d : Fin 6) :
    (s.modTurner f).ch d = s.ch d :=
  State.ch_of_chans (by simp) d

@[simp] theorem State.turnDone_ch (s : State) (o : TurnOutcome) (d : Fin 6) :
    (s.turnDone o).ch d = s.ch d :=
  State.ch_of_chans (by simp) d

@[simp] theorem State.turnend_ch (s : State) (box : Pair) (o : TurnOutcome) (round : Word16) (d : Fin 6) :
    (s.turnend box o round).ch d = s.ch d :=
  State.ch_of_chans (by simp) d

@[simp] theorem State.orderEnd_ch (s : State) (o : Order) (out : TurnOutcome) (d : Fin 6) :
    (s.orderEnd o out).ch d = s.ch d :=
  State.ch_of_chans (by simp) d

@[simp] theorem State.turnerGranted_ch (s : State) (d : Fin 6) :
    (s.turnerGranted).ch d = s.ch d :=
  State.ch_of_chans (by simp) d

@[simp] theorem State.travelDone_ch (s : State) (d : Fin 6) :
    (s.travelDone).ch d = s.ch d :=
  State.ch_of_chans (by simp) d

@[simp] theorem State.listFaults_ch (s : State) (sender : Nat) (a : Applied) (d : Fin 6) :
    (s.listFaults sender a).ch d = s.ch d :=
  State.ch_of_chans (by simp) d

@[simp] theorem State.askTransfer_others (s : State) (c : Fin 6) (d : Fin 6) (h : d ≠ c) :
    (s.askTransfer c).ch d = s.ch d := by
  unfold State.askTransfer <;> (try dsimp only) <;> (repeat' split) <;> simp [h, State.ch_modCh]

@[simp] theorem State.accepted_others (s : State) (c : Fin 6) (d : Fin 6) (h : d ≠ c) :
    (s.accepted c).ch d = s.ch d := by
  unfold State.accepted <;> (try dsimp only) <;> (repeat' split) <;> simp [h, State.ch_modCh]

@[simp] theorem State.declined_others (s : State) (c : Fin 6) (r : DeclineReason) (d : Fin 6) (h : d ≠ c) :
    (s.declined c r).ch d = s.ch d := by
  unfold State.declined <;> dsimp only <;> split <;> simp [h]

@[simp] theorem State.placePiece_others (s : State) (c : Fin 6) (content : Piece) (orphan : Bool) (d : Fin 6) (h : d ≠ c) :
    (s.placePiece c content orphan).ch d = s.ch d := by
  unfold State.placePiece <;> (try dsimp only) <;> (repeat' split) <;> simp [h, State.ch_modCh]

@[simp] theorem State.settlePiece_others (s : State) (c : Fin 6) (d : Fin 6) (h : d ≠ c) :
    (s.settlePiece c).ch d = s.ch d := by
  unfold State.settlePiece <;> (try dsimp only) <;> (repeat' split) <;> simp [h, State.ch_modCh]

@[simp] theorem State.arrive_others (s : State) (c : Fin 6) (source : Pair) (content : Piece) (d : Fin 6) (h : d ≠ c) :
    (s.arrive c source content).ch d = s.ch d := by
  unfold State.arrive <;> (try dsimp only) <;> (repeat' split) <;> simp [h, State.ch_modCh]

@[simp] theorem State.modPiece_others (s : State) (c : Fin 6) (f : Piece → Piece) (d : Fin 6) (h : d ≠ c) :
    (s.modPiece c f).ch d = s.ch d := by
  unfold State.modPiece <;> (try dsimp only) <;> (repeat' split) <;> simp [h, State.ch_modCh]

@[simp] theorem State.makeOrphan_others (s : State) (c : Fin 6) (value : Nat) (d : Fin 6) (h : d ≠ c) :
    (s.makeOrphan c value).ch d = s.ch d := by
  unfold State.makeOrphan <;> (try dsimp only) <;> (repeat' split) <;> simp [h, State.ch_modCh]

@[simp] theorem State.lossAt_others (s : State) (station : Nat) (c : Fin 6) (d : Fin 6) (h : d ≠ c) :
    (s.lossAt station c).ch d = s.ch d := by
  unfold State.lossAt <;> (try dsimp only) <;> (repeat' split) <;> simp [h, State.ch_modCh]

@[simp] theorem State.turnEnds_others (s : State) (c : Fin 6) (reason : EndReason) (d : Fin 6) (h : d ≠ c) :
    (s.turnEnds c reason).ch d = s.ch d := by
  unfold State.turnEnds <;> (try dsimp only) <;> (repeat' split) <;> simp [h, State.ch_modCh]

@[simp] theorem State.discardPiece_others (s : State) (c : Fin 6) (d : Fin 6) (h : d ≠ c) :
    (s.discardPiece c).ch d = s.ch d := by
  unfold State.discardPiece <;> (try dsimp only) <;> (repeat' split) <;> simp [h, State.ch_modCh]

@[simp] theorem State.modLine_ch (s : State) (f : Line → Line) (d : Fin 6) :
    (s.modLine f).ch d = s.ch d :=
  State.ch_of_chans (by simp) d

@[simp] theorem State.startFrame_ch (s : State) (d : Fin 6) :
    (s.startFrame).ch d = s.ch d :=
  State.ch_of_chans (by simp) d

@[simp] theorem State.openWindow_ch (s : State) (d : Fin 6) :
    (s.openWindow).ch d = s.ch d :=
  State.ch_of_chans (by simp) d

@[simp] theorem State.closeWindow_ch (s : State) (d : Fin 6) :
    (s.closeWindow).ch d = s.ch d :=
  State.ch_of_chans (by simp) d

@[simp] theorem State.windowAtEnd_ch (s : State) (d : Fin 6) :
    (s.windowAtEnd).ch d = s.ch d :=
  State.ch_of_chans (by simp) d

@[simp] theorem State.windowAtTurn_ch (s : State) (d : Fin 6) :
    (s.windowAtTurn).ch d = s.ch d :=
  State.ch_of_chans (by simp) d

@[simp] theorem State.takeSender_ch (s : State) (x : Option Nat) (d : Fin 6) :
    (s.takeSender x).ch d = s.ch d :=
  State.ch_of_chans (by simp) d

@[simp] theorem State.markFailure_ch (s : State) (d : Fin 6) :
    (s.markFailure).ch d = s.ch d :=
  State.ch_of_chans (by simp) d

@[simp] theorem State.enterListening_ch (s : State) (d : Fin 6) :
    (s.enterListening).ch d = s.ch d :=
  State.ch_of_chans (by simp) d

@[simp] theorem State.enterJoining_ch (s : State) (d : Fin 6) :
    (s.enterJoining).ch d = s.ch d :=
  State.ch_of_chans (by simp) d

@[simp] theorem State.ownAbsent_ch (s : State) (d : Fin 6) :
    (s.ownAbsent).ch d = s.ch d :=
  State.ch_of_chans (by simp) d

@[simp] theorem State.muteDown_ch (s : State) (d : Fin 6) :
    (s.muteDown).ch d = s.ch d :=
  State.ch_of_chans (by simp) d

@[simp] theorem State.dropLine_ch (s : State) (d : Fin 6) :
    (s.dropLine).ch d = s.ch d :=
  State.ch_of_chans (by simp) d

@[simp] theorem State.newcomer_ch (s : State) (a : Nat) (d : Fin 6) :
    (s.newcomer a).ch d = s.ch d :=
  State.ch_of_chans (by simp) d

@[simp] theorem State.becomeMember_ch (s : State) (d : Fin 6) :
    (s.becomeMember).ch d = s.ch d :=
  State.ch_of_chans (by simp) d

@[simp] theorem State.hearHeader_ch (s : State) (f : TurnFrame) (d : Fin 6) :
    (s.hearHeader f).ch d = s.ch d :=
  State.ch_of_chans (by simp) d

@[simp] theorem State.heardOther_ch (s : State) (d : Fin 6) :
    (s.heardOther).ch d = s.ch d :=
  State.ch_of_chans (by simp) d

@[simp] theorem State.offerUnanswered_others (s : State) (c : Fin 6) (d : Fin 6) (h : d ≠ c) :
    (s.offerUnanswered c).ch d = s.ch d := by
  unfold State.offerUnanswered <;> (try dsimp only) <;> (repeat' split) <;> simp [h, State.ch_modCh]

@[simp] theorem State.offerRound_others (s : State) (c : Fin 6) (d : Fin 6) (h : d ≠ c) :
    (s.offerRound c).ch d = s.ch d := by
  unfold State.offerRound <;> (try dsimp only) <;> (repeat' split) <;> simp [h, State.ch_modCh]

@[simp] theorem State.judgeView_ch (s : State) (d : Fin 6) :
    (s.judgeView).ch d = s.ch d :=
  State.ch_of_chans (by simp) d

@[simp] theorem State.compareRound_ch (s : State) (round : Word16) (d : Fin 6) :
    (s.compareRound round).ch d = s.ch d :=
  State.ch_of_chans (by simp) d

@[simp] theorem State.countComplete_ch (s : State) (d : Fin 6) :
    (s.countComplete).ch d = s.ch d :=
  State.ch_of_chans (by simp) d

@[simp] theorem State.openingTime_ch (s : State) (d : Fin 6) :
    (s.openingTime).ch d = s.ch d :=
  State.ch_of_chans (by simp) d

@[simp] theorem State.startTurn_ch (s : State) (opening cold : Bool) (round : Word16) (d : Fin 6) :
    (s.startTurn opening cold round).ch d = s.ch d :=
  State.ch_of_chans (by simp) d

@[simp] theorem State.startCold_ch (s : State) (d : Fin 6) :
    (s.startCold).ch d = s.ch d :=
  State.ch_of_chans (by simp) d

@[simp] theorem State.startJoin_ch (s : State) (d : Fin 6) :
    (s.startJoin).ch d = s.ch d :=
  State.ch_of_chans (by simp) d

@[simp] theorem State.stopSending_ch (s : State) (other : Bool) (d : Fin 6) :
    (s.stopSending other).ch d = s.ch d :=
  State.ch_of_chans (by simp) d

@[simp] theorem State.cutShort_ch (s : State) (other : Bool) (d : Fin 6) :
    (s.cutShort other).ch d = s.ch d :=
  State.ch_of_chans (by simp) d

@[simp] theorem State.abortEnds_ch (s : State) (own : OwnFrame) (other : Bool) (d : Fin 6) :
    (s.abortEnds own other).ch d = s.ch d :=
  State.ch_of_chans (by simp) d

@[simp] theorem State.applyMerge_ch (s : State) (c : Fin 6) (d : Fin 6) :
    (s.applyMerge c).ch d = s.ch d :=
  State.ch_of_chans (by simp) d

@[simp] theorem State.captureRead_others (s : State) (c : Fin 6) (d : Fin 6) (h : d ≠ c) :
    (s.captureRead c).ch d = s.ch d := by
  unfold State.captureRead <;> (try dsimp only) <;> (repeat' split) <;> simp [h, State.ch_modCh]

@[simp] theorem State.removeCarried_ch (s : State) (d : Fin 6) :
    (s.removeCarried).ch d = s.ch d :=
  State.ch_of_chans (by simp) d

@[simp] theorem State.ownEnd_ch (s : State) (d : Fin 6) :
    (s.ownEnd).ch d = s.ch d :=
  State.ch_of_chans (by simp) d

@[simp] theorem State.joinRead_ch (s : State) (d : Fin 6) :
    (s.joinRead).ch d = s.ch d :=
  State.ch_of_chans (by simp) d

@[simp] theorem State.frameEnd_ch (s : State) (d : Fin 6) :
    (s.frameEnd).ch d = s.ch d :=
  State.ch_of_chans (by simp) d

@[simp] theorem State.restartCold_ch (s : State) (d : Fin 6) :
    (s.restartCold).ch d = s.ch d :=
  State.ch_of_chans (by simp) d

@[simp] theorem State.checkFailed_ch (s : State) (d : Fin 6) :
    (s.checkFailed).ch d = s.ch d :=
  State.ch_of_chans (by simp) d

@[simp] theorem State.sensorEvent_ch (s : State) (c : Fin 6) (i : Input) (word : Nat) (d : Fin 6) :
    (s.sensorEvent c i word).ch d = s.ch d :=
  State.ch_of_chans (by simp) d

@[simp] theorem State.sensorChange_ch (s : State) (c : Fin 6) (i : Input) (was is : Bool) (d : Fin 6) :
    (s.sensorChange c i was is).ch d = s.ch d :=
  State.ch_of_chans (by simp) d

@[simp] theorem State.sample_others (s : State) (c : Fin 6) (raw : RawArrival) (d : Fin 6) (h : d ≠ c) :
    (s.sample c raw).ch d = s.ch d := by
  unfold State.sample <;> (try dsimp only) <;> (repeat' split) <;> simp [h, State.ch_modCh]

@[simp] theorem State.judgeInput_others (s : State) (c : Fin 6) (i : Input) (d : Fin 6) (h : d ≠ c) :
    (s.judgeInput c i).ch d = s.ch d := by
  unfold State.judgeInput <;> (try dsimp only) <;> (repeat' split) <;> simp [h, State.ch_modCh]

@[simp] theorem State.judgeInputs_others (s : State) (c : Fin 6) (d : Fin 6) (h : d ≠ c) :
    (s.judgeInputs c).ch d = s.ch d := by
  unfold State.judgeInputs <;> (try dsimp only) <;> (repeat' split) <;> simp [h, State.ch_modCh]

@[simp] theorem State.accumulate_others (s : State) (c : Fin 6) (d : Fin 6) (h : d ≠ c) :
    (s.accumulate c).ch d = s.ch d := by
  unfold State.accumulate <;> (try dsimp only) <;> (repeat' split) <;> simp [h, State.ch_modCh]

@[simp] theorem State.captureLevel_others (s : State) (c : Fin 6) (run : SteadyRun) (d : Fin 6) (h : d ≠ c) :
    (s.captureLevel c run).ch d = s.ch d := by
  unfold State.captureLevel <;> (try dsimp only) <;> (repeat' split) <;> simp [h, State.ch_modCh]

@[simp] theorem State.judgeLevel_others (s : State) (c : Fin 6) (level : Option Int) (d : Fin 6) (h : d ≠ c) :
    (s.judgeLevel c level).ch d = s.ch d := by
  unfold State.judgeLevel <;> (try dsimp only) <;> (repeat' split) <;> simp [h, State.ch_modCh]

@[simp] theorem State.fillEnd_others (s : State) (c : Fin 6) (r : PhaseRecord) (d : Fin 6) (h : d ≠ c) :
    (s.fillEnd c r).ch d = s.ch d := by
  unfold State.fillEnd <;> (try dsimp only) <;> (repeat' split) <;> simp [h, State.ch_modCh]

@[simp] theorem State.drainEnd_others (s : State) (c : Fin 6) (d : Fin 6) (h : d ≠ c) :
    (s.drainEnd c).ch d = s.ch d := by
  unfold State.drainEnd <;> (try dsimp only) <;> (repeat' split) <;> simp [h, State.ch_modCh]

@[simp] theorem State.castEnd_others (s : State) (c : Fin 6) (d : Fin 6) (h : d ≠ c) :
    (s.castEnd c).ch d = s.ch d := by
  unfold State.castEnd <;> (try dsimp only) <;> (repeat' split) <;> simp [h, State.ch_modCh]

@[simp] theorem State.fillShed_others (s : State) (c : Fin 6) (d : Fin 6) (h : d ≠ c) :
    (s.fillShed c).ch d = s.ch d := by
  unfold State.fillShed <;> (try dsimp only) <;> (repeat' split) <;> simp [h, State.ch_modCh]

@[simp] theorem State.steepRunning_others (s : State) (c : Fin 6) (r : PhaseRecord) (d : Fin 6) (h : d ≠ c) :
    (s.steepRunning c r).ch d = s.ch d := by
  unfold State.steepRunning <;> (try dsimp only) <;> (repeat' split) <;> simp [h, State.ch_modCh]

@[simp] theorem State.steepArrival_others (s : State) (c : Fin 6) (d : Fin 6) (h : d ≠ c) :
    (s.steepArrival c).ch d = s.ch d := by
  unfold State.steepArrival <;> (try dsimp only) <;> (repeat' split) <;> simp [h, State.ch_modCh]

@[simp] theorem State.askTopUp_others (s : State) (c : Fin 6) (d : Fin 6) (h : d ≠ c) :
    (s.askTopUp c).ch d = s.ch d := by
  unfold State.askTopUp <;> (try dsimp only) <;> (repeat' split) <;> simp [h, State.ch_modCh]

@[simp] theorem State.judgeLimited_others (s : State) (c : Fin 6) (d : Fin 6) (h : d ≠ c) :
    (s.judgeLimited c).ch d = s.ch d := by
  unfold State.judgeLimited <;> (try dsimp only) <;> (repeat' split) <;> simp [h, State.ch_modCh]

@[simp] theorem State.fanLaw_others (s : State) (c : Fin 6) (r : PhaseRecord) (d : Fin 6) (h : d ≠ c) :
    (s.fanLaw c r).ch d = s.ch d := by
  unfold State.fanLaw <;> (try dsimp only) <;> (repeat' split) <;> simp [h, State.ch_modCh]

@[simp] theorem State.boxArrival_others (s : State) (c : Fin 6) (d : Fin 6) (h : d ≠ c) :
    (s.boxArrival c).ch d = s.ch d := by
  unfold State.boxArrival <;> (try dsimp only) <;> (repeat' split) <;> simp [h, State.ch_modCh]

@[simp] theorem State.fire_others (s : State) (c : Fin 6) (r : PhaseRecord) (d : Fin 6) (h : d ≠ c) :
    (s.fire c r).ch d = s.ch d := by
  unfold State.fire <;> (try dsimp only) <;> (repeat' split) <;> simp [h, State.ch_modCh]

@[simp] theorem State.burnerLaw_others (s : State) (c : Fin 6) (r : PhaseRecord) (d : Fin 6) (h : d ≠ c) :
    (s.burnerLaw c r).ch d = s.ch d := by
  unfold State.burnerLaw <;> (try dsimp only) <;> (repeat' split) <;> simp [h, State.ch_modCh]

@[simp] theorem State.burnerArrival_others (s : State) (c : Fin 6) (d : Fin 6) (h : d ≠ c) :
    (s.burnerArrival c).ch d = s.ch d := by
  unfold State.burnerArrival <;> (try dsimp only) <;> (repeat' split) <;> simp [h, State.ch_modCh]

@[simp] theorem State.judgeBreak_others (s : State) (c : Fin 6) (r : PhaseRecord) (d : Fin 6) (h : d ≠ c) :
    (s.judgeBreak c r).ch d = s.ch d := by
  unfold State.judgeBreak <;> (try dsimp only) <;> (repeat' split) <;> simp [h, State.ch_modCh]

@[simp] theorem State.makeMoisture_others (s : State) (c : Fin 6) (values : List Int) (d : Fin 6) (h : d ≠ c) :
    (s.makeMoisture c values).ch d = s.ch d := by
  unfold State.makeMoisture <;> (try dsimp only) <;> (repeat' split) <;> simp [h, State.ch_modCh]

@[simp] theorem State.addReading_others (s : State) (c : Fin 6) (v : Int) (d : Fin 6) (h : d ≠ c) :
    (s.addReading c v).ch d = s.ch d := by
  unfold State.addReading <;> (try dsimp only) <;> (repeat' split) <;> simp [h, State.ch_modCh]

@[simp] theorem State.readMoisture_others (s : State) (c : Fin 6) (d : Fin 6) (h : d ≠ c) :
    (s.readMoisture c).ch d = s.ch d := by
  unfold State.readMoisture <;> (try dsimp only) <;> (repeat' split) <;> simp [h, State.ch_modCh]

@[simp] theorem State.kilnArrival_others (s : State) (c : Fin 6) (d : Fin 6) (h : d ≠ c) :
    (s.kilnArrival c).ch d = s.ch d := by
  unfold State.kilnArrival <;> (try dsimp only) <;> (repeat' split) <;> simp [h, State.ch_modCh]

@[simp] theorem State.endReset_ch (s : State) (d : Fin 6) :
    (s.endReset).ch d = s.ch d :=
  State.ch_of_chans (by simp) d

@[simp] theorem State.askSaved_ch (s : State) (c : Fin 6) (x : Saved) (d : Fin 6) :
    (s.askSaved c x).ch d = s.ch d :=
  State.ch_of_chans (by simp) d

@[simp] theorem State.askRestart_others (s : State) (c : Fin 6) (d : Fin 6) (h : d ≠ c) :
    (s.askRestart c).ch d = s.ch d := by
  unfold State.askRestart <;> (try dsimp only) <;> (repeat' split) <;> simp [h, State.ch_modCh]

@[simp] theorem State.pauseRestart_others (s : State) (c : Fin 6) (resume : Resume) (d : Fin 6) (h : d ≠ c) :
    (s.pauseRestart c resume).ch d = s.ch d := by
  unfold State.pauseRestart <;> (try dsimp only) <;> (repeat' split) <;> simp [h, State.ch_modCh]

@[simp] theorem State.castRestart_others (s : State) (c : Fin 6) (d : Fin 6) (h : d ≠ c) :
    (s.castRestart c).ch d = s.ch d := by
  unfold State.castRestart <;> (try dsimp only) <;> (repeat' split) <;> simp [h, State.ch_modCh]

@[simp] theorem State.dropList_others (s : State) (c : Fin 6) (d : Fin 6) (h : d ≠ c) :
    (s.dropList c).ch d = s.ch d := by
  unfold State.dropList <;> (try dsimp only) <;> (repeat' split) <;> simp [h, State.ch_modCh]

@[simp] theorem State.decide_others (s : State) (c : Fin 6) (d : Fin 6) (h : d ≠ c) :
    (s.decide c).ch d = s.ch d := by
  unfold State.decide <;> (try dsimp only) <;> (repeat' split) <;> simp [h, State.ch_modCh]

@[simp] theorem State.loadImage_ch (s : State) (image : List Byte) (d : Fin 6) :
    (s.loadImage image).ch d = s.ch d :=
  State.ch_of_chans (by simp) d

@[simp] theorem State.recordRestart_ch (s : State) (d : Fin 6) :
    (s.recordRestart).ch d = s.ch d :=
  State.ch_of_chans (by simp) d

@[simp] theorem State.leaveClocking_ch (s : State) (d : Fin 6) :
    (s.leaveClocking).ch d = s.ch d :=
  State.ch_of_chans (by simp) d

@[simp] theorem State.emptyReply_ch (s : State) (d : Fin 6) :
    (s.emptyReply).ch d = s.ch d :=
  State.ch_of_chans (by simp) d

@[simp] theorem State.badLoad_ch (s : State) (d : Fin 6) :
    (s.badLoad).ch d = s.ch d :=
  State.ch_of_chans (by simp) d

@[simp] theorem State.endBadLoad_ch (s : State) (d : Fin 6) :
    (s.endBadLoad).ch d = s.ch d :=
  State.ch_of_chans (by simp) d

@[simp] theorem State.setXtal_ch (s : State) (d : Fin 6) :
    (s.setXtal).ch d = s.ch d :=
  State.ch_of_chans (by simp) d

@[simp] theorem State.crystalIsReady_ch (s : State) (d : Fin 6) :
    (s.crystalIsReady).ch d = s.ch d :=
  State.ch_of_chans (by simp) d

@[simp] theorem State.restartWait_ch (s : State) (d : Fin 6) :
    (s.restartWait).ch d = s.ch d :=
  State.ch_of_chans (by simp) d

@[simp] theorem State.answer_ch (s : State) (code : Byte) (result : Result) (data : List Nat) (d : Fin 6) :
    (s.answer code result data).ch d = s.ch d :=
  State.ch_of_chans (by simp) d

@[simp] theorem State.okData_ch (s : State) (code : Byte) (data : List Nat) (d : Fin 6) :
    (s.okData code data).ch d = s.ch d :=
  State.ch_of_chans (by simp) d

@[simp] theorem State.ok_ch (s : State) (code : Byte) (d : Fin 6) :
    (s.ok code).ch d = s.ch d :=
  State.ch_of_chans (by simp) d

@[simp] theorem State.refuse_ch (s : State) (code : Byte) (r : Reason) (d : Fin 6) :
    (s.refuse code r).ch d = s.ch d :=
  State.ch_of_chans (by simp) d

@[simp] theorem State.taken_ch (s : State) (code : Byte) (d : Fin 6) :
    (s.taken code).ch d = s.ch d :=
  State.ch_of_chans (by simp) d

@[simp] theorem State.bad_ch (s : State) (code : Byte) (d : Fin 6) :
    (s.bad code).ch d = s.ch d :=
  State.ch_of_chans (by simp) d

@[simp] theorem State.coldExpires_ch (s : State) (d : Fin 6) :
    (s.coldExpires).ch d = s.ch d :=
  State.ch_of_chans (by simp) d

@[simp] theorem State.atOpening_ch (s : State) (k : Nat) (d : Fin 6) :
    (s.atOpening k).ch d = s.ch d :=
  State.ch_of_chans (by simp) d

@[simp] theorem State.takesTurn_ch (s : State) (d : Fin 6) :
    (s.takesTurn).ch d = s.ch d :=
  State.ch_of_chans (by simp) d

@[simp] theorem State.timerAt_others (s : State) (c : Fin 6) (t : Nat) (d : Fin 6) (h : d ≠ c) :
    (s.timerAt c t).ch d = s.ch d := by
  unfold State.timerAt <;> (try dsimp only) <;> (repeat' split) <;> simp [h, State.ch_modCh]

@[simp] theorem State.durationDone_others (s : State) (c : Fin 6) (r : PhaseRecord) (d : Fin 6) (h : d ≠ c) :
    (s.durationDone c r).ch d = s.ch d := by
  unfold State.durationDone <;> (try dsimp only) <;> (repeat' split) <;> simp [h, State.ch_modCh]

@[simp] theorem State.durationReached_others (s : State) (c : Fin 6) (d : Fin 6) (h : d ≠ c) :
    (s.durationReached c).ch d = s.ch d := by
  unfold State.durationReached <;> (try dsimp only) <;> (repeat' split) <;> simp [h, State.ch_modCh]

@[simp] theorem State.blowerOnEdge_others (s : State) (c : Fin 6) (d : Fin 6) (h : d ≠ c) :
    (s.blowerOnEdge c).ch d = s.ch d := by
  unfold State.blowerOnEdge <;> (try dsimp only) <;> (repeat' split) <;> simp [h, State.ch_modCh]

@[simp] theorem State.blowerOffEdge_others (s : State) (c : Fin 6) (d : Fin 6) (h : d ≠ c) :
    (s.blowerOffEdge c).ch d = s.ch d := by
  unfold State.blowerOffEdge <;> (try dsimp only) <;> (repeat' split) <;> simp [h, State.ch_modCh]

@[simp] theorem State.restShed_others (s : State) (c : Fin 6) (d : Fin 6) (h : d ≠ c) :
    (s.restShed c).ch d = s.ch d := by
  unfold State.restShed <;> (try dsimp only) <;> (repeat' split) <;> simp [h, State.ch_modCh]

@[simp] theorem State.airRestEdge_others (s : State) (c : Fin 6) (d : Fin 6) (h : d ≠ c) :
    (s.airRestEdge c).ch d = s.ch d := by
  unfold State.airRestEdge <;> (try dsimp only) <;> (repeat' split) <;> simp [h, State.ch_modCh]

@[simp] theorem State.sprayEdge_others (s : State) (c : Fin 6) (d : Fin 6) (h : d ≠ c) :
    (s.sprayEdge c).ch d = s.ch d := by
  unfold State.sprayEdge <;> (try dsimp only) <;> (repeat' split) <;> simp [h, State.ch_modCh]

@[simp] theorem State.loadAt_others (r : PhaseRecord) (c : Fin 6) (s : State) (d : Fin 6) (h : d ≠ c) :
    (State.loadAt r c s).ch d = s.ch d := by
  unfold State.loadAt <;> (try dsimp only) <;> (repeat' split) <;> simp [h, State.ch_modCh]

@[simp] theorem State.holdAt_others (c : Fin 6) (s : State) (d : Fin 6) (h : d ≠ c) :
    (State.holdAt c s).ch d = s.ch d := by
  unfold State.holdAt <;> (try dsimp only) <;> (repeat' split) <;> simp [h, State.ch_modCh]

@[simp] theorem State.runAgain_others (s : State) (c : Fin 6) (d : Fin 6) (h : d ≠ c) :
    (s.runAgain c).ch d = s.ch d := by
  unfold State.runAgain <;> (try dsimp only) <;> (repeat' split) <;> simp [h, State.ch_modCh]

@[simp] theorem State.resumeRunning_others (s : State) (c : Fin 6) (d : Fin 6) (h : d ≠ c) :
    (s.resumeRunning c).ch d = s.ch d := by
  unfold State.resumeRunning <;> (try dsimp only) <;> (repeat' split) <;> simp [h, State.ch_modCh]

@[simp] theorem State.resumeStarved_others (s : State) (c : Fin 6) (orphan : Bool) (d : Fin 6) (h : d ≠ c) :
    (s.resumeStarved c orphan).ch d = s.ch d := by
  unfold State.resumeStarved <;> (try dsimp only) <;> (repeat' split) <;> simp [h, State.ch_modCh]

@[simp] theorem State.releaseCleared_others (s : State) (c : Fin 6) (d : Fin 6) (h : d ≠ c) :
    (s.releaseCleared c).ch d = s.ch d := by
  unfold State.releaseCleared <;> (try dsimp only) <;> (repeat' split) <;> simp [h, State.ch_modCh]

@[simp] theorem State.offerAgain_others (s : State) (c : Fin 6) (d : Fin 6) (h : d ≠ c) :
    (s.offerAgain c).ch d = s.ch d := by
  unfold State.offerAgain <;> (try dsimp only) <;> (repeat' split) <;> simp [h, State.ch_modCh]

@[simp] theorem State.releaseOffer_others (s : State) (c : Fin 6) (d : Fin 6) (h : d ≠ c) :
    (s.releaseOffer c).ch d = s.ch d := by
  unfold State.releaseOffer <;> (try dsimp only) <;> (repeat' split) <;> simp [h, State.ch_modCh]

@[simp] theorem State.releaseRestart_others (s : State) (c : Fin 6) (d : Fin 6) (h : d ≠ c) :
    (s.releaseRestart c).ch d = s.ch d := by
  unfold State.releaseRestart <;> (try dsimp only) <;> (repeat' split) <;> simp [h, State.ch_modCh]

@[simp] theorem State.releasePaused_others (s : State) (c : Fin 6) (d : Fin 6) (h : d ≠ c) :
    (s.releasePaused c).ch d = s.ch d := by
  unfold State.releasePaused <;> (try dsimp only) <;> (repeat' split) <;> simp [h, State.ch_modCh]

@[simp] theorem State.releaseAt_others (c : Fin 6) (s : State) (d : Fin 6) (h : d ≠ c) :
    (State.releaseAt c s).ch d = s.ch d := by
  unfold State.releaseAt <;> (try dsimp only) <;> (repeat' split) <;> simp [h, State.ch_modCh]

@[simp] theorem State.clearTransfer_others (s : State) (c : Fin 6) (d : Fin 6) (h : d ≠ c) :
    (s.clearTransfer c).ch d = s.ch d := by
  unfold State.clearTransfer <;> (try dsimp only) <;> (repeat' split) <;> simp [h, State.ch_modCh]

@[simp] theorem State.clearHaltAt_others (c : Fin 6) (s : State) (d : Fin 6) (h : d ≠ c) :
    (State.clearHaltAt c s).ch d = s.ch d := by
  unfold State.clearHaltAt <;> (try dsimp only) <;> (repeat' split) <;> simp [h, State.ch_modCh]

@[simp] theorem State.clearTurner_ch (s : State) (d : Fin 6) :
    (s.clearTurner).ch d = s.ch d :=
  State.ch_of_chans (by simp) d

@[simp] theorem State.channelResetAt_others (c : Fin 6) (s : State) (d : Fin 6) (h : d ≠ c) :
    (State.channelResetAt c s).ch d = s.ch d := by
  unfold State.channelResetAt <;> (try dsimp only) <;> (repeat' split) <;> simp [h, State.ch_modCh]

@[simp] theorem State.withdraw_others (s : State) (c : Fin 6) (d : Fin 6) (h : d ≠ c) :
    (s.withdraw c).ch d = s.ch d := by
  unfold State.withdraw <;> (try dsimp only) <;> (repeat' split) <;> simp [h, State.ch_modCh]

@[simp] theorem State.withdrawAt_others (c : Fin 6) (s : State) (d : Fin 6) (h : d ≠ c) :
    (State.withdrawAt c s).ch d = s.ch d := by
  unfold State.withdrawAt <;> (try dsimp only) <;> (repeat' split) <;> simp [h, State.ch_modCh]

@[simp] theorem State.sampleElock_ch (s : State) (low : Bool) (d : Fin 6) :
    (s.sampleElock low).ch d = s.ch d :=
  State.ch_of_chans (by simp) d

@[simp] theorem State.discardAt_others (c : Fin 6) (s : State) (d : Fin 6) (h : d ≠ c) :
    (State.discardAt c s).ch d = s.ch d := by
  unfold State.discardAt <;> (try dsimp only) <;> (repeat' split) <;> simp [h, State.ch_modCh]

@[simp] theorem State.handGaugeAt_ch (k : HandKind) (g : Nat) (c : Fin 6) (s : State) (d : Fin 6) :
    (State.handGaugeAt k g c s).ch d = s.ch d :=
  State.ch_of_chans (by simp) d

@[simp] theorem State.setMask_ch (s : State) (m : Mask) (d : Fin 6) :
    (s.setMask m).ch d = s.ch d :=
  State.ch_of_chans (by simp) d

@[simp] theorem State.popped_ch (s : State) (d : Fin 6) :
    (s.popped).ch d = s.ch d :=
  State.ch_of_chans (by simp) d

@[simp] theorem State.faultRead_ch (s : State) (d : Fin 6) :
    (s.faultRead).ch d = s.ch d :=
  State.ch_of_chans (by simp) d

end Sys2Proof.Machine
end

