-- ==== Sys2Proof/Laws/Line.lean ====
section
/-! SUPPORT. What each operation that changes the Line Controller leaves alone in it, one lemma per operation. -/

set_option linter.unusedTactic false
set_option linter.unreachableTactic false
set_option linter.unusedSimpArgs false
set_option linter.unnecessarySeqFocus false

namespace Sys2Proof.Machine

@[simp] theorem foldl_line_state {α : Type} (f : State → α → State) (l : List α) (s : State)
    (h : ∀ t a, (f t a).line.state = t.line.state) : (l.foldl f s).line.state = s.line.state := by
  induction l generalizing s with
  | nil => rfl
  | cons a r ih => simp only [List.foldl_cons]; rw [ih, h]

@[simp] theorem foldl_line_round {α : Type} (f : State → α → State) (l : List α) (s : State)
    (h : ∀ t a, (f t a).line.round = t.line.round) : (l.foldl f s).line.round = s.line.round := by
  induction l generalizing s with
  | nil => rfl
  | cons a r ih => simp only [List.foldl_cons]; rw [ih, h]

@[simp] theorem foldl_line_clean {α : Type} (f : State → α → State) (l : List α) (s : State)
    (h : ∀ t a, (f t a).line.clean = t.line.clean) : (l.foldl f s).line.clean = s.line.clean := by
  induction l generalizing s with
  | nil => rfl
  | cons a r ih => simp only [List.foldl_cons]; rw [ih, h]

@[simp] theorem foldl_line_record {α : Type} (f : State → α → State) (l : List α) (s : State)
    (h : ∀ t a, (f t a).line.record = t.line.record) : (l.foldl f s).line.record = s.line.record := by
  induction l generalizing s with
  | nil => rfl
  | cons a r ih => simp only [List.foldl_cons]; rw [ih, h]

@[simp] theorem foldl_line_dissenting {α : Type} (f : State → α → State) (l : List α) (s : State)
    (h : ∀ t a, (f t a).line.dissenting = t.line.dissenting) : (l.foldl f s).line.dissenting = s.line.dissenting := by
  induction l generalizing s with
  | nil => rfl
  | cons a r ih => simp only [List.foldl_cons]; rw [ih, h]

@[simp] theorem foldl_line_aborts {α : Type} (f : State → α → State) (l : List α) (s : State)
    (h : ∀ t a, (f t a).line.aborts = t.line.aborts) : (l.foldl f s).line.aborts = s.line.aborts := by
  induction l generalizing s with
  | nil => rfl
  | cons a r ih => simp only [List.foldl_cons]; rw [ih, h]

@[simp] theorem foldl_line_rounds {α : Type} (f : State → α → State) (l : List α) (s : State)
    (h : ∀ t a, (f t a).line.rounds = t.line.rounds) : (l.foldl f s).line.rounds = s.line.rounds := by
  induction l generalizing s with
  | nil => rfl
  | cons a r ih => simp only [List.foldl_cons]; rw [ih, h]

@[simp] theorem foldl_line_openingHeard {α : Type} (f : State → α → State) (l : List α) (s : State)
    (h : ∀ t a, (f t a).line.openingHeard = t.line.openingHeard) : (l.foldl f s).line.openingHeard = s.line.openingHeard := by
  induction l generalizing s with
  | nil => rfl
  | cons a r ih => simp only [List.foldl_cons]; rw [ih, h]

@[simp] theorem foldl_line_muteCount {α : Type} (f : State → α → State) (l : List α) (s : State)
    (h : ∀ t a, (f t a).line.muteCount = t.line.muteCount) : (l.foldl f s).line.muteCount = s.line.muteCount := by
  induction l generalizing s with
  | nil => rfl
  | cons a r ih => simp only [List.foldl_cons]; rw [ih, h]

@[simp] theorem foldl_line_muteTimer {α : Type} (f : State → α → State) (l : List α) (s : State)
    (h : ∀ t a, (f t a).line.muteTimer = t.line.muteTimer) : (l.foldl f s).line.muteTimer = s.line.muteTimer := by
  induction l generalizing s with
  | nil => rfl
  | cons a r ih => simp only [List.foldl_cons]; rw [ih, h]

@[simp] theorem foldl_line_coldWait {α : Type} (f : State → α → State) (l : List α) (s : State)
    (h : ∀ t a, (f t a).line.coldWait = t.line.coldWait) : (l.foldl f s).line.coldWait = s.line.coldWait := by
  induction l generalizing s with
  | nil => rfl
  | cons a r ih => simp only [List.foldl_cons]; rw [ih, h]

@[simp] theorem foldl_line_coldDue {α : Type} (f : State → α → State) (l : List α) (s : State)
    (h : ∀ t a, (f t a).line.coldDue = t.line.coldDue) : (l.foldl f s).line.coldDue = s.line.coldDue := by
  induction l generalizing s with
  | nil => rfl
  | cons a r ih => simp only [List.foldl_cons]; rw [ih, h]

@[simp] theorem foldl_line_isolation {α : Type} (f : State → α → State) (l : List α) (s : State)
    (h : ∀ t a, (f t a).line.isolation = t.line.isolation) : (l.foldl f s).line.isolation = s.line.isolation := by
  induction l generalizing s with
  | nil => rfl
  | cons a r ih => simp only [List.foldl_cons]; rw [ih, h]

@[simp] theorem foldl_line_isolated {α : Type} (f : State → α → State) (l : List α) (s : State)
    (h : ∀ t a, (f t a).line.isolated = t.line.isolated) : (l.foldl f s).line.isolated = s.line.isolated := by
  induction l generalizing s with
  | nil => rfl
  | cons a r ih => simp only [List.foldl_cons]; rw [ih, h]

@[simp] theorem foldl_line_sinceOpening {α : Type} (f : State → α → State) (l : List α) (s : State)
    (h : ∀ t a, (f t a).line.sinceOpening = t.line.sinceOpening) : (l.foldl f s).line.sinceOpening = s.line.sinceOpening := by
  induction l generalizing s with
  | nil => rfl
  | cons a r ih => simp only [List.foldl_cons]; rw [ih, h]

@[simp] theorem foldl_line_roundPart {α : Type} (f : State → α → State) (l : List α) (s : State)
    (h : ∀ t a, (f t a).line.roundPart = t.line.roundPart) : (l.foldl f s).line.roundPart = s.line.roundPart := by
  induction l generalizing s with
  | nil => rfl
  | cons a r ih => simp only [List.foldl_cons]; rw [ih, h]

@[simp] theorem foldl_line_lastSender {α : Type} (f : State → α → State) (l : List α) (s : State)
    (h : ∀ t a, (f t a).line.lastSender = t.line.lastSender) : (l.foldl f s).line.lastSender = s.line.lastSender := by
  induction l generalizing s with
  | nil => rfl
  | cons a r ih => simp only [List.foldl_cons]; rw [ih, h]

@[simp] theorem foldl_line_silence {α : Type} (f : State → α → State) (l : List α) (s : State)
    (h : ∀ t a, (f t a).line.silence = t.line.silence) : (l.foldl f s).line.silence = s.line.silence := by
  induction l generalizing s with
  | nil => rfl
  | cons a r ih => simp only [List.foldl_cons]; rw [ih, h]

@[simp] theorem foldl_line_onLine {α : Type} (f : State → α → State) (l : List α) (s : State)
    (h : ∀ t a, (f t a).line.onLine = t.line.onLine) : (l.foldl f s).line.onLine = s.line.onLine := by
  induction l generalizing s with
  | nil => rfl
  | cons a r ih => simp only [List.foldl_cons]; rw [ih, h]

@[simp] theorem foldl_line_sending {α : Type} (f : State → α → State) (l : List α) (s : State)
    (h : ∀ t a, (f t a).line.sending = t.line.sending) : (l.foldl f s).line.sending = s.line.sending := by
  induction l generalizing s with
  | nil => rfl
  | cons a r ih => simp only [List.foldl_cons]; rw [ih, h]

@[simp] theorem foldl_line_overridden {α : Type} (f : State → α → State) (l : List α) (s : State)
    (h : ∀ t a, (f t a).line.overridden = t.line.overridden) : (l.foldl f s).line.overridden = s.line.overridden := by
  induction l generalizing s with
  | nil => rfl
  | cons a r ih => simp only [List.foldl_cons]; rw [ih, h]

@[simp] theorem foldl_line_turnTaken {α : Type} (f : State → α → State) (l : List α) (s : State)
    (h : ∀ t a, (f t a).line.turnTaken = t.line.turnTaken) : (l.foldl f s).line.turnTaken = s.line.turnTaken := by
  induction l generalizing s with
  | nil => rfl
  | cons a r ih => simp only [List.foldl_cons]; rw [ih, h]

@[simp] theorem foldl_line_joinBlocked {α : Type} (f : State → α → State) (l : List α) (s : State)
    (h : ∀ t a, (f t a).line.joinBlocked = t.line.joinBlocked) : (l.foldl f s).line.joinBlocked = s.line.joinBlocked := by
  induction l generalizing s with
  | nil => rfl
  | cons a r ih => simp only [List.foldl_cons]; rw [ih, h]

@[simp] theorem foldl_line_checkFailures {α : Type} (f : State → α → State) (l : List α) (s : State)
    (h : ∀ t a, (f t a).line.checkFailures = t.line.checkFailures) : (l.foldl f s).line.checkFailures = s.line.checkFailures := by
  induction l generalizing s with
  | nil => rfl
  | cons a r ih => simp only [List.foldl_cons]; rw [ih, h]

@[simp] theorem foldl_line_ownAborted {α : Type} (f : State → α → State) (l : List α) (s : State)
    (h : ∀ t a, (f t a).line.ownAborted = t.line.ownAborted) : (l.foldl f s).line.ownAborted = s.line.ownAborted := by
  induction l generalizing s with
  | nil => rfl
  | cons a r ih => simp only [List.foldl_cons]; rw [ih, h]

@[simp] theorem foldl_line_missedTurns {α : Type} (f : State → α → State) (l : List α) (s : State)
    (h : ∀ t a, (f t a).line.missedTurns = t.line.missedTurns) : (l.foldl f s).line.missedTurns = s.line.missedTurns := by
  induction l generalizing s with
  | nil => rfl
  | cons a r ih => simp only [List.foldl_cons]; rw [ih, h]

@[simp] theorem State.setLine_line_frame (s : State) (st : LineState) :
    (s.setLine st).line.round = s.line.round ∧ (s.setLine st).line.clean = s.line.clean ∧
    (s.setLine st).line.record = s.line.record ∧ (s.setLine st).line.dissenting = s.line.dissenting ∧
    (s.setLine st).line.aborts = s.line.aborts ∧ (s.setLine st).line.rounds = s.line.rounds ∧
    (s.setLine st).line.openingHeard = s.line.openingHeard ∧ (s.setLine st).line.muteCount = s.line.muteCount ∧
    (s.setLine st).line.muteTimer = s.line.muteTimer ∧ (s.setLine st).line.coldWait = s.line.coldWait ∧
    (s.setLine st).line.coldDue = s.line.coldDue ∧ (s.setLine st).line.isolation = s.line.isolation ∧
    (s.setLine st).line.isolated = s.line.isolated ∧ (s.setLine st).line.sinceOpening = s.line.sinceOpening ∧
    (s.setLine st).line.roundPart = s.line.roundPart ∧ (s.setLine st).line.lastSender = s.line.lastSender ∧
    (s.setLine st).line.silence = s.line.silence ∧ (s.setLine st).line.onLine = s.line.onLine ∧
    (s.setLine st).line.sending = s.line.sending ∧ (s.setLine st).line.overridden = s.line.overridden ∧
    (s.setLine st).line.turnTaken = s.line.turnTaken ∧ (s.setLine st).line.joinBlocked = s.line.joinBlocked ∧
    (s.setLine st).line.checkFailures = s.line.checkFailures ∧
    (s.setLine st).line.ownAborted = s.line.ownAborted ∧
    (s.setLine st).line.missedTurns = s.line.missedTurns := by
  and_intros <;> unfold State.setLine <;> (try dsimp only) <;> (repeat' split) <;> simp

@[simp] theorem State.mark_line_frame (s : State) (f : RoundRecord → RoundRecord) :
    (s.mark f).line.state = s.line.state ∧ (s.mark f).line.round = s.line.round ∧
    (s.mark f).line.clean = s.line.clean ∧ (s.mark f).line.dissenting = s.line.dissenting ∧
    (s.mark f).line.aborts = s.line.aborts ∧ (s.mark f).line.rounds = s.line.rounds ∧
    (s.mark f).line.openingHeard = s.line.openingHeard ∧ (s.mark f).line.muteCount = s.line.muteCount ∧
    (s.mark f).line.muteTimer = s.line.muteTimer ∧ (s.mark f).line.coldWait = s.line.coldWait ∧
    (s.mark f).line.coldDue = s.line.coldDue ∧ (s.mark f).line.isolation = s.line.isolation ∧
    (s.mark f).line.isolated = s.line.isolated ∧ (s.mark f).line.sinceOpening = s.line.sinceOpening ∧
    (s.mark f).line.roundPart = s.line.roundPart ∧ (s.mark f).line.lastSender = s.line.lastSender ∧
    (s.mark f).line.silence = s.line.silence ∧ (s.mark f).line.onLine = s.line.onLine ∧
    (s.mark f).line.sending = s.line.sending ∧ (s.mark f).line.overridden = s.line.overridden ∧
    (s.mark f).line.turnTaken = s.line.turnTaken ∧ (s.mark f).line.joinBlocked = s.line.joinBlocked ∧
    (s.mark f).line.checkFailures = s.line.checkFailures ∧ (s.mark f).line.ownAborted = s.line.ownAborted ∧
    (s.mark f).line.missedTurns = s.line.missedTurns := by
  and_intros <;> unfold State.mark <;> (try dsimp only) <;> (repeat' split) <;> simp

@[simp] theorem State.followPeers_line_frame (s : State) :
    (s.followPeers).line.state = s.line.state ∧ (s.followPeers).line.round = s.line.round ∧
    (s.followPeers).line.clean = s.line.clean ∧ (s.followPeers).line.record = s.line.record ∧
    (s.followPeers).line.dissenting = s.line.dissenting ∧ (s.followPeers).line.aborts = s.line.aborts ∧
    (s.followPeers).line.rounds = s.line.rounds ∧ (s.followPeers).line.openingHeard = s.line.openingHeard ∧
    (s.followPeers).line.muteCount = s.line.muteCount ∧ (s.followPeers).line.muteTimer = s.line.muteTimer ∧
    (s.followPeers).line.coldWait = s.line.coldWait ∧ (s.followPeers).line.coldDue = s.line.coldDue ∧
    (s.followPeers).line.sinceOpening = s.line.sinceOpening ∧
    (s.followPeers).line.roundPart = s.line.roundPart ∧ (s.followPeers).line.lastSender = s.line.lastSender ∧
    (s.followPeers).line.silence = s.line.silence ∧ (s.followPeers).line.onLine = s.line.onLine ∧
    (s.followPeers).line.sending = s.line.sending ∧ (s.followPeers).line.overridden = s.line.overridden ∧
    (s.followPeers).line.turnTaken = s.line.turnTaken ∧ (s.followPeers).line.joinBlocked = s.line.joinBlocked ∧
    (s.followPeers).line.checkFailures = s.line.checkFailures ∧
    (s.followPeers).line.ownAborted = s.line.ownAborted ∧
    (s.followPeers).line.missedTurns = s.line.missedTurns := by
  and_intros <;> unfold State.followPeers <;> (try dsimp only) <;> (repeat' split) <;> simp

@[simp] theorem State.listFaults_line_frame (s : State) (sender : Nat) (a : Applied) :
    (s.listFaults sender a).line.state = s.line.state ∧ (s.listFaults sender a).line.round = s.line.round ∧
    (s.listFaults sender a).line.clean = s.line.clean ∧
    (s.listFaults sender a).line.dissenting = s.line.dissenting ∧
    (s.listFaults sender a).line.aborts = s.line.aborts ∧ (s.listFaults sender a).line.rounds = s.line.rounds ∧
    (s.listFaults sender a).line.openingHeard = s.line.openingHeard ∧
    (s.listFaults sender a).line.muteCount = s.line.muteCount ∧
    (s.listFaults sender a).line.muteTimer = s.line.muteTimer ∧
    (s.listFaults sender a).line.coldWait = s.line.coldWait ∧
    (s.listFaults sender a).line.coldDue = s.line.coldDue ∧
    (s.listFaults sender a).line.isolation = s.line.isolation ∧
    (s.listFaults sender a).line.isolated = s.line.isolated ∧
    (s.listFaults sender a).line.sinceOpening = s.line.sinceOpening ∧
    (s.listFaults sender a).line.roundPart = s.line.roundPart ∧
    (s.listFaults sender a).line.lastSender = s.line.lastSender ∧
    (s.listFaults sender a).line.silence = s.line.silence ∧
    (s.listFaults sender a).line.onLine = s.line.onLine ∧
    (s.listFaults sender a).line.sending = s.line.sending ∧
    (s.listFaults sender a).line.overridden = s.line.overridden ∧
    (s.listFaults sender a).line.turnTaken = s.line.turnTaken ∧
    (s.listFaults sender a).line.joinBlocked = s.line.joinBlocked ∧
    (s.listFaults sender a).line.checkFailures = s.line.checkFailures ∧
    (s.listFaults sender a).line.ownAborted = s.line.ownAborted ∧
    (s.listFaults sender a).line.missedTurns = s.line.missedTurns := by
  and_intros <;> unfold State.listFaults <;> (try dsimp only) <;> (repeat' split) <;> simp

@[simp] theorem State.applyClaims_line_frame (s : State) (sender : Nat) (items : List ClaimItem) (turnerOk : Bool) :
    (s.applyClaims sender items turnerOk).line.state = s.line.state ∧
    (s.applyClaims sender items turnerOk).line.round = s.line.round ∧
    (s.applyClaims sender items turnerOk).line.clean = s.line.clean ∧
    (s.applyClaims sender items turnerOk).line.dissenting = s.line.dissenting ∧
    (s.applyClaims sender items turnerOk).line.aborts = s.line.aborts ∧
    (s.applyClaims sender items turnerOk).line.rounds = s.line.rounds ∧
    (s.applyClaims sender items turnerOk).line.openingHeard = s.line.openingHeard ∧
    (s.applyClaims sender items turnerOk).line.muteCount = s.line.muteCount ∧
    (s.applyClaims sender items turnerOk).line.muteTimer = s.line.muteTimer ∧
    (s.applyClaims sender items turnerOk).line.coldWait = s.line.coldWait ∧
    (s.applyClaims sender items turnerOk).line.coldDue = s.line.coldDue ∧
    (s.applyClaims sender items turnerOk).line.isolation = s.line.isolation ∧
    (s.applyClaims sender items turnerOk).line.isolated = s.line.isolated ∧
    (s.applyClaims sender items turnerOk).line.sinceOpening = s.line.sinceOpening ∧
    (s.applyClaims sender items turnerOk).line.roundPart = s.line.roundPart ∧
    (s.applyClaims sender items turnerOk).line.lastSender = s.line.lastSender ∧
    (s.applyClaims sender items turnerOk).line.silence = s.line.silence ∧
    (s.applyClaims sender items turnerOk).line.onLine = s.line.onLine ∧
    (s.applyClaims sender items turnerOk).line.sending = s.line.sending ∧
    (s.applyClaims sender items turnerOk).line.overridden = s.line.overridden ∧
    (s.applyClaims sender items turnerOk).line.turnTaken = s.line.turnTaken ∧
    (s.applyClaims sender items turnerOk).line.joinBlocked = s.line.joinBlocked ∧
    (s.applyClaims sender items turnerOk).line.checkFailures = s.line.checkFailures ∧
    (s.applyClaims sender items turnerOk).line.ownAborted = s.line.ownAborted ∧
    (s.applyClaims sender items turnerOk).line.missedTurns = s.line.missedTurns := by
  and_intros <;> unfold State.applyClaims <;> (try dsimp only) <;> (repeat' split) <;> simp

@[simp] theorem State.startFrame_line_frame (s : State) :
    (s.startFrame).line.state = s.line.state ∧ (s.startFrame).line.round = s.line.round ∧
    (s.startFrame).line.clean = s.line.clean ∧ (s.startFrame).line.record = s.line.record ∧
    (s.startFrame).line.dissenting = s.line.dissenting ∧ (s.startFrame).line.aborts = s.line.aborts ∧
    (s.startFrame).line.rounds = s.line.rounds ∧ (s.startFrame).line.openingHeard = s.line.openingHeard ∧
    (s.startFrame).line.muteCount = s.line.muteCount ∧ (s.startFrame).line.muteTimer = s.line.muteTimer ∧
    (s.startFrame).line.coldWait = s.line.coldWait ∧ (s.startFrame).line.coldDue = s.line.coldDue ∧
    (s.startFrame).line.isolation = s.line.isolation ∧ (s.startFrame).line.isolated = s.line.isolated ∧
    (s.startFrame).line.sinceOpening = s.line.sinceOpening ∧ (s.startFrame).line.roundPart = s.line.roundPart ∧
    (s.startFrame).line.lastSender = s.line.lastSender ∧ (s.startFrame).line.silence = s.line.silence ∧
    (s.startFrame).line.sending = s.line.sending ∧ (s.startFrame).line.overridden = s.line.overridden ∧
    (s.startFrame).line.turnTaken = s.line.turnTaken ∧
    (s.startFrame).line.checkFailures = s.line.checkFailures ∧
    (s.startFrame).line.ownAborted = s.line.ownAborted ∧
    (s.startFrame).line.missedTurns = s.line.missedTurns := by
  and_intros <;> unfold State.startFrame <;> (try dsimp only) <;> (repeat' split) <;> simp

@[simp] theorem State.openWindow_line_frame (s : State) :
    (s.openWindow).line.state = s.line.state ∧ (s.openWindow).line.round = s.line.round ∧
    (s.openWindow).line.clean = s.line.clean ∧ (s.openWindow).line.record = s.line.record ∧
    (s.openWindow).line.dissenting = s.line.dissenting ∧ (s.openWindow).line.aborts = s.line.aborts ∧
    (s.openWindow).line.rounds = s.line.rounds ∧ (s.openWindow).line.openingHeard = s.line.openingHeard ∧
    (s.openWindow).line.muteCount = s.line.muteCount ∧ (s.openWindow).line.muteTimer = s.line.muteTimer ∧
    (s.openWindow).line.coldWait = s.line.coldWait ∧ (s.openWindow).line.coldDue = s.line.coldDue ∧
    (s.openWindow).line.isolation = s.line.isolation ∧ (s.openWindow).line.isolated = s.line.isolated ∧
    (s.openWindow).line.sinceOpening = s.line.sinceOpening ∧
    (s.openWindow).line.lastSender = s.line.lastSender ∧ (s.openWindow).line.silence = s.line.silence ∧
    (s.openWindow).line.onLine = s.line.onLine ∧ (s.openWindow).line.sending = s.line.sending ∧
    (s.openWindow).line.overridden = s.line.overridden ∧ (s.openWindow).line.turnTaken = s.line.turnTaken ∧
    (s.openWindow).line.checkFailures = s.line.checkFailures ∧
    (s.openWindow).line.ownAborted = s.line.ownAborted ∧
    (s.openWindow).line.missedTurns = s.line.missedTurns := by
  and_intros <;> unfold State.openWindow <;> (try dsimp only) <;> (repeat' split) <;> simp

@[simp] theorem State.closeWindow_line_frame (s : State) :
    (s.closeWindow).line.state = s.line.state ∧ (s.closeWindow).line.round = s.line.round ∧
    (s.closeWindow).line.clean = s.line.clean ∧ (s.closeWindow).line.record = s.line.record ∧
    (s.closeWindow).line.dissenting = s.line.dissenting ∧ (s.closeWindow).line.aborts = s.line.aborts ∧
    (s.closeWindow).line.rounds = s.line.rounds ∧ (s.closeWindow).line.openingHeard = s.line.openingHeard ∧
    (s.closeWindow).line.muteCount = s.line.muteCount ∧ (s.closeWindow).line.muteTimer = s.line.muteTimer ∧
    (s.closeWindow).line.coldWait = s.line.coldWait ∧ (s.closeWindow).line.coldDue = s.line.coldDue ∧
    (s.closeWindow).line.isolation = s.line.isolation ∧ (s.closeWindow).line.isolated = s.line.isolated ∧
    (s.closeWindow).line.sinceOpening = s.line.sinceOpening ∧
    (s.closeWindow).line.lastSender = s.line.lastSender ∧ (s.closeWindow).line.silence = s.line.silence ∧
    (s.closeWindow).line.onLine = s.line.onLine ∧ (s.closeWindow).line.sending = s.line.sending ∧
    (s.closeWindow).line.overridden = s.line.overridden ∧ (s.closeWindow).line.turnTaken = s.line.turnTaken ∧
    (s.closeWindow).line.joinBlocked = s.line.joinBlocked ∧
    (s.closeWindow).line.checkFailures = s.line.checkFailures ∧
    (s.closeWindow).line.ownAborted = s.line.ownAborted ∧
    (s.closeWindow).line.missedTurns = s.line.missedTurns := by
  and_intros <;> unfold State.closeWindow <;> (try dsimp only) <;> (repeat' split) <;> simp

@[simp] theorem State.windowAtEnd_line_frame (s : State) :
    (s.windowAtEnd).line.state = s.line.state ∧ (s.windowAtEnd).line.round = s.line.round ∧
    (s.windowAtEnd).line.clean = s.line.clean ∧ (s.windowAtEnd).line.record = s.line.record ∧
    (s.windowAtEnd).line.dissenting = s.line.dissenting ∧ (s.windowAtEnd).line.aborts = s.line.aborts ∧
    (s.windowAtEnd).line.rounds = s.line.rounds ∧ (s.windowAtEnd).line.openingHeard = s.line.openingHeard ∧
    (s.windowAtEnd).line.muteCount = s.line.muteCount ∧ (s.windowAtEnd).line.muteTimer = s.line.muteTimer ∧
    (s.windowAtEnd).line.coldWait = s.line.coldWait ∧ (s.windowAtEnd).line.coldDue = s.line.coldDue ∧
    (s.windowAtEnd).line.isolation = s.line.isolation ∧ (s.windowAtEnd).line.isolated = s.line.isolated ∧
    (s.windowAtEnd).line.sinceOpening = s.line.sinceOpening ∧
    (s.windowAtEnd).line.lastSender = s.line.lastSender ∧ (s.windowAtEnd).line.silence = s.line.silence ∧
    (s.windowAtEnd).line.onLine = s.line.onLine ∧ (s.windowAtEnd).line.sending = s.line.sending ∧
    (s.windowAtEnd).line.overridden = s.line.overridden ∧ (s.windowAtEnd).line.turnTaken = s.line.turnTaken ∧
    (s.windowAtEnd).line.joinBlocked = s.line.joinBlocked ∧
    (s.windowAtEnd).line.checkFailures = s.line.checkFailures ∧
    (s.windowAtEnd).line.ownAborted = s.line.ownAborted ∧
    (s.windowAtEnd).line.missedTurns = s.line.missedTurns := by
  and_intros <;> unfold State.windowAtEnd <;> (try dsimp only) <;> (repeat' split) <;> simp

@[simp] theorem State.windowAtTurn_line_frame (s : State) :
    (s.windowAtTurn).line.state = s.line.state ∧ (s.windowAtTurn).line.round = s.line.round ∧
    (s.windowAtTurn).line.clean = s.line.clean ∧ (s.windowAtTurn).line.record = s.line.record ∧
    (s.windowAtTurn).line.dissenting = s.line.dissenting ∧ (s.windowAtTurn).line.aborts = s.line.aborts ∧
    (s.windowAtTurn).line.rounds = s.line.rounds ∧ (s.windowAtTurn).line.openingHeard = s.line.openingHeard ∧
    (s.windowAtTurn).line.muteCount = s.line.muteCount ∧ (s.windowAtTurn).line.muteTimer = s.line.muteTimer ∧
    (s.windowAtTurn).line.coldWait = s.line.coldWait ∧ (s.windowAtTurn).line.coldDue = s.line.coldDue ∧
    (s.windowAtTurn).line.isolation = s.line.isolation ∧ (s.windowAtTurn).line.isolated = s.line.isolated ∧
    (s.windowAtTurn).line.sinceOpening = s.line.sinceOpening ∧
    (s.windowAtTurn).line.lastSender = s.line.lastSender ∧ (s.windowAtTurn).line.silence = s.line.silence ∧
    (s.windowAtTurn).line.onLine = s.line.onLine ∧ (s.windowAtTurn).line.sending = s.line.sending ∧
    (s.windowAtTurn).line.overridden = s.line.overridden ∧ (s.windowAtTurn).line.turnTaken = s.line.turnTaken ∧
    (s.windowAtTurn).line.checkFailures = s.line.checkFailures ∧
    (s.windowAtTurn).line.ownAborted = s.line.ownAborted ∧
    (s.windowAtTurn).line.missedTurns = s.line.missedTurns := by
  and_intros <;> unfold State.windowAtTurn <;> (try dsimp only) <;> (repeat' split) <;> simp

@[simp] theorem State.takeSender_line_frame (s : State) (x : Option Nat) :
    (s.takeSender x).line.state = s.line.state ∧ (s.takeSender x).line.round = s.line.round ∧
    (s.takeSender x).line.clean = s.line.clean ∧ (s.takeSender x).line.record = s.line.record ∧
    (s.takeSender x).line.dissenting = s.line.dissenting ∧ (s.takeSender x).line.aborts = s.line.aborts ∧
    (s.takeSender x).line.rounds = s.line.rounds ∧ (s.takeSender x).line.openingHeard = s.line.openingHeard ∧
    (s.takeSender x).line.muteCount = s.line.muteCount ∧ (s.takeSender x).line.muteTimer = s.line.muteTimer ∧
    (s.takeSender x).line.coldWait = s.line.coldWait ∧ (s.takeSender x).line.coldDue = s.line.coldDue ∧
    (s.takeSender x).line.isolation = s.line.isolation ∧ (s.takeSender x).line.isolated = s.line.isolated ∧
    (s.takeSender x).line.sinceOpening = s.line.sinceOpening ∧ (s.takeSender x).line.silence = s.line.silence ∧
    (s.takeSender x).line.onLine = s.line.onLine ∧ (s.takeSender x).line.sending = s.line.sending ∧
    (s.takeSender x).line.overridden = s.line.overridden ∧
    (s.takeSender x).line.checkFailures = s.line.checkFailures ∧
    (s.takeSender x).line.ownAborted = s.line.ownAborted ∧
    (s.takeSender x).line.missedTurns = s.line.missedTurns := by
  and_intros <;> unfold State.takeSender <;> (try dsimp only) <;> (repeat' split) <;> simp

@[simp] theorem State.markFailure_line_frame (s : State) :
    (s.markFailure).line.state = s.line.state ∧ (s.markFailure).line.round = s.line.round ∧
    (s.markFailure).line.clean = s.line.clean ∧ (s.markFailure).line.dissenting = s.line.dissenting ∧
    (s.markFailure).line.aborts = s.line.aborts ∧ (s.markFailure).line.rounds = s.line.rounds ∧
    (s.markFailure).line.openingHeard = s.line.openingHeard ∧
    (s.markFailure).line.muteCount = s.line.muteCount ∧ (s.markFailure).line.muteTimer = s.line.muteTimer ∧
    (s.markFailure).line.coldWait = s.line.coldWait ∧ (s.markFailure).line.coldDue = s.line.coldDue ∧
    (s.markFailure).line.isolation = s.line.isolation ∧ (s.markFailure).line.isolated = s.line.isolated ∧
    (s.markFailure).line.sinceOpening = s.line.sinceOpening ∧
    (s.markFailure).line.roundPart = s.line.roundPart ∧ (s.markFailure).line.lastSender = s.line.lastSender ∧
    (s.markFailure).line.silence = s.line.silence ∧ (s.markFailure).line.onLine = s.line.onLine ∧
    (s.markFailure).line.sending = s.line.sending ∧ (s.markFailure).line.overridden = s.line.overridden ∧
    (s.markFailure).line.turnTaken = s.line.turnTaken ∧ (s.markFailure).line.joinBlocked = s.line.joinBlocked ∧
    (s.markFailure).line.checkFailures = s.line.checkFailures ∧
    (s.markFailure).line.ownAborted = s.line.ownAborted ∧
    (s.markFailure).line.missedTurns = s.line.missedTurns := by
  and_intros <;> unfold State.markFailure <;> (try dsimp only) <;> (repeat' split) <;> simp

@[simp] theorem State.enterListening_line_frame (s : State) :
    (s.enterListening).line.round = s.line.round ∧ (s.enterListening).line.clean = s.line.clean ∧
    (s.enterListening).line.record = s.line.record ∧ (s.enterListening).line.dissenting = s.line.dissenting ∧
    (s.enterListening).line.isolation = s.line.isolation ∧ (s.enterListening).line.isolated = s.line.isolated ∧
    (s.enterListening).line.sinceOpening = s.line.sinceOpening ∧
    (s.enterListening).line.roundPart = s.line.roundPart ∧
    (s.enterListening).line.lastSender = s.line.lastSender ∧ (s.enterListening).line.silence = s.line.silence ∧
    (s.enterListening).line.onLine = s.line.onLine ∧ (s.enterListening).line.sending = s.line.sending ∧
    (s.enterListening).line.overridden = s.line.overridden ∧
    (s.enterListening).line.turnTaken = s.line.turnTaken ∧
    (s.enterListening).line.joinBlocked = s.line.joinBlocked ∧
    (s.enterListening).line.checkFailures = s.line.checkFailures ∧
    (s.enterListening).line.ownAborted = s.line.ownAborted ∧
    (s.enterListening).line.missedTurns = s.line.missedTurns := by
  and_intros <;> unfold State.enterListening <;> (try dsimp only) <;> (repeat' split) <;> simp

@[simp] theorem State.enterJoining_line_frame (s : State) :
    (s.enterJoining).line.round = s.line.round ∧ (s.enterJoining).line.clean = s.line.clean ∧
    (s.enterJoining).line.record = s.line.record ∧ (s.enterJoining).line.dissenting = s.line.dissenting ∧
    (s.enterJoining).line.aborts = s.line.aborts ∧ (s.enterJoining).line.rounds = s.line.rounds ∧
    (s.enterJoining).line.openingHeard = s.line.openingHeard ∧
    (s.enterJoining).line.muteCount = s.line.muteCount ∧ (s.enterJoining).line.muteTimer = s.line.muteTimer ∧
    (s.enterJoining).line.isolation = s.line.isolation ∧ (s.enterJoining).line.isolated = s.line.isolated ∧
    (s.enterJoining).line.sinceOpening = s.line.sinceOpening ∧
    (s.enterJoining).line.roundPart = s.line.roundPart ∧ (s.enterJoining).line.lastSender = s.line.lastSender ∧
    (s.enterJoining).line.silence = s.line.silence ∧ (s.enterJoining).line.onLine = s.line.onLine ∧
    (s.enterJoining).line.sending = s.line.sending ∧ (s.enterJoining).line.overridden = s.line.overridden ∧
    (s.enterJoining).line.turnTaken = s.line.turnTaken ∧
    (s.enterJoining).line.joinBlocked = s.line.joinBlocked ∧
    (s.enterJoining).line.checkFailures = s.line.checkFailures ∧
    (s.enterJoining).line.ownAborted = s.line.ownAborted ∧
    (s.enterJoining).line.missedTurns = s.line.missedTurns := by
  and_intros <;> unfold State.enterJoining <;> (try dsimp only) <;> (repeat' split) <;> simp

@[simp] theorem State.depart_line_frame (s : State) :
    (s.depart).line.state = s.line.state ∧ (s.depart).line.round = s.line.round ∧
    (s.depart).line.aborts = s.line.aborts ∧ (s.depart).line.rounds = s.line.rounds ∧
    (s.depart).line.openingHeard = s.line.openingHeard ∧ (s.depart).line.muteCount = s.line.muteCount ∧
    (s.depart).line.muteTimer = s.line.muteTimer ∧ (s.depart).line.coldWait = s.line.coldWait ∧
    (s.depart).line.coldDue = s.line.coldDue ∧ (s.depart).line.sinceOpening = s.line.sinceOpening ∧
    (s.depart).line.roundPart = s.line.roundPart ∧ (s.depart).line.lastSender = s.line.lastSender ∧
    (s.depart).line.silence = s.line.silence ∧ (s.depart).line.onLine = s.line.onLine ∧
    (s.depart).line.sending = s.line.sending ∧ (s.depart).line.overridden = s.line.overridden ∧
    (s.depart).line.turnTaken = s.line.turnTaken ∧ (s.depart).line.joinBlocked = s.line.joinBlocked ∧
    (s.depart).line.checkFailures = s.line.checkFailures ∧ (s.depart).line.ownAborted = s.line.ownAborted ∧
    (s.depart).line.missedTurns = s.line.missedTurns := by
  and_intros <;> unfold State.depart <;> (try dsimp only) <;> (repeat' split) <;> simp

@[simp] theorem State.departIfMember_line_frame (s : State) :
    (s.departIfMember).line.state = s.line.state ∧ (s.departIfMember).line.round = s.line.round ∧
    (s.departIfMember).line.aborts = s.line.aborts ∧ (s.departIfMember).line.rounds = s.line.rounds ∧
    (s.departIfMember).line.openingHeard = s.line.openingHeard ∧
    (s.departIfMember).line.muteCount = s.line.muteCount ∧
    (s.departIfMember).line.muteTimer = s.line.muteTimer ∧ (s.departIfMember).line.coldWait = s.line.coldWait ∧
    (s.departIfMember).line.coldDue = s.line.coldDue ∧
    (s.departIfMember).line.sinceOpening = s.line.sinceOpening ∧
    (s.departIfMember).line.roundPart = s.line.roundPart ∧
    (s.departIfMember).line.lastSender = s.line.lastSender ∧ (s.departIfMember).line.silence = s.line.silence ∧
    (s.departIfMember).line.onLine = s.line.onLine ∧ (s.departIfMember).line.sending = s.line.sending ∧
    (s.departIfMember).line.overridden = s.line.overridden ∧
    (s.departIfMember).line.turnTaken = s.line.turnTaken ∧
    (s.departIfMember).line.joinBlocked = s.line.joinBlocked ∧
    (s.departIfMember).line.checkFailures = s.line.checkFailures ∧
    (s.departIfMember).line.ownAborted = s.line.ownAborted ∧
    (s.departIfMember).line.missedTurns = s.line.missedTurns := by
  and_intros <;> unfold State.departIfMember <;> (try dsimp only) <;> (repeat' split) <;> simp

@[simp] theorem State.enterMute_line_frame (s : State) :
    (s.enterMute).line.round = s.line.round ∧ (s.enterMute).line.aborts = s.line.aborts ∧
    (s.enterMute).line.rounds = s.line.rounds ∧ (s.enterMute).line.openingHeard = s.line.openingHeard ∧
    (s.enterMute).line.sinceOpening = s.line.sinceOpening ∧ (s.enterMute).line.roundPart = s.line.roundPart ∧
    (s.enterMute).line.lastSender = s.line.lastSender ∧ (s.enterMute).line.silence = s.line.silence ∧
    (s.enterMute).line.onLine = s.line.onLine ∧ (s.enterMute).line.sending = s.line.sending ∧
    (s.enterMute).line.overridden = s.line.overridden ∧ (s.enterMute).line.turnTaken = s.line.turnTaken ∧
    (s.enterMute).line.joinBlocked = s.line.joinBlocked ∧
    (s.enterMute).line.checkFailures = s.line.checkFailures ∧
    (s.enterMute).line.ownAborted = s.line.ownAborted ∧
    (s.enterMute).line.missedTurns = s.line.missedTurns := by
  and_intros <;> unfold State.enterMute <;> (try dsimp only) <;> (repeat' split) <;> simp

@[simp] theorem State.muteDown_line_frame (s : State) :
    (s.muteDown).line.round = s.line.round ∧ (s.muteDown).line.clean = s.line.clean ∧
    (s.muteDown).line.record = s.line.record ∧ (s.muteDown).line.dissenting = s.line.dissenting ∧
    (s.muteDown).line.isolation = s.line.isolation ∧ (s.muteDown).line.isolated = s.line.isolated ∧
    (s.muteDown).line.sinceOpening = s.line.sinceOpening ∧ (s.muteDown).line.roundPart = s.line.roundPart ∧
    (s.muteDown).line.lastSender = s.line.lastSender ∧ (s.muteDown).line.silence = s.line.silence ∧
    (s.muteDown).line.onLine = s.line.onLine ∧ (s.muteDown).line.sending = s.line.sending ∧
    (s.muteDown).line.overridden = s.line.overridden ∧ (s.muteDown).line.turnTaken = s.line.turnTaken ∧
    (s.muteDown).line.joinBlocked = s.line.joinBlocked ∧
    (s.muteDown).line.checkFailures = s.line.checkFailures ∧ (s.muteDown).line.ownAborted = s.line.ownAborted ∧
    (s.muteDown).line.missedTurns = s.line.missedTurns := by
  and_intros <;> unfold State.muteDown <;> (try dsimp only) <;> (repeat' split) <;> simp

@[simp] theorem State.dropLine_line_frame (s : State) :
    (s.dropLine).line.state = s.line.state ∧ (s.dropLine).line.round = s.line.round ∧
    (s.dropLine).line.clean = s.line.clean ∧ (s.dropLine).line.record = s.line.record ∧
    (s.dropLine).line.dissenting = s.line.dissenting ∧ (s.dropLine).line.aborts = s.line.aborts ∧
    (s.dropLine).line.isolation = s.line.isolation ∧ (s.dropLine).line.isolated = s.line.isolated ∧
    (s.dropLine).line.checkFailures = s.line.checkFailures ∧ (s.dropLine).line.ownAborted = s.line.ownAborted ∧
    (s.dropLine).line.missedTurns = s.line.missedTurns := by
  and_intros <;> unfold State.dropLine <;> (try dsimp only) <;> (repeat' split) <;> simp

@[simp] theorem State.emptyTable_line_frame (s : State) :
    (s.emptyTable).line.round = s.line.round ∧ (s.emptyTable).line.aborts = s.line.aborts ∧
    (s.emptyTable).line.sinceOpening = s.line.sinceOpening ∧ (s.emptyTable).line.roundPart = s.line.roundPart ∧
    (s.emptyTable).line.lastSender = s.line.lastSender ∧ (s.emptyTable).line.silence = s.line.silence ∧
    (s.emptyTable).line.onLine = s.line.onLine ∧ (s.emptyTable).line.sending = s.line.sending ∧
    (s.emptyTable).line.overridden = s.line.overridden ∧ (s.emptyTable).line.turnTaken = s.line.turnTaken ∧
    (s.emptyTable).line.joinBlocked = s.line.joinBlocked ∧ (s.emptyTable).line.checkFailures = s.line.checkFailures ∧
    (s.emptyTable).line.ownAborted = s.line.ownAborted ∧ (s.emptyTable).line.missedTurns = s.line.missedTurns := by
  and_intros <;> unfold State.emptyTable <;> (try dsimp only) <;> (repeat' split) <;> simp

@[simp] theorem State.enterClocking_line_frame (s : State) :
    (s.enterClocking).line.round = s.line.round ∧ (s.enterClocking).line.aborts = s.line.aborts ∧
    (s.enterClocking).line.checkFailures = s.line.checkFailures ∧
    (s.enterClocking).line.ownAborted = s.line.ownAborted ∧
    (s.enterClocking).line.missedTurns = s.line.missedTurns := by
  and_intros <;> unfold State.enterClocking <;> (try dsimp only) <;> (repeat' split) <;> simp

@[simp] theorem State.newcomer_line_frame (s : State) (a : Nat) :
    (s.newcomer a).line.state = s.line.state ∧ (s.newcomer a).line.round = s.line.round ∧
    (s.newcomer a).line.clean = s.line.clean ∧ (s.newcomer a).line.record = s.line.record ∧
    (s.newcomer a).line.dissenting = s.line.dissenting ∧ (s.newcomer a).line.aborts = s.line.aborts ∧
    (s.newcomer a).line.rounds = s.line.rounds ∧ (s.newcomer a).line.openingHeard = s.line.openingHeard ∧
    (s.newcomer a).line.muteCount = s.line.muteCount ∧ (s.newcomer a).line.muteTimer = s.line.muteTimer ∧
    (s.newcomer a).line.coldWait = s.line.coldWait ∧ (s.newcomer a).line.coldDue = s.line.coldDue ∧
    (s.newcomer a).line.isolation = s.line.isolation ∧ (s.newcomer a).line.isolated = s.line.isolated ∧
    (s.newcomer a).line.sinceOpening = s.line.sinceOpening ∧ (s.newcomer a).line.roundPart = s.line.roundPart ∧
    (s.newcomer a).line.lastSender = s.line.lastSender ∧ (s.newcomer a).line.silence = s.line.silence ∧
    (s.newcomer a).line.onLine = s.line.onLine ∧ (s.newcomer a).line.sending = s.line.sending ∧
    (s.newcomer a).line.overridden = s.line.overridden ∧ (s.newcomer a).line.turnTaken = s.line.turnTaken ∧
    (s.newcomer a).line.joinBlocked = s.line.joinBlocked ∧ (s.newcomer a).line.checkFailures = s.line.checkFailures ∧
    (s.newcomer a).line.ownAborted = s.line.ownAborted ∧ (s.newcomer a).line.missedTurns = s.line.missedTurns := by
  and_intros <;> unfold State.newcomer <;> (try dsimp only) <;> (repeat' split) <;> simp

@[simp] theorem State.becomeMember_line_frame (s : State) :
    (s.becomeMember).line.round = s.line.round ∧ (s.becomeMember).line.clean = s.line.clean ∧
    (s.becomeMember).line.record = s.line.record ∧ (s.becomeMember).line.dissenting = s.line.dissenting ∧
    (s.becomeMember).line.aborts = s.line.aborts ∧ (s.becomeMember).line.rounds = s.line.rounds ∧
    (s.becomeMember).line.openingHeard = s.line.openingHeard ∧
    (s.becomeMember).line.muteCount = s.line.muteCount ∧ (s.becomeMember).line.muteTimer = s.line.muteTimer ∧
    (s.becomeMember).line.sinceOpening = s.line.sinceOpening ∧
    (s.becomeMember).line.roundPart = s.line.roundPart ∧ (s.becomeMember).line.lastSender = s.line.lastSender ∧
    (s.becomeMember).line.silence = s.line.silence ∧ (s.becomeMember).line.onLine = s.line.onLine ∧
    (s.becomeMember).line.sending = s.line.sending ∧ (s.becomeMember).line.overridden = s.line.overridden ∧
    (s.becomeMember).line.turnTaken = s.line.turnTaken ∧
    (s.becomeMember).line.joinBlocked = s.line.joinBlocked ∧
    (s.becomeMember).line.checkFailures = s.line.checkFailures ∧
    (s.becomeMember).line.ownAborted = s.line.ownAborted ∧
    (s.becomeMember).line.missedTurns = s.line.missedTurns := by
  and_intros <;> unfold State.becomeMember <;> (try dsimp only) <;> (repeat' split) <;> simp

@[simp] theorem State.hearHeader_line_frame (s : State) (f : TurnFrame) :
    (s.hearHeader f).line.state = s.line.state ∧ (s.hearHeader f).line.round = s.line.round ∧
    (s.hearHeader f).line.clean = s.line.clean ∧ (s.hearHeader f).line.record = s.line.record ∧
    (s.hearHeader f).line.dissenting = s.line.dissenting ∧ (s.hearHeader f).line.aborts = s.line.aborts ∧
    (s.hearHeader f).line.rounds = s.line.rounds ∧ (s.hearHeader f).line.openingHeard = s.line.openingHeard ∧
    (s.hearHeader f).line.muteCount = s.line.muteCount ∧ (s.hearHeader f).line.muteTimer = s.line.muteTimer ∧
    (s.hearHeader f).line.coldWait = s.line.coldWait ∧ (s.hearHeader f).line.coldDue = s.line.coldDue ∧
    (s.hearHeader f).line.sinceOpening = s.line.sinceOpening ∧
    (s.hearHeader f).line.roundPart = s.line.roundPart ∧ (s.hearHeader f).line.lastSender = s.line.lastSender ∧
    (s.hearHeader f).line.silence = s.line.silence ∧ (s.hearHeader f).line.onLine = s.line.onLine ∧
    (s.hearHeader f).line.sending = s.line.sending ∧ (s.hearHeader f).line.overridden = s.line.overridden ∧
    (s.hearHeader f).line.turnTaken = s.line.turnTaken ∧
    (s.hearHeader f).line.joinBlocked = s.line.joinBlocked ∧
    (s.hearHeader f).line.checkFailures = s.line.checkFailures ∧
    (s.hearHeader f).line.ownAborted = s.line.ownAborted ∧
    (s.hearHeader f).line.missedTurns = s.line.missedTurns := by
  and_intros <;> unfold State.hearHeader <;> (try dsimp only) <;> (repeat' split) <;> simp

@[simp] theorem State.losePeer_line_frame (s : State) (a : Nat) :
    (s.losePeer a).line.state = s.line.state ∧ (s.losePeer a).line.round = s.line.round ∧
    (s.losePeer a).line.clean = s.line.clean ∧ (s.losePeer a).line.record = s.line.record ∧
    (s.losePeer a).line.dissenting = s.line.dissenting ∧ (s.losePeer a).line.aborts = s.line.aborts ∧
    (s.losePeer a).line.rounds = s.line.rounds ∧ (s.losePeer a).line.openingHeard = s.line.openingHeard ∧
    (s.losePeer a).line.muteCount = s.line.muteCount ∧ (s.losePeer a).line.muteTimer = s.line.muteTimer ∧
    (s.losePeer a).line.coldWait = s.line.coldWait ∧ (s.losePeer a).line.coldDue = s.line.coldDue ∧
    (s.losePeer a).line.sinceOpening = s.line.sinceOpening ∧ (s.losePeer a).line.roundPart = s.line.roundPart ∧
    (s.losePeer a).line.lastSender = s.line.lastSender ∧ (s.losePeer a).line.silence = s.line.silence ∧
    (s.losePeer a).line.onLine = s.line.onLine ∧ (s.losePeer a).line.sending = s.line.sending ∧
    (s.losePeer a).line.overridden = s.line.overridden ∧ (s.losePeer a).line.turnTaken = s.line.turnTaken ∧
    (s.losePeer a).line.joinBlocked = s.line.joinBlocked ∧
    (s.losePeer a).line.checkFailures = s.line.checkFailures ∧
    (s.losePeer a).line.ownAborted = s.line.ownAborted ∧
    (s.losePeer a).line.missedTurns = s.line.missedTurns := by
  and_intros <;> unfold State.losePeer <;> (try dsimp only) <;> (repeat' split) <;> simp

@[simp] theorem State.charge_line_frame (s : State) (a : Nat) :
    (s.charge a).line.state = s.line.state ∧ (s.charge a).line.round = s.line.round ∧
    (s.charge a).line.clean = s.line.clean ∧ (s.charge a).line.record = s.line.record ∧
    (s.charge a).line.dissenting = s.line.dissenting ∧ (s.charge a).line.aborts = s.line.aborts ∧
    (s.charge a).line.rounds = s.line.rounds ∧ (s.charge a).line.openingHeard = s.line.openingHeard ∧
    (s.charge a).line.muteCount = s.line.muteCount ∧ (s.charge a).line.muteTimer = s.line.muteTimer ∧
    (s.charge a).line.coldWait = s.line.coldWait ∧ (s.charge a).line.coldDue = s.line.coldDue ∧
    (s.charge a).line.sinceOpening = s.line.sinceOpening ∧ (s.charge a).line.roundPart = s.line.roundPart ∧
    (s.charge a).line.lastSender = s.line.lastSender ∧ (s.charge a).line.silence = s.line.silence ∧
    (s.charge a).line.onLine = s.line.onLine ∧ (s.charge a).line.sending = s.line.sending ∧
    (s.charge a).line.overridden = s.line.overridden ∧ (s.charge a).line.turnTaken = s.line.turnTaken ∧
    (s.charge a).line.joinBlocked = s.line.joinBlocked ∧
    (s.charge a).line.checkFailures = s.line.checkFailures ∧
    (s.charge a).line.ownAborted = s.line.ownAborted := by
  and_intros <;> unfold State.charge <;> (try dsimp only) <;> (repeat' split) <;> simp

@[simp] theorem State.chargeAll_line_frame (s : State) (l : List Nat) :
    (s.chargeAll l).line.state = s.line.state ∧ (s.chargeAll l).line.round = s.line.round ∧
    (s.chargeAll l).line.clean = s.line.clean ∧ (s.chargeAll l).line.record = s.line.record ∧
    (s.chargeAll l).line.dissenting = s.line.dissenting ∧ (s.chargeAll l).line.aborts = s.line.aborts ∧
    (s.chargeAll l).line.rounds = s.line.rounds ∧ (s.chargeAll l).line.openingHeard = s.line.openingHeard ∧
    (s.chargeAll l).line.muteCount = s.line.muteCount ∧ (s.chargeAll l).line.muteTimer = s.line.muteTimer ∧
    (s.chargeAll l).line.coldWait = s.line.coldWait ∧ (s.chargeAll l).line.coldDue = s.line.coldDue ∧
    (s.chargeAll l).line.sinceOpening = s.line.sinceOpening ∧
    (s.chargeAll l).line.roundPart = s.line.roundPart ∧ (s.chargeAll l).line.lastSender = s.line.lastSender ∧
    (s.chargeAll l).line.silence = s.line.silence ∧ (s.chargeAll l).line.onLine = s.line.onLine ∧
    (s.chargeAll l).line.sending = s.line.sending ∧ (s.chargeAll l).line.overridden = s.line.overridden ∧
    (s.chargeAll l).line.turnTaken = s.line.turnTaken ∧ (s.chargeAll l).line.joinBlocked = s.line.joinBlocked ∧
    (s.chargeAll l).line.checkFailures = s.line.checkFailures ∧
    (s.chargeAll l).line.ownAborted = s.line.ownAborted := by
  and_intros <;> unfold State.chargeAll <;> (try dsimp only) <;> (repeat' split) <;> simp

@[simp] theorem State.heardOther_line_frame (s : State) :
    (s.heardOther).line.state = s.line.state ∧ (s.heardOther).line.round = s.line.round ∧
    (s.heardOther).line.clean = s.line.clean ∧ (s.heardOther).line.record = s.line.record ∧
    (s.heardOther).line.dissenting = s.line.dissenting ∧ (s.heardOther).line.aborts = s.line.aborts ∧
    (s.heardOther).line.rounds = s.line.rounds ∧ (s.heardOther).line.openingHeard = s.line.openingHeard ∧
    (s.heardOther).line.muteCount = s.line.muteCount ∧ (s.heardOther).line.muteTimer = s.line.muteTimer ∧
    (s.heardOther).line.coldWait = s.line.coldWait ∧ (s.heardOther).line.coldDue = s.line.coldDue ∧
    (s.heardOther).line.sinceOpening = s.line.sinceOpening ∧ (s.heardOther).line.roundPart = s.line.roundPart ∧
    (s.heardOther).line.lastSender = s.line.lastSender ∧ (s.heardOther).line.silence = s.line.silence ∧
    (s.heardOther).line.onLine = s.line.onLine ∧ (s.heardOther).line.sending = s.line.sending ∧
    (s.heardOther).line.overridden = s.line.overridden ∧ (s.heardOther).line.turnTaken = s.line.turnTaken ∧
    (s.heardOther).line.joinBlocked = s.line.joinBlocked ∧
    (s.heardOther).line.checkFailures = s.line.checkFailures ∧
    (s.heardOther).line.ownAborted = s.line.ownAborted ∧
    (s.heardOther).line.missedTurns = s.line.missedTurns := by
  and_intros <;> unfold State.heardOther <;> (try dsimp only) <;> (repeat' split) <;> simp

@[simp] theorem State.judgeView_line_frame (s : State) :
    (s.judgeView).line.state = s.line.state ∧ (s.judgeView).line.round = s.line.round ∧
    (s.judgeView).line.dissenting = s.line.dissenting ∧ (s.judgeView).line.aborts = s.line.aborts ∧
    (s.judgeView).line.rounds = s.line.rounds ∧ (s.judgeView).line.openingHeard = s.line.openingHeard ∧
    (s.judgeView).line.muteCount = s.line.muteCount ∧ (s.judgeView).line.muteTimer = s.line.muteTimer ∧
    (s.judgeView).line.coldWait = s.line.coldWait ∧ (s.judgeView).line.coldDue = s.line.coldDue ∧
    (s.judgeView).line.isolation = s.line.isolation ∧ (s.judgeView).line.isolated = s.line.isolated ∧
    (s.judgeView).line.sinceOpening = s.line.sinceOpening ∧ (s.judgeView).line.roundPart = s.line.roundPart ∧
    (s.judgeView).line.lastSender = s.line.lastSender ∧ (s.judgeView).line.silence = s.line.silence ∧
    (s.judgeView).line.onLine = s.line.onLine ∧ (s.judgeView).line.sending = s.line.sending ∧
    (s.judgeView).line.overridden = s.line.overridden ∧ (s.judgeView).line.turnTaken = s.line.turnTaken ∧
    (s.judgeView).line.joinBlocked = s.line.joinBlocked ∧
    (s.judgeView).line.checkFailures = s.line.checkFailures ∧
    (s.judgeView).line.ownAborted = s.line.ownAborted ∧
    (s.judgeView).line.missedTurns = s.line.missedTurns := by
  and_intros <;> unfold State.judgeView <;> (try dsimp only) <;> (repeat' split) <;> simp

@[simp] theorem State.judgeDissent_line_frame (s : State) (opener : Nat) (digest : Word16) :
    (s.judgeDissent opener digest).line.state = s.line.state ∧
    (s.judgeDissent opener digest).line.round = s.line.round ∧
    (s.judgeDissent opener digest).line.clean = s.line.clean ∧
    (s.judgeDissent opener digest).line.record = s.line.record ∧
    (s.judgeDissent opener digest).line.aborts = s.line.aborts ∧
    (s.judgeDissent opener digest).line.rounds = s.line.rounds ∧
    (s.judgeDissent opener digest).line.openingHeard = s.line.openingHeard ∧
    (s.judgeDissent opener digest).line.muteCount = s.line.muteCount ∧
    (s.judgeDissent opener digest).line.muteTimer = s.line.muteTimer ∧
    (s.judgeDissent opener digest).line.coldWait = s.line.coldWait ∧
    (s.judgeDissent opener digest).line.coldDue = s.line.coldDue ∧
    (s.judgeDissent opener digest).line.isolation = s.line.isolation ∧
    (s.judgeDissent opener digest).line.isolated = s.line.isolated ∧
    (s.judgeDissent opener digest).line.sinceOpening = s.line.sinceOpening ∧
    (s.judgeDissent opener digest).line.roundPart = s.line.roundPart ∧
    (s.judgeDissent opener digest).line.lastSender = s.line.lastSender ∧
    (s.judgeDissent opener digest).line.silence = s.line.silence ∧
    (s.judgeDissent opener digest).line.onLine = s.line.onLine ∧
    (s.judgeDissent opener digest).line.sending = s.line.sending ∧
    (s.judgeDissent opener digest).line.overridden = s.line.overridden ∧
    (s.judgeDissent opener digest).line.turnTaken = s.line.turnTaken ∧
    (s.judgeDissent opener digest).line.joinBlocked = s.line.joinBlocked ∧
    (s.judgeDissent opener digest).line.checkFailures = s.line.checkFailures ∧
    (s.judgeDissent opener digest).line.ownAborted = s.line.ownAborted ∧
    (s.judgeDissent opener digest).line.missedTurns = s.line.missedTurns := by
  and_intros <;> unfold State.judgeDissent <;> (try dsimp only) <;> (repeat' split) <;> simp

@[simp] theorem State.openRound_line_frame (s : State) :
    (s.openRound).line.round = s.line.round ∧ (s.openRound).line.dissenting = s.line.dissenting ∧
    (s.openRound).line.isolation = s.line.isolation ∧ (s.openRound).line.isolated = s.line.isolated ∧
    (s.openRound).line.sinceOpening = s.line.sinceOpening ∧ (s.openRound).line.lastSender = s.line.lastSender ∧
    (s.openRound).line.silence = s.line.silence ∧ (s.openRound).line.onLine = s.line.onLine ∧
    (s.openRound).line.sending = s.line.sending ∧ (s.openRound).line.overridden = s.line.overridden ∧
    (s.openRound).line.checkFailures = s.line.checkFailures ∧
    (s.openRound).line.ownAborted = s.line.ownAborted ∧
    (s.openRound).line.missedTurns = s.line.missedTurns := by
  and_intros <;> unfold State.openRound <;> (try dsimp only) <;> (repeat' split) <;> simp

@[simp] theorem State.ownOpening_line_frame (s : State) :
    (s.ownOpening).line.isolation = s.line.isolation ∧ (s.ownOpening).line.isolated = s.line.isolated ∧
    (s.ownOpening).line.sinceOpening = s.line.sinceOpening ∧
    (s.ownOpening).line.lastSender = s.line.lastSender ∧ (s.ownOpening).line.silence = s.line.silence ∧
    (s.ownOpening).line.onLine = s.line.onLine ∧ (s.ownOpening).line.sending = s.line.sending ∧
    (s.ownOpening).line.overridden = s.line.overridden ∧
    (s.ownOpening).line.checkFailures = s.line.checkFailures ∧
    (s.ownOpening).line.ownAborted = s.line.ownAborted ∧
    (s.ownOpening).line.missedTurns = s.line.missedTurns := by
  and_intros <;> unfold State.ownOpening <;> (try dsimp only) <;> (repeat' split) <;> simp

@[simp] theorem State.heardOpening_line_frame (s : State) (f : TurnFrame) :
    (s.heardOpening f).line.isolation = s.line.isolation ∧ (s.heardOpening f).line.isolated = s.line.isolated ∧
    (s.heardOpening f).line.sinceOpening = s.line.sinceOpening ∧
    (s.heardOpening f).line.lastSender = s.line.lastSender ∧ (s.heardOpening f).line.silence = s.line.silence ∧
    (s.heardOpening f).line.onLine = s.line.onLine ∧ (s.heardOpening f).line.sending = s.line.sending ∧
    (s.heardOpening f).line.overridden = s.line.overridden ∧
    (s.heardOpening f).line.checkFailures = s.line.checkFailures ∧
    (s.heardOpening f).line.ownAborted = s.line.ownAborted ∧
    (s.heardOpening f).line.missedTurns = s.line.missedTurns := by
  and_intros <;> unfold State.heardOpening <;> (try dsimp only) <;> (repeat' split) <;> simp

@[simp] theorem State.garbledOpening_line_frame (s : State) :
    (s.garbledOpening).line.dissenting = s.line.dissenting ∧
    (s.garbledOpening).line.isolation = s.line.isolation ∧ (s.garbledOpening).line.isolated = s.line.isolated ∧
    (s.garbledOpening).line.sinceOpening = s.line.sinceOpening ∧
    (s.garbledOpening).line.lastSender = s.line.lastSender ∧ (s.garbledOpening).line.silence = s.line.silence ∧
    (s.garbledOpening).line.onLine = s.line.onLine ∧ (s.garbledOpening).line.sending = s.line.sending ∧
    (s.garbledOpening).line.overridden = s.line.overridden ∧
    (s.garbledOpening).line.checkFailures = s.line.checkFailures ∧
    (s.garbledOpening).line.ownAborted = s.line.ownAborted ∧
    (s.garbledOpening).line.missedTurns = s.line.missedTurns := by
  and_intros <;> unfold State.garbledOpening <;> (try dsimp only) <;> (repeat' split) <;> simp

@[simp] theorem State.compareRound_line_frame (s : State) (round : Word16) :
    (s.compareRound round).line.state = s.line.state ∧ (s.compareRound round).line.clean = s.line.clean ∧
    (s.compareRound round).line.dissenting = s.line.dissenting ∧
    (s.compareRound round).line.aborts = s.line.aborts ∧ (s.compareRound round).line.rounds = s.line.rounds ∧
    (s.compareRound round).line.openingHeard = s.line.openingHeard ∧
    (s.compareRound round).line.muteCount = s.line.muteCount ∧
    (s.compareRound round).line.muteTimer = s.line.muteTimer ∧
    (s.compareRound round).line.coldWait = s.line.coldWait ∧
    (s.compareRound round).line.coldDue = s.line.coldDue ∧
    (s.compareRound round).line.isolation = s.line.isolation ∧
    (s.compareRound round).line.isolated = s.line.isolated ∧
    (s.compareRound round).line.sinceOpening = s.line.sinceOpening ∧
    (s.compareRound round).line.roundPart = s.line.roundPart ∧
    (s.compareRound round).line.lastSender = s.line.lastSender ∧
    (s.compareRound round).line.silence = s.line.silence ∧ (s.compareRound round).line.onLine = s.line.onLine ∧
    (s.compareRound round).line.sending = s.line.sending ∧
    (s.compareRound round).line.overridden = s.line.overridden ∧
    (s.compareRound round).line.turnTaken = s.line.turnTaken ∧
    (s.compareRound round).line.joinBlocked = s.line.joinBlocked ∧
    (s.compareRound round).line.checkFailures = s.line.checkFailures ∧
    (s.compareRound round).line.ownAborted = s.line.ownAborted ∧
    (s.compareRound round).line.missedTurns = s.line.missedTurns := by
  and_intros <;> unfold State.compareRound <;> (try dsimp only) <;> (repeat' split) <;> simp

@[simp] theorem State.countComplete_line_frame (s : State) :
    (s.countComplete).line.round = s.line.round ∧ (s.countComplete).line.clean = s.line.clean ∧
    (s.countComplete).line.record = s.line.record ∧ (s.countComplete).line.dissenting = s.line.dissenting ∧
    (s.countComplete).line.aborts = s.line.aborts ∧ (s.countComplete).line.muteCount = s.line.muteCount ∧
    (s.countComplete).line.muteTimer = s.line.muteTimer ∧ (s.countComplete).line.isolation = s.line.isolation ∧
    (s.countComplete).line.isolated = s.line.isolated ∧
    (s.countComplete).line.sinceOpening = s.line.sinceOpening ∧
    (s.countComplete).line.roundPart = s.line.roundPart ∧
    (s.countComplete).line.lastSender = s.line.lastSender ∧ (s.countComplete).line.silence = s.line.silence ∧
    (s.countComplete).line.onLine = s.line.onLine ∧ (s.countComplete).line.sending = s.line.sending ∧
    (s.countComplete).line.overridden = s.line.overridden ∧
    (s.countComplete).line.turnTaken = s.line.turnTaken ∧
    (s.countComplete).line.joinBlocked = s.line.joinBlocked ∧
    (s.countComplete).line.checkFailures = s.line.checkFailures ∧
    (s.countComplete).line.ownAborted = s.line.ownAborted ∧
    (s.countComplete).line.missedTurns = s.line.missedTurns := by
  and_intros <;> unfold State.countComplete <;> (try dsimp only) <;> (repeat' split) <;> simp

@[simp] theorem State.openingTime_line_frame (s : State) :
    (s.openingTime).line.state = s.line.state ∧ (s.openingTime).line.round = s.line.round ∧
    (s.openingTime).line.clean = s.line.clean ∧ (s.openingTime).line.record = s.line.record ∧
    (s.openingTime).line.dissenting = s.line.dissenting ∧ (s.openingTime).line.aborts = s.line.aborts ∧
    (s.openingTime).line.rounds = s.line.rounds ∧ (s.openingTime).line.openingHeard = s.line.openingHeard ∧
    (s.openingTime).line.muteCount = s.line.muteCount ∧ (s.openingTime).line.muteTimer = s.line.muteTimer ∧
    (s.openingTime).line.coldWait = s.line.coldWait ∧ (s.openingTime).line.coldDue = s.line.coldDue ∧
    (s.openingTime).line.isolation = s.line.isolation ∧ (s.openingTime).line.isolated = s.line.isolated ∧
    (s.openingTime).line.roundPart = s.line.roundPart ∧ (s.openingTime).line.lastSender = s.line.lastSender ∧
    (s.openingTime).line.silence = s.line.silence ∧ (s.openingTime).line.onLine = s.line.onLine ∧
    (s.openingTime).line.sending = s.line.sending ∧ (s.openingTime).line.overridden = s.line.overridden ∧
    (s.openingTime).line.turnTaken = s.line.turnTaken ∧ (s.openingTime).line.joinBlocked = s.line.joinBlocked ∧
    (s.openingTime).line.checkFailures = s.line.checkFailures ∧
    (s.openingTime).line.ownAborted = s.line.ownAborted ∧
    (s.openingTime).line.missedTurns = s.line.missedTurns := by
  and_intros <;> unfold State.openingTime <;> (try dsimp only) <;> (repeat' split) <;> simp

@[simp] theorem State.isolate_line_frame (s : State) :
    (s.isolate).line.state = s.line.state ∧ (s.isolate).line.round = s.line.round ∧
    (s.isolate).line.clean = s.line.clean ∧ (s.isolate).line.dissenting = s.line.dissenting ∧
    (s.isolate).line.aborts = s.line.aborts ∧ (s.isolate).line.rounds = s.line.rounds ∧
    (s.isolate).line.openingHeard = s.line.openingHeard ∧ (s.isolate).line.muteCount = s.line.muteCount ∧
    (s.isolate).line.muteTimer = s.line.muteTimer ∧ (s.isolate).line.coldWait = s.line.coldWait ∧
    (s.isolate).line.coldDue = s.line.coldDue ∧ (s.isolate).line.sinceOpening = s.line.sinceOpening ∧
    (s.isolate).line.roundPart = s.line.roundPart ∧ (s.isolate).line.lastSender = s.line.lastSender ∧
    (s.isolate).line.silence = s.line.silence ∧ (s.isolate).line.onLine = s.line.onLine ∧
    (s.isolate).line.sending = s.line.sending ∧ (s.isolate).line.overridden = s.line.overridden ∧
    (s.isolate).line.turnTaken = s.line.turnTaken ∧ (s.isolate).line.joinBlocked = s.line.joinBlocked ∧
    (s.isolate).line.checkFailures = s.line.checkFailures ∧ (s.isolate).line.ownAborted = s.line.ownAborted ∧
    (s.isolate).line.missedTurns = s.line.missedTurns := by
  and_intros <;> unfold State.isolate <;> (try dsimp only) <;> (repeat' split) <;> simp

@[simp] theorem State.startTurn_line_frame (s : State) (opening cold : Bool) (round : Word16) :
    (s.startTurn opening cold round).line.state = s.line.state ∧
    (s.startTurn opening cold round).line.round = s.line.round ∧
    (s.startTurn opening cold round).line.clean = s.line.clean ∧
    (s.startTurn opening cold round).line.record = s.line.record ∧
    (s.startTurn opening cold round).line.dissenting = s.line.dissenting ∧
    (s.startTurn opening cold round).line.aborts = s.line.aborts ∧
    (s.startTurn opening cold round).line.rounds = s.line.rounds ∧
    (s.startTurn opening cold round).line.openingHeard = s.line.openingHeard ∧
    (s.startTurn opening cold round).line.muteCount = s.line.muteCount ∧
    (s.startTurn opening cold round).line.muteTimer = s.line.muteTimer ∧
    (s.startTurn opening cold round).line.coldWait = s.line.coldWait ∧
    (s.startTurn opening cold round).line.coldDue = s.line.coldDue ∧
    (s.startTurn opening cold round).line.isolation = s.line.isolation ∧
    (s.startTurn opening cold round).line.isolated = s.line.isolated ∧
    (s.startTurn opening cold round).line.sinceOpening = s.line.sinceOpening ∧
    (s.startTurn opening cold round).line.roundPart = s.line.roundPart ∧
    (s.startTurn opening cold round).line.lastSender = s.line.lastSender ∧
    (s.startTurn opening cold round).line.silence = s.line.silence ∧
    (s.startTurn opening cold round).line.overridden = s.line.overridden ∧
    (s.startTurn opening cold round).line.checkFailures = s.line.checkFailures ∧
    (s.startTurn opening cold round).line.ownAborted = s.line.ownAborted ∧
    (s.startTurn opening cold round).line.missedTurns = s.line.missedTurns := by
  and_intros <;> unfold State.startTurn <;> (try dsimp only) <;> (repeat' split) <;> simp

@[simp] theorem State.startOpening_line_frame (s : State) :
    (s.startOpening).line.isolation = s.line.isolation ∧ (s.startOpening).line.isolated = s.line.isolated ∧
    (s.startOpening).line.sinceOpening = s.line.sinceOpening ∧
    (s.startOpening).line.lastSender = s.line.lastSender ∧ (s.startOpening).line.silence = s.line.silence ∧
    (s.startOpening).line.overridden = s.line.overridden ∧
    (s.startOpening).line.checkFailures = s.line.checkFailures ∧
    (s.startOpening).line.ownAborted = s.line.ownAborted ∧
    (s.startOpening).line.missedTurns = s.line.missedTurns := by
  and_intros <;> unfold State.startOpening <;> (try dsimp only) <;> (repeat' split) <;> simp

@[simp] theorem State.startCold_line_frame (s : State) :
    (s.startCold).line.state = s.line.state ∧ (s.startCold).line.round = s.line.round ∧
    (s.startCold).line.record = s.line.record ∧ (s.startCold).line.dissenting = s.line.dissenting ∧
    (s.startCold).line.aborts = s.line.aborts ∧ (s.startCold).line.rounds = s.line.rounds ∧
    (s.startCold).line.openingHeard = s.line.openingHeard ∧ (s.startCold).line.muteCount = s.line.muteCount ∧
    (s.startCold).line.muteTimer = s.line.muteTimer ∧ (s.startCold).line.isolation = s.line.isolation ∧
    (s.startCold).line.isolated = s.line.isolated ∧ (s.startCold).line.sinceOpening = s.line.sinceOpening ∧
    (s.startCold).line.roundPart = s.line.roundPart ∧ (s.startCold).line.lastSender = s.line.lastSender ∧
    (s.startCold).line.silence = s.line.silence ∧ (s.startCold).line.overridden = s.line.overridden ∧
    (s.startCold).line.checkFailures = s.line.checkFailures ∧
    (s.startCold).line.ownAborted = s.line.ownAborted ∧
    (s.startCold).line.missedTurns = s.line.missedTurns := by
  and_intros <;> unfold State.startCold <;> (try dsimp only) <;> (repeat' split) <;> simp

@[simp] theorem State.startJoin_line_frame (s : State) :
    (s.startJoin).line.state = s.line.state ∧ (s.startJoin).line.round = s.line.round ∧
    (s.startJoin).line.clean = s.line.clean ∧ (s.startJoin).line.record = s.line.record ∧
    (s.startJoin).line.dissenting = s.line.dissenting ∧ (s.startJoin).line.aborts = s.line.aborts ∧
    (s.startJoin).line.rounds = s.line.rounds ∧ (s.startJoin).line.openingHeard = s.line.openingHeard ∧
    (s.startJoin).line.muteCount = s.line.muteCount ∧ (s.startJoin).line.muteTimer = s.line.muteTimer ∧
    (s.startJoin).line.coldWait = s.line.coldWait ∧ (s.startJoin).line.coldDue = s.line.coldDue ∧
    (s.startJoin).line.isolation = s.line.isolation ∧ (s.startJoin).line.isolated = s.line.isolated ∧
    (s.startJoin).line.sinceOpening = s.line.sinceOpening ∧ (s.startJoin).line.roundPart = s.line.roundPart ∧
    (s.startJoin).line.lastSender = s.line.lastSender ∧ (s.startJoin).line.silence = s.line.silence ∧
    (s.startJoin).line.overridden = s.line.overridden ∧ (s.startJoin).line.turnTaken = s.line.turnTaken ∧
    (s.startJoin).line.checkFailures = s.line.checkFailures ∧
    (s.startJoin).line.ownAborted = s.line.ownAborted ∧
    (s.startJoin).line.missedTurns = s.line.missedTurns := by
  and_intros <;> unfold State.startJoin <;> (try dsimp only) <;> (repeat' split) <;> simp

@[simp] theorem State.abortCounted_line_frame (s : State) :
    (s.abortCounted).line.round = s.line.round ∧ (s.abortCounted).line.rounds = s.line.rounds ∧
    (s.abortCounted).line.openingHeard = s.line.openingHeard ∧
    (s.abortCounted).line.sinceOpening = s.line.sinceOpening ∧
    (s.abortCounted).line.roundPart = s.line.roundPart ∧ (s.abortCounted).line.lastSender = s.line.lastSender ∧
    (s.abortCounted).line.silence = s.line.silence ∧ (s.abortCounted).line.onLine = s.line.onLine ∧
    (s.abortCounted).line.sending = s.line.sending ∧ (s.abortCounted).line.overridden = s.line.overridden ∧
    (s.abortCounted).line.turnTaken = s.line.turnTaken ∧
    (s.abortCounted).line.joinBlocked = s.line.joinBlocked ∧
    (s.abortCounted).line.checkFailures = s.line.checkFailures ∧
    (s.abortCounted).line.ownAborted = s.line.ownAborted ∧
    (s.abortCounted).line.missedTurns = s.line.missedTurns := by
  and_intros <;> unfold State.abortCounted <;> (try dsimp only) <;> (repeat' split) <;> simp

@[simp] theorem State.stopSending_line_frame (s : State) (other : Bool) :
    (s.stopSending other).line.state = s.line.state ∧ (s.stopSending other).line.round = s.line.round ∧
    (s.stopSending other).line.clean = s.line.clean ∧ (s.stopSending other).line.record = s.line.record ∧
    (s.stopSending other).line.dissenting = s.line.dissenting ∧
    (s.stopSending other).line.aborts = s.line.aborts ∧ (s.stopSending other).line.rounds = s.line.rounds ∧
    (s.stopSending other).line.openingHeard = s.line.openingHeard ∧
    (s.stopSending other).line.muteCount = s.line.muteCount ∧
    (s.stopSending other).line.muteTimer = s.line.muteTimer ∧
    (s.stopSending other).line.coldWait = s.line.coldWait ∧
    (s.stopSending other).line.coldDue = s.line.coldDue ∧
    (s.stopSending other).line.isolation = s.line.isolation ∧
    (s.stopSending other).line.isolated = s.line.isolated ∧
    (s.stopSending other).line.sinceOpening = s.line.sinceOpening ∧
    (s.stopSending other).line.roundPart = s.line.roundPart ∧
    (s.stopSending other).line.lastSender = s.line.lastSender ∧
    (s.stopSending other).line.overridden = s.line.overridden ∧
    (s.stopSending other).line.turnTaken = s.line.turnTaken ∧
    (s.stopSending other).line.joinBlocked = s.line.joinBlocked ∧
    (s.stopSending other).line.checkFailures = s.line.checkFailures ∧
    (s.stopSending other).line.ownAborted = s.line.ownAborted ∧
    (s.stopSending other).line.missedTurns = s.line.missedTurns := by
  and_intros <;> unfold State.stopSending <;> (try dsimp only) <;> (repeat' split) <;> simp

@[simp] theorem State.cutShort_line_frame (s : State) (other : Bool) :
    (s.cutShort other).line.state = s.line.state ∧ (s.cutShort other).line.round = s.line.round ∧
    (s.cutShort other).line.dissenting = s.line.dissenting ∧ (s.cutShort other).line.aborts = s.line.aborts ∧
    (s.cutShort other).line.rounds = s.line.rounds ∧ (s.cutShort other).line.openingHeard = s.line.openingHeard ∧
    (s.cutShort other).line.muteCount = s.line.muteCount ∧ (s.cutShort other).line.muteTimer = s.line.muteTimer ∧
    (s.cutShort other).line.coldWait = s.line.coldWait ∧ (s.cutShort other).line.coldDue = s.line.coldDue ∧
    (s.cutShort other).line.isolation = s.line.isolation ∧ (s.cutShort other).line.isolated = s.line.isolated ∧
    (s.cutShort other).line.sinceOpening = s.line.sinceOpening ∧
    (s.cutShort other).line.roundPart = s.line.roundPart ∧ (s.cutShort other).line.lastSender = s.line.lastSender ∧
    (s.cutShort other).line.overridden = s.line.overridden ∧ (s.cutShort other).line.turnTaken = s.line.turnTaken ∧
    (s.cutShort other).line.joinBlocked = s.line.joinBlocked ∧
    (s.cutShort other).line.checkFailures = s.line.checkFailures ∧
    (s.cutShort other).line.missedTurns = s.line.missedTurns := by
  and_intros <;> unfold State.cutShort <;> (try dsimp only) <;> (repeat' split) <;> simp

@[simp] theorem State.abortEnds_line_frame (s : State) (own : OwnFrame) (other : Bool) :
    (s.abortEnds own other).line.round = s.line.round ∧ (s.abortEnds own other).line.state = s.line.state ∧
    (s.abortEnds own other).line.aborts = s.line.aborts ∧ (s.abortEnds own other).line.rounds = s.line.rounds ∧
    (s.abortEnds own other).line.openingHeard = s.line.openingHeard ∧
    (s.abortEnds own other).line.muteCount = s.line.muteCount ∧
    (s.abortEnds own other).line.muteTimer = s.line.muteTimer ∧
    (s.abortEnds own other).line.turnTaken = s.line.turnTaken ∧
    (s.abortEnds own other).line.checkFailures = s.line.checkFailures ∧
    (s.abortEnds own other).line.missedTurns = s.line.missedTurns := by
  and_intros <;> unfold State.abortEnds <;> (try dsimp only) <;> (repeat' split) <;> simp

@[simp] theorem State.aborted_line_frame (s : State) (own : OwnFrame) (other : Bool) :
    (s.aborted own other).line.round = s.line.round ∧ (s.aborted own other).line.rounds = s.line.rounds ∧
    (s.aborted own other).line.openingHeard = s.line.openingHeard ∧
    (s.aborted own other).line.turnTaken = s.line.turnTaken ∧
    (s.aborted own other).line.checkFailures = s.line.checkFailures ∧
    (s.aborted own other).line.missedTurns = s.line.missedTurns := by
  and_intros <;> unfold State.aborted <;> (try dsimp only) <;> (repeat' split) <;> simp

@[simp] theorem State.ownContent_line_frame (s : State) (f : TurnFrame) (turnerOk : Bool) :
    (s.ownContent f turnerOk).line.state = s.line.state ∧ (s.ownContent f turnerOk).line.round = s.line.round ∧
    (s.ownContent f turnerOk).line.clean = s.line.clean ∧
    (s.ownContent f turnerOk).line.dissenting = s.line.dissenting ∧
    (s.ownContent f turnerOk).line.aborts = s.line.aborts ∧
    (s.ownContent f turnerOk).line.rounds = s.line.rounds ∧
    (s.ownContent f turnerOk).line.openingHeard = s.line.openingHeard ∧
    (s.ownContent f turnerOk).line.muteCount = s.line.muteCount ∧
    (s.ownContent f turnerOk).line.muteTimer = s.line.muteTimer ∧
    (s.ownContent f turnerOk).line.coldWait = s.line.coldWait ∧
    (s.ownContent f turnerOk).line.coldDue = s.line.coldDue ∧
    (s.ownContent f turnerOk).line.sinceOpening = s.line.sinceOpening ∧
    (s.ownContent f turnerOk).line.roundPart = s.line.roundPart ∧
    (s.ownContent f turnerOk).line.lastSender = s.line.lastSender ∧
    (s.ownContent f turnerOk).line.silence = s.line.silence ∧
    (s.ownContent f turnerOk).line.onLine = s.line.onLine ∧
    (s.ownContent f turnerOk).line.sending = s.line.sending ∧
    (s.ownContent f turnerOk).line.overridden = s.line.overridden ∧
    (s.ownContent f turnerOk).line.turnTaken = s.line.turnTaken ∧
    (s.ownContent f turnerOk).line.joinBlocked = s.line.joinBlocked ∧
    (s.ownContent f turnerOk).line.checkFailures = s.line.checkFailures ∧
    (s.ownContent f turnerOk).line.ownAborted = s.line.ownAborted := by
  and_intros <;> unfold State.ownContent <;> (try dsimp only) <;> (repeat' split) <;> simp

@[simp] theorem State.ownEnd_line_frame (s : State) :
    (s.ownEnd).line.state = s.line.state ∧ (s.ownEnd).line.round = s.line.round ∧
    (s.ownEnd).line.clean = s.line.clean ∧ (s.ownEnd).line.record = s.line.record ∧
    (s.ownEnd).line.dissenting = s.line.dissenting ∧ (s.ownEnd).line.rounds = s.line.rounds ∧
    (s.ownEnd).line.openingHeard = s.line.openingHeard ∧ (s.ownEnd).line.muteCount = s.line.muteCount ∧
    (s.ownEnd).line.muteTimer = s.line.muteTimer ∧ (s.ownEnd).line.coldWait = s.line.coldWait ∧
    (s.ownEnd).line.coldDue = s.line.coldDue ∧ (s.ownEnd).line.isolation = s.line.isolation ∧
    (s.ownEnd).line.isolated = s.line.isolated ∧ (s.ownEnd).line.sinceOpening = s.line.sinceOpening ∧
    (s.ownEnd).line.roundPart = s.line.roundPart ∧ (s.ownEnd).line.lastSender = s.line.lastSender ∧
    (s.ownEnd).line.overridden = s.line.overridden ∧ (s.ownEnd).line.turnTaken = s.line.turnTaken ∧
    (s.ownEnd).line.joinBlocked = s.line.joinBlocked ∧ (s.ownEnd).line.checkFailures = s.line.checkFailures ∧
    (s.ownEnd).line.ownAborted = s.line.ownAborted ∧ (s.ownEnd).line.missedTurns = s.line.missedTurns := by
  and_intros <;> unfold State.ownEnd <;> (try dsimp only) <;> (repeat' split) <;> simp

@[simp] theorem State.turnRead_line_frame (s : State) (f : TurnFrame) (turnerOk : Bool) :
    (s.turnRead f turnerOk).line.state = s.line.state ∧ (s.turnRead f turnerOk).line.clean = s.line.clean ∧
    (s.turnRead f turnerOk).line.dissenting = s.line.dissenting ∧
    (s.turnRead f turnerOk).line.rounds = s.line.rounds ∧
    (s.turnRead f turnerOk).line.openingHeard = s.line.openingHeard ∧
    (s.turnRead f turnerOk).line.muteCount = s.line.muteCount ∧
    (s.turnRead f turnerOk).line.muteTimer = s.line.muteTimer ∧
    (s.turnRead f turnerOk).line.coldWait = s.line.coldWait ∧
    (s.turnRead f turnerOk).line.coldDue = s.line.coldDue ∧
    (s.turnRead f turnerOk).line.overridden = s.line.overridden ∧
    (s.turnRead f turnerOk).line.checkFailures = s.line.checkFailures ∧
    (s.turnRead f turnerOk).line.ownAborted = s.line.ownAborted := by
  and_intros <;> unfold State.turnRead <;> (try dsimp only) <;> (repeat' split) <;> simp

@[simp] theorem State.coldRead_line_frame (s : State) (f : TurnFrame) (turnerOk : Bool) :
    (s.coldRead f turnerOk).line.overridden = s.line.overridden ∧
    (s.coldRead f turnerOk).line.checkFailures = s.line.checkFailures ∧
    (s.coldRead f turnerOk).line.ownAborted = s.line.ownAborted := by
  and_intros <;> unfold State.coldRead <;> (try dsimp only) <;> (repeat' split) <;> simp

@[simp] theorem State.joinRead_line_frame (s : State) :
    (s.joinRead).line.round = s.line.round ∧ (s.joinRead).line.clean = s.line.clean ∧
    (s.joinRead).line.dissenting = s.line.dissenting ∧ (s.joinRead).line.rounds = s.line.rounds ∧
    (s.joinRead).line.openingHeard = s.line.openingHeard ∧ (s.joinRead).line.muteCount = s.line.muteCount ∧
    (s.joinRead).line.muteTimer = s.line.muteTimer ∧ (s.joinRead).line.sinceOpening = s.line.sinceOpening ∧
    (s.joinRead).line.lastSender = s.line.lastSender ∧ (s.joinRead).line.overridden = s.line.overridden ∧
    (s.joinRead).line.turnTaken = s.line.turnTaken ∧ (s.joinRead).line.joinBlocked = s.line.joinBlocked ∧
    (s.joinRead).line.checkFailures = s.line.checkFailures ∧ (s.joinRead).line.ownAborted = s.line.ownAborted ∧
    (s.joinRead).line.missedTurns = s.line.missedTurns := by
  and_intros <;> unfold State.joinRead <;> (try dsimp only) <;> (repeat' split) <;> simp

@[simp] theorem State.frameEnd_line_frame (s : State) :
    (s.frameEnd).line.state = s.line.state ∧ (s.frameEnd).line.round = s.line.round ∧
    (s.frameEnd).line.clean = s.line.clean ∧ (s.frameEnd).line.record = s.line.record ∧
    (s.frameEnd).line.dissenting = s.line.dissenting ∧ (s.frameEnd).line.aborts = s.line.aborts ∧
    (s.frameEnd).line.rounds = s.line.rounds ∧ (s.frameEnd).line.openingHeard = s.line.openingHeard ∧
    (s.frameEnd).line.muteCount = s.line.muteCount ∧ (s.frameEnd).line.muteTimer = s.line.muteTimer ∧
    (s.frameEnd).line.coldWait = s.line.coldWait ∧ (s.frameEnd).line.coldDue = s.line.coldDue ∧
    (s.frameEnd).line.isolation = s.line.isolation ∧ (s.frameEnd).line.isolated = s.line.isolated ∧
    (s.frameEnd).line.roundPart = s.line.roundPart ∧
    (s.frameEnd).line.lastSender = s.line.lastSender ∧ (s.frameEnd).line.sending = s.line.sending ∧
    (s.frameEnd).line.turnTaken = s.line.turnTaken ∧ (s.frameEnd).line.checkFailures = s.line.checkFailures ∧
    (s.frameEnd).line.ownAborted = s.line.ownAborted ∧ (s.frameEnd).line.missedTurns = s.line.missedTurns := by
  and_intros <;> unfold State.frameEnd <;> (try dsimp only) <;> (repeat' split) <;> simp

@[simp] theorem State.restartCold_line_frame (s : State) :
    (s.restartCold).line.state = s.line.state ∧ (s.restartCold).line.round = s.line.round ∧
    (s.restartCold).line.clean = s.line.clean ∧ (s.restartCold).line.record = s.line.record ∧
    (s.restartCold).line.dissenting = s.line.dissenting ∧ (s.restartCold).line.aborts = s.line.aborts ∧
    (s.restartCold).line.rounds = s.line.rounds ∧ (s.restartCold).line.openingHeard = s.line.openingHeard ∧
    (s.restartCold).line.muteCount = s.line.muteCount ∧ (s.restartCold).line.muteTimer = s.line.muteTimer ∧
    (s.restartCold).line.isolation = s.line.isolation ∧ (s.restartCold).line.isolated = s.line.isolated ∧
    (s.restartCold).line.sinceOpening = s.line.sinceOpening ∧
    (s.restartCold).line.roundPart = s.line.roundPart ∧ (s.restartCold).line.lastSender = s.line.lastSender ∧
    (s.restartCold).line.silence = s.line.silence ∧ (s.restartCold).line.onLine = s.line.onLine ∧
    (s.restartCold).line.sending = s.line.sending ∧ (s.restartCold).line.overridden = s.line.overridden ∧
    (s.restartCold).line.turnTaken = s.line.turnTaken ∧ (s.restartCold).line.joinBlocked = s.line.joinBlocked ∧
    (s.restartCold).line.checkFailures = s.line.checkFailures ∧
    (s.restartCold).line.ownAborted = s.line.ownAborted ∧
    (s.restartCold).line.missedTurns = s.line.missedTurns := by
  and_intros <;> unfold State.restartCold <;> (try dsimp only) <;> (repeat' split) <;> simp

@[simp] theorem State.duplicate_line_frame (s : State) :
    (s.duplicate).line.round = s.line.round ∧ (s.duplicate).line.aborts = s.line.aborts ∧
    (s.duplicate).line.rounds = s.line.rounds ∧ (s.duplicate).line.openingHeard = s.line.openingHeard ∧
    (s.duplicate).line.sinceOpening = s.line.sinceOpening ∧ (s.duplicate).line.roundPart = s.line.roundPart ∧
    (s.duplicate).line.lastSender = s.line.lastSender ∧ (s.duplicate).line.silence = s.line.silence ∧
    (s.duplicate).line.onLine = s.line.onLine ∧ (s.duplicate).line.sending = s.line.sending ∧
    (s.duplicate).line.overridden = s.line.overridden ∧ (s.duplicate).line.turnTaken = s.line.turnTaken ∧
    (s.duplicate).line.joinBlocked = s.line.joinBlocked ∧
    (s.duplicate).line.checkFailures = s.line.checkFailures ∧
    (s.duplicate).line.ownAborted = s.line.ownAborted ∧
    (s.duplicate).line.missedTurns = s.line.missedTurns := by
  and_intros <;> unfold State.duplicate <;> (try dsimp only) <;> (repeat' split) <;> simp

@[simp] theorem State.hearRound_line_frame (s : State) (f : TurnFrame) (late : Bool) :
    (s.hearRound f late).line.isolation = s.line.isolation ∧
    (s.hearRound f late).line.isolated = s.line.isolated ∧
    (s.hearRound f late).line.lastSender = s.line.lastSender ∧
    (s.hearRound f late).line.silence = s.line.silence ∧ (s.hearRound f late).line.onLine = s.line.onLine ∧
    (s.hearRound f late).line.sending = s.line.sending ∧
    (s.hearRound f late).line.overridden = s.line.overridden ∧
    (s.hearRound f late).line.checkFailures = s.line.checkFailures ∧
    (s.hearRound f late).line.ownAborted = s.line.ownAborted ∧
    (s.hearRound f late).line.missedTurns = s.line.missedTurns := by
  and_intros <;> unfold State.hearRound <;> (try dsimp only) <;> (repeat' split) <;> simp

@[simp] theorem State.hearContent_line_frame (s : State) (f : TurnFrame) :
    (s.hearContent f).line.state = s.line.state ∧ (s.hearContent f).line.round = s.line.round ∧
    (s.hearContent f).line.clean = s.line.clean ∧ (s.hearContent f).line.dissenting = s.line.dissenting ∧
    (s.hearContent f).line.aborts = s.line.aborts ∧ (s.hearContent f).line.rounds = s.line.rounds ∧
    (s.hearContent f).line.openingHeard = s.line.openingHeard ∧
    (s.hearContent f).line.muteCount = s.line.muteCount ∧ (s.hearContent f).line.muteTimer = s.line.muteTimer ∧
    (s.hearContent f).line.coldWait = s.line.coldWait ∧ (s.hearContent f).line.coldDue = s.line.coldDue ∧
    (s.hearContent f).line.sinceOpening = s.line.sinceOpening ∧
    (s.hearContent f).line.roundPart = s.line.roundPart ∧
    (s.hearContent f).line.lastSender = s.line.lastSender ∧ (s.hearContent f).line.silence = s.line.silence ∧
    (s.hearContent f).line.onLine = s.line.onLine ∧ (s.hearContent f).line.sending = s.line.sending ∧
    (s.hearContent f).line.overridden = s.line.overridden ∧
    (s.hearContent f).line.turnTaken = s.line.turnTaken ∧
    (s.hearContent f).line.joinBlocked = s.line.joinBlocked ∧
    (s.hearContent f).line.checkFailures = s.line.checkFailures ∧
    (s.hearContent f).line.ownAborted = s.line.ownAborted := by
  and_intros <;> unfold State.hearContent <;> (try dsimp only) <;> (repeat' split) <;> simp

@[simp] theorem State.hearTurn_line_frame (s : State) (f : TurnFrame) :
    (s.hearTurn f).line.sending = s.line.sending ∧ (s.hearTurn f).line.checkFailures = s.line.checkFailures ∧
    (s.hearTurn f).line.ownAborted = s.line.ownAborted := by
  and_intros <;> unfold State.hearTurn <;> (try dsimp only) <;> (repeat' split) <;> simp

@[simp] theorem State.hearJoin_line_frame (s : State) (f : JoinFrame) :
    (s.hearJoin f).line.round = s.line.round ∧ (s.hearJoin f).line.aborts = s.line.aborts ∧
    (s.hearJoin f).line.rounds = s.line.rounds ∧ (s.hearJoin f).line.openingHeard = s.line.openingHeard ∧
    (s.hearJoin f).line.lastSender = s.line.lastSender ∧ (s.hearJoin f).line.sending = s.line.sending ∧
    (s.hearJoin f).line.turnTaken = s.line.turnTaken ∧
    (s.hearJoin f).line.checkFailures = s.line.checkFailures ∧
    (s.hearJoin f).line.ownAborted = s.line.ownAborted ∧
    (s.hearJoin f).line.missedTurns = s.line.missedTurns := by
  and_intros <;> unfold State.hearJoin <;> (try dsimp only) <;> (repeat' split) <;> simp

@[simp] theorem State.checkFailed_line_frame (s : State) :
    (s.checkFailed).line.state = s.line.state ∧ (s.checkFailed).line.round = s.line.round ∧
    (s.checkFailed).line.clean = s.line.clean ∧ (s.checkFailed).line.dissenting = s.line.dissenting ∧
    (s.checkFailed).line.aborts = s.line.aborts ∧ (s.checkFailed).line.rounds = s.line.rounds ∧
    (s.checkFailed).line.openingHeard = s.line.openingHeard ∧
    (s.checkFailed).line.muteCount = s.line.muteCount ∧ (s.checkFailed).line.muteTimer = s.line.muteTimer ∧
    (s.checkFailed).line.coldWait = s.line.coldWait ∧ (s.checkFailed).line.coldDue = s.line.coldDue ∧
    (s.checkFailed).line.isolation = s.line.isolation ∧ (s.checkFailed).line.isolated = s.line.isolated ∧
    (s.checkFailed).line.sinceOpening = s.line.sinceOpening ∧
    (s.checkFailed).line.roundPart = s.line.roundPart ∧ (s.checkFailed).line.lastSender = s.line.lastSender ∧
    (s.checkFailed).line.silence = s.line.silence ∧ (s.checkFailed).line.onLine = s.line.onLine ∧
    (s.checkFailed).line.sending = s.line.sending ∧ (s.checkFailed).line.overridden = s.line.overridden ∧
    (s.checkFailed).line.turnTaken = s.line.turnTaken ∧ (s.checkFailed).line.joinBlocked = s.line.joinBlocked ∧
    (s.checkFailed).line.ownAborted = s.line.ownAborted ∧
    (s.checkFailed).line.missedTurns = s.line.missedTurns := by
  and_intros <;> unfold State.checkFailed <;> (try dsimp only) <;> (repeat' split) <;> simp

@[simp] theorem State.hearGarbled_line_frame (s : State) :
    (s.hearGarbled).line.dissenting = s.line.dissenting ∧
    (s.hearGarbled).line.ownAborted = s.line.ownAborted := by
  and_intros <;> unfold State.hearGarbled <;> (try dsimp only) <;> (repeat' split) <;> simp

@[simp] theorem State.newStation_line_frame (s : State) (image : List Byte) :
    (s.newStation image).line.state = s.line.state ∧ (s.newStation image).line.round = s.line.round ∧
    (s.newStation image).line.clean = s.line.clean ∧ (s.newStation image).line.record = s.line.record ∧
    (s.newStation image).line.dissenting = s.line.dissenting ∧
    (s.newStation image).line.aborts = s.line.aborts ∧ (s.newStation image).line.rounds = s.line.rounds ∧
    (s.newStation image).line.openingHeard = s.line.openingHeard ∧
    (s.newStation image).line.muteCount = s.line.muteCount ∧
    (s.newStation image).line.muteTimer = s.line.muteTimer ∧
    (s.newStation image).line.coldWait = s.line.coldWait ∧ (s.newStation image).line.coldDue = s.line.coldDue ∧
    (s.newStation image).line.isolation = s.line.isolation ∧
    (s.newStation image).line.isolated = s.line.isolated ∧
    (s.newStation image).line.sinceOpening = s.line.sinceOpening ∧
    (s.newStation image).line.roundPart = s.line.roundPart ∧
    (s.newStation image).line.lastSender = s.line.lastSender ∧
    (s.newStation image).line.silence = s.line.silence ∧ (s.newStation image).line.onLine = s.line.onLine ∧
    (s.newStation image).line.sending = s.line.sending ∧
    (s.newStation image).line.overridden = s.line.overridden ∧
    (s.newStation image).line.turnTaken = s.line.turnTaken ∧
    (s.newStation image).line.joinBlocked = s.line.joinBlocked := by
  and_intros <;> unfold State.newStation <;> (try dsimp only) <;> (repeat' split) <;> simp

@[simp] theorem State.takeStates_line_frame (s : State) (image : List Byte) (digest : Option Word16) :
    (s.takeStates image digest).line.state = s.line.state ∧
    (s.takeStates image digest).line.round = s.line.round ∧
    (s.takeStates image digest).line.clean = s.line.clean ∧
    (s.takeStates image digest).line.record = s.line.record ∧
    (s.takeStates image digest).line.dissenting = s.line.dissenting ∧
    (s.takeStates image digest).line.aborts = s.line.aborts ∧
    (s.takeStates image digest).line.rounds = s.line.rounds ∧
    (s.takeStates image digest).line.openingHeard = s.line.openingHeard ∧
    (s.takeStates image digest).line.muteCount = s.line.muteCount ∧
    (s.takeStates image digest).line.muteTimer = s.line.muteTimer ∧
    (s.takeStates image digest).line.coldWait = s.line.coldWait ∧
    (s.takeStates image digest).line.coldDue = s.line.coldDue ∧
    (s.takeStates image digest).line.isolation = s.line.isolation ∧
    (s.takeStates image digest).line.isolated = s.line.isolated ∧
    (s.takeStates image digest).line.sinceOpening = s.line.sinceOpening ∧
    (s.takeStates image digest).line.roundPart = s.line.roundPart ∧
    (s.takeStates image digest).line.lastSender = s.line.lastSender ∧
    (s.takeStates image digest).line.silence = s.line.silence ∧
    (s.takeStates image digest).line.onLine = s.line.onLine ∧
    (s.takeStates image digest).line.sending = s.line.sending ∧
    (s.takeStates image digest).line.overridden = s.line.overridden ∧
    (s.takeStates image digest).line.turnTaken = s.line.turnTaken ∧
    (s.takeStates image digest).line.joinBlocked = s.line.joinBlocked := by
  and_intros <;> unfold State.takeStates <;> (try dsimp only) <;> (repeat' split) <;> simp

@[simp] theorem State.leaveClocking_line_frame (s : State) :
    (s.leaveClocking).line.round = s.line.round ∧ (s.leaveClocking).line.clean = s.line.clean ∧
    (s.leaveClocking).line.record = s.line.record ∧ (s.leaveClocking).line.dissenting = s.line.dissenting ∧
    (s.leaveClocking).line.isolation = s.line.isolation ∧ (s.leaveClocking).line.isolated = s.line.isolated ∧
    (s.leaveClocking).line.sinceOpening = s.line.sinceOpening ∧
    (s.leaveClocking).line.roundPart = s.line.roundPart ∧
    (s.leaveClocking).line.lastSender = s.line.lastSender ∧ (s.leaveClocking).line.silence = s.line.silence ∧
    (s.leaveClocking).line.onLine = s.line.onLine ∧ (s.leaveClocking).line.sending = s.line.sending ∧
    (s.leaveClocking).line.overridden = s.line.overridden ∧
    (s.leaveClocking).line.turnTaken = s.line.turnTaken ∧
    (s.leaveClocking).line.joinBlocked = s.line.joinBlocked ∧
    (s.leaveClocking).line.checkFailures = s.line.checkFailures ∧
    (s.leaveClocking).line.ownAborted = s.line.ownAborted ∧
    (s.leaveClocking).line.missedTurns = s.line.missedTurns := by
  and_intros <;> unfold State.leaveClocking <;> (try dsimp only) <;> (repeat' split) <;> simp

@[simp] theorem State.goodLoad_line_frame (s : State) (image : List Byte) :
    (s.goodLoad image).line.round = s.line.round ∧ (s.goodLoad image).line.clean = s.line.clean ∧
    (s.goodLoad image).line.record = s.line.record ∧ (s.goodLoad image).line.dissenting = s.line.dissenting ∧
    (s.goodLoad image).line.isolation = s.line.isolation ∧ (s.goodLoad image).line.isolated = s.line.isolated ∧
    (s.goodLoad image).line.sinceOpening = s.line.sinceOpening ∧
    (s.goodLoad image).line.roundPart = s.line.roundPart ∧
    (s.goodLoad image).line.lastSender = s.line.lastSender ∧ (s.goodLoad image).line.silence = s.line.silence ∧
    (s.goodLoad image).line.onLine = s.line.onLine ∧ (s.goodLoad image).line.sending = s.line.sending ∧
    (s.goodLoad image).line.overridden = s.line.overridden ∧
    (s.goodLoad image).line.turnTaken = s.line.turnTaken ∧
    (s.goodLoad image).line.joinBlocked = s.line.joinBlocked := by
  and_intros <;> unfold State.goodLoad <;> (try dsimp only) <;> (repeat' split) <;> simp

@[simp] theorem State.badLoad_line_frame (s : State) :
    (s.badLoad).line.round = s.line.round ∧ (s.badLoad).line.clean = s.line.clean ∧
    (s.badLoad).line.record = s.line.record ∧ (s.badLoad).line.dissenting = s.line.dissenting ∧
    (s.badLoad).line.aborts = s.line.aborts ∧ (s.badLoad).line.rounds = s.line.rounds ∧
    (s.badLoad).line.openingHeard = s.line.openingHeard ∧ (s.badLoad).line.muteCount = s.line.muteCount ∧
    (s.badLoad).line.muteTimer = s.line.muteTimer ∧ (s.badLoad).line.coldWait = s.line.coldWait ∧
    (s.badLoad).line.coldDue = s.line.coldDue ∧ (s.badLoad).line.isolation = s.line.isolation ∧
    (s.badLoad).line.isolated = s.line.isolated ∧ (s.badLoad).line.sinceOpening = s.line.sinceOpening ∧
    (s.badLoad).line.roundPart = s.line.roundPart ∧ (s.badLoad).line.lastSender = s.line.lastSender ∧
    (s.badLoad).line.silence = s.line.silence ∧ (s.badLoad).line.onLine = s.line.onLine ∧
    (s.badLoad).line.sending = s.line.sending ∧ (s.badLoad).line.overridden = s.line.overridden ∧
    (s.badLoad).line.turnTaken = s.line.turnTaken ∧ (s.badLoad).line.joinBlocked = s.line.joinBlocked ∧
    (s.badLoad).line.checkFailures = s.line.checkFailures ∧ (s.badLoad).line.ownAborted = s.line.ownAborted ∧
    (s.badLoad).line.missedTurns = s.line.missedTurns := by
  and_intros <;> unfold State.badLoad <;> (try dsimp only) <;> (repeat' split) <;> simp

@[simp] theorem State.endLoad_line_frame (s : State) (image : List Byte) :
    (s.endLoad image).line.round = s.line.round ∧ (s.endLoad image).line.clean = s.line.clean ∧
    (s.endLoad image).line.record = s.line.record ∧ (s.endLoad image).line.dissenting = s.line.dissenting ∧
    (s.endLoad image).line.isolation = s.line.isolation ∧ (s.endLoad image).line.isolated = s.line.isolated ∧
    (s.endLoad image).line.sinceOpening = s.line.sinceOpening ∧
    (s.endLoad image).line.roundPart = s.line.roundPart ∧
    (s.endLoad image).line.lastSender = s.line.lastSender ∧ (s.endLoad image).line.silence = s.line.silence ∧
    (s.endLoad image).line.onLine = s.line.onLine ∧ (s.endLoad image).line.sending = s.line.sending ∧
    (s.endLoad image).line.overridden = s.line.overridden ∧
    (s.endLoad image).line.turnTaken = s.line.turnTaken ∧
    (s.endLoad image).line.joinBlocked = s.line.joinBlocked := by
  and_intros <;> unfold State.endLoad <;> (try dsimp only) <;> (repeat' split) <;> simp

@[simp] theorem State.endBadLoad_line_frame (s : State) :
    (s.endBadLoad).line.round = s.line.round ∧ (s.endBadLoad).line.clean = s.line.clean ∧
    (s.endBadLoad).line.record = s.line.record ∧ (s.endBadLoad).line.dissenting = s.line.dissenting ∧
    (s.endBadLoad).line.aborts = s.line.aborts ∧ (s.endBadLoad).line.rounds = s.line.rounds ∧
    (s.endBadLoad).line.openingHeard = s.line.openingHeard ∧ (s.endBadLoad).line.muteCount = s.line.muteCount ∧
    (s.endBadLoad).line.muteTimer = s.line.muteTimer ∧ (s.endBadLoad).line.coldWait = s.line.coldWait ∧
    (s.endBadLoad).line.coldDue = s.line.coldDue ∧ (s.endBadLoad).line.isolation = s.line.isolation ∧
    (s.endBadLoad).line.isolated = s.line.isolated ∧ (s.endBadLoad).line.sinceOpening = s.line.sinceOpening ∧
    (s.endBadLoad).line.roundPart = s.line.roundPart ∧ (s.endBadLoad).line.lastSender = s.line.lastSender ∧
    (s.endBadLoad).line.silence = s.line.silence ∧ (s.endBadLoad).line.onLine = s.line.onLine ∧
    (s.endBadLoad).line.sending = s.line.sending ∧ (s.endBadLoad).line.overridden = s.line.overridden ∧
    (s.endBadLoad).line.turnTaken = s.line.turnTaken ∧ (s.endBadLoad).line.joinBlocked = s.line.joinBlocked ∧
    (s.endBadLoad).line.checkFailures = s.line.checkFailures ∧
    (s.endBadLoad).line.ownAborted = s.line.ownAborted ∧
    (s.endBadLoad).line.missedTurns = s.line.missedTurns := by
  and_intros <;> unfold State.endBadLoad <;> (try dsimp only) <;> (repeat' split) <;> simp

@[simp] theorem State.crystalIsReady_line_frame (s : State) :
    (s.crystalIsReady).line.round = s.line.round ∧ (s.crystalIsReady).line.clean = s.line.clean ∧
    (s.crystalIsReady).line.record = s.line.record ∧ (s.crystalIsReady).line.dissenting = s.line.dissenting ∧
    (s.crystalIsReady).line.isolation = s.line.isolation ∧ (s.crystalIsReady).line.isolated = s.line.isolated ∧
    (s.crystalIsReady).line.sinceOpening = s.line.sinceOpening ∧
    (s.crystalIsReady).line.roundPart = s.line.roundPart ∧
    (s.crystalIsReady).line.lastSender = s.line.lastSender ∧ (s.crystalIsReady).line.silence = s.line.silence ∧
    (s.crystalIsReady).line.onLine = s.line.onLine ∧ (s.crystalIsReady).line.sending = s.line.sending ∧
    (s.crystalIsReady).line.overridden = s.line.overridden ∧
    (s.crystalIsReady).line.turnTaken = s.line.turnTaken ∧
    (s.crystalIsReady).line.joinBlocked = s.line.joinBlocked ∧
    (s.crystalIsReady).line.checkFailures = s.line.checkFailures ∧
    (s.crystalIsReady).line.ownAborted = s.line.ownAborted ∧
    (s.crystalIsReady).line.missedTurns = s.line.missedTurns := by
  and_intros <;> unfold State.crystalIsReady <;> (try dsimp only) <;> (repeat' split) <;> simp

@[simp] theorem State.crystalIsLost_line_frame (s : State) :
    (s.crystalIsLost).line.round = s.line.round ∧ (s.crystalIsLost).line.aborts = s.line.aborts ∧
    (s.crystalIsLost).line.checkFailures = s.line.checkFailures ∧
    (s.crystalIsLost).line.ownAborted = s.line.ownAborted ∧
    (s.crystalIsLost).line.missedTurns = s.line.missedTurns := by
  and_intros <;> unfold State.crystalIsLost <;> (try dsimp only) <;> (repeat' split) <;> simp

@[simp] theorem State.coldExpires_line_frame (s : State) :
    (s.coldExpires).line.state = s.line.state ∧ (s.coldExpires).line.round = s.line.round ∧
    (s.coldExpires).line.record = s.line.record ∧ (s.coldExpires).line.dissenting = s.line.dissenting ∧
    (s.coldExpires).line.aborts = s.line.aborts ∧ (s.coldExpires).line.rounds = s.line.rounds ∧
    (s.coldExpires).line.openingHeard = s.line.openingHeard ∧
    (s.coldExpires).line.muteCount = s.line.muteCount ∧ (s.coldExpires).line.muteTimer = s.line.muteTimer ∧
    (s.coldExpires).line.isolation = s.line.isolation ∧ (s.coldExpires).line.isolated = s.line.isolated ∧
    (s.coldExpires).line.sinceOpening = s.line.sinceOpening ∧
    (s.coldExpires).line.roundPart = s.line.roundPart ∧ (s.coldExpires).line.lastSender = s.line.lastSender ∧
    (s.coldExpires).line.silence = s.line.silence ∧ (s.coldExpires).line.overridden = s.line.overridden ∧
    (s.coldExpires).line.checkFailures = s.line.checkFailures ∧
    (s.coldExpires).line.ownAborted = s.line.ownAborted ∧
    (s.coldExpires).line.missedTurns = s.line.missedTurns := by
  and_intros <;> unfold State.coldExpires <;> (try dsimp only) <;> (repeat' split) <;> simp

@[simp] theorem State.atOpening_line_frame (s : State) (k : Nat) :
    (s.atOpening k).line.state = s.line.state ∧ (s.atOpening k).line.round = s.line.round ∧
    (s.atOpening k).line.clean = s.line.clean ∧ (s.atOpening k).line.record = s.line.record ∧
    (s.atOpening k).line.dissenting = s.line.dissenting ∧ (s.atOpening k).line.aborts = s.line.aborts ∧
    (s.atOpening k).line.rounds = s.line.rounds ∧ (s.atOpening k).line.openingHeard = s.line.openingHeard ∧
    (s.atOpening k).line.muteCount = s.line.muteCount ∧ (s.atOpening k).line.muteTimer = s.line.muteTimer ∧
    (s.atOpening k).line.coldWait = s.line.coldWait ∧ (s.atOpening k).line.coldDue = s.line.coldDue ∧
    (s.atOpening k).line.isolation = s.line.isolation ∧ (s.atOpening k).line.isolated = s.line.isolated ∧
    (s.atOpening k).line.lastSender = s.line.lastSender ∧ (s.atOpening k).line.onLine = s.line.onLine ∧
    (s.atOpening k).line.sending = s.line.sending ∧ (s.atOpening k).line.overridden = s.line.overridden ∧
    (s.atOpening k).line.turnTaken = s.line.turnTaken ∧ (s.atOpening k).line.joinBlocked = s.line.joinBlocked ∧
    (s.atOpening k).line.checkFailures = s.line.checkFailures ∧
    (s.atOpening k).line.ownAborted = s.line.ownAborted ∧
    (s.atOpening k).line.missedTurns = s.line.missedTurns := by
  and_intros <;> unfold State.atOpening <;> (try dsimp only) <;> (repeat' split) <;> simp

@[simp] theorem State.opens_line_frame (s : State) :
    (s.opens).line.isolation = s.line.isolation ∧ (s.opens).line.isolated = s.line.isolated ∧
    (s.opens).line.lastSender = s.line.lastSender ∧ (s.opens).line.overridden = s.line.overridden ∧
    (s.opens).line.checkFailures = s.line.checkFailures ∧ (s.opens).line.ownAborted = s.line.ownAborted ∧
    (s.opens).line.missedTurns = s.line.missedTurns := by
  and_intros <;> unfold State.opens <;> (try dsimp only) <;> (repeat' split) <;> simp

@[simp] theorem State.takesTurn_line_frame (s : State) :
    (s.takesTurn).line.state = s.line.state ∧ (s.takesTurn).line.round = s.line.round ∧
    (s.takesTurn).line.clean = s.line.clean ∧ (s.takesTurn).line.record = s.line.record ∧
    (s.takesTurn).line.dissenting = s.line.dissenting ∧ (s.takesTurn).line.aborts = s.line.aborts ∧
    (s.takesTurn).line.rounds = s.line.rounds ∧ (s.takesTurn).line.openingHeard = s.line.openingHeard ∧
    (s.takesTurn).line.muteCount = s.line.muteCount ∧ (s.takesTurn).line.muteTimer = s.line.muteTimer ∧
    (s.takesTurn).line.coldWait = s.line.coldWait ∧ (s.takesTurn).line.coldDue = s.line.coldDue ∧
    (s.takesTurn).line.isolation = s.line.isolation ∧ (s.takesTurn).line.isolated = s.line.isolated ∧
    (s.takesTurn).line.sinceOpening = s.line.sinceOpening ∧ (s.takesTurn).line.roundPart = s.line.roundPart ∧
    (s.takesTurn).line.lastSender = s.line.lastSender ∧ (s.takesTurn).line.overridden = s.line.overridden ∧
    (s.takesTurn).line.checkFailures = s.line.checkFailures ∧
    (s.takesTurn).line.ownAborted = s.line.ownAborted ∧
    (s.takesTurn).line.missedTurns = s.line.missedTurns := by
  and_intros <;> unfold State.takesTurn <;> (try dsimp only) <;> (repeat' split) <;> simp

@[simp] theorem State.windowBySilence_line_frame (s : State) :
    (s.windowBySilence).line.state = s.line.state ∧ (s.windowBySilence).line.round = s.line.round ∧
    (s.windowBySilence).line.clean = s.line.clean ∧ (s.windowBySilence).line.record = s.line.record ∧
    (s.windowBySilence).line.dissenting = s.line.dissenting ∧ (s.windowBySilence).line.aborts = s.line.aborts ∧
    (s.windowBySilence).line.rounds = s.line.rounds ∧
    (s.windowBySilence).line.openingHeard = s.line.openingHeard ∧
    (s.windowBySilence).line.muteCount = s.line.muteCount ∧
    (s.windowBySilence).line.muteTimer = s.line.muteTimer ∧
    (s.windowBySilence).line.coldWait = s.line.coldWait ∧ (s.windowBySilence).line.coldDue = s.line.coldDue ∧
    (s.windowBySilence).line.sinceOpening = s.line.sinceOpening ∧
    (s.windowBySilence).line.lastSender = s.line.lastSender ∧
    (s.windowBySilence).line.silence = s.line.silence ∧ (s.windowBySilence).line.onLine = s.line.onLine ∧
    (s.windowBySilence).line.sending = s.line.sending ∧
    (s.windowBySilence).line.overridden = s.line.overridden ∧
    (s.windowBySilence).line.turnTaken = s.line.turnTaken ∧
    (s.windowBySilence).line.checkFailures = s.line.checkFailures ∧
    (s.windowBySilence).line.ownAborted = s.line.ownAborted := by
  and_intros <;> unfold State.windowBySilence <;> (try dsimp only) <;> (repeat' split) <;> simp

end Sys2Proof.Machine
end

