-- ==== Sys2Proof/Laws/Inputs.lean ====
section
/-! SUPPORT. Which operations leave the kind, the analogue inputs and the arrival clock of every channel: all but an arrival
and the resets and loads. -/

set_option linter.unusedTactic false
set_option linter.unreachableTactic false
set_option linter.unusedSimpArgs false
set_option linter.unnecessarySeqFocus false

namespace Sys2Proof.Machine

@[simp] theorem foldl_ch_kind {α : Type} (f : State → α → State) (l : List α) (s : State) (d : Fin 6)
    (h : ∀ t a, ((f t a).ch d).kind = (t.ch d).kind) : ((l.foldl f s).ch d).kind = (s.ch d).kind := by
  induction l generalizing s with
  | nil => rfl
  | cons a r ih => simp only [List.foldl_cons]; rw [ih, h]

@[simp] theorem State.modCh_kind (s : State) (c d : Fin 6) (f : Channel → Channel)
    (h : ∀ x, (f x).kind = x.kind) : ((s.modCh c f).ch d).kind = (s.ch d).kind := by
  rw [State.ch_modCh]; split <;> simp [*]

@[simp] theorem foldl_ch_ma {α : Type} (f : State → α → State) (l : List α) (s : State) (d : Fin 6)
    (h : ∀ t a, ((f t a).ch d).ma = (t.ch d).ma) : ((l.foldl f s).ch d).ma = (s.ch d).ma := by
  induction l generalizing s with
  | nil => rfl
  | cons a r ih => simp only [List.foldl_cons]; rw [ih, h]

@[simp] theorem State.modCh_ma (s : State) (c d : Fin 6) (f : Channel → Channel)
    (h : ∀ x, (f x).ma = x.ma) : ((s.modCh c f).ch d).ma = (s.ch d).ma := by
  rw [State.ch_modCh]; split <;> simp [*]

@[simp] theorem foldl_ch_mb {α : Type} (f : State → α → State) (l : List α) (s : State) (d : Fin 6)
    (h : ∀ t a, ((f t a).ch d).mb = (t.ch d).mb) : ((l.foldl f s).ch d).mb = (s.ch d).mb := by
  induction l generalizing s with
  | nil => rfl
  | cons a r ih => simp only [List.foldl_cons]; rw [ih, h]

@[simp] theorem State.modCh_mb (s : State) (c d : Fin 6) (f : Channel → Channel)
    (h : ∀ x, (f x).mb = x.mb) : ((s.modCh c f).ch d).mb = (s.ch d).mb := by
  rw [State.ch_modCh]; split <;> simp [*]

@[simp] theorem foldl_ch_mc {α : Type} (f : State → α → State) (l : List α) (s : State) (d : Fin 6)
    (h : ∀ t a, ((f t a).ch d).mc = (t.ch d).mc) : ((l.foldl f s).ch d).mc = (s.ch d).mc := by
  induction l generalizing s with
  | nil => rfl
  | cons a r ih => simp only [List.foldl_cons]; rw [ih, h]

@[simp] theorem State.modCh_mc (s : State) (c d : Fin 6) (f : Channel → Channel)
    (h : ∀ x, (f x).mc = x.mc) : ((s.modCh c f).ch d).mc = (s.ch d).mc := by
  rw [State.ch_modCh]; split <;> simp [*]

@[simp] theorem foldl_ch_clock {α : Type} (f : State → α → State) (l : List α) (s : State) (d : Fin 6)
    (h : ∀ t a, ((f t a).ch d).clock = (t.ch d).clock) : ((l.foldl f s).ch d).clock = (s.ch d).clock := by
  induction l generalizing s with
  | nil => rfl
  | cons a r ih => simp only [List.foldl_cons]; rw [ih, h]

@[simp] theorem State.modCh_clock (s : State) (c d : Fin 6) (f : Channel → Channel)
    (h : ∀ x, (f x).clock = x.clock) : ((s.modCh c f).ch d).clock = (s.ch d).clock := by
  rw [State.ch_modCh]; split <;> simp [*]

@[simp] theorem State.followWaits_inputs (s : State) (c : Fin 6) (d : Fin 6) :
    ((s.followWaits c).ch d).kind = (s.ch d).kind ∧ ((s.followWaits c).ch d).ma = (s.ch d).ma ∧
    ((s.followWaits c).ch d).mb = (s.ch d).mb ∧ ((s.followWaits c).ch d).mc = (s.ch d).mc ∧
    ((s.followWaits c).ch d).clock = (s.ch d).clock := by
  and_intros <;> unfold State.followWaits <;> (try dsimp only) <;> (repeat' split) <;> simp

@[simp] theorem State.followFan_inputs (s : State) (c : Fin 6) (d : Fin 6) :
    ((s.followFan c).ch d).kind = (s.ch d).kind ∧ ((s.followFan c).ch d).ma = (s.ch d).ma ∧
    ((s.followFan c).ch d).mb = (s.ch d).mb ∧ ((s.followFan c).ch d).mc = (s.ch d).mc ∧
    ((s.followFan c).ch d).clock = (s.ch d).clock := by
  and_intros <;> unfold State.followFan <;> (try dsimp only) <;> (repeat' split) <;> simp

@[simp] theorem State.followCast_inputs (s : State) (c : Fin 6) (d : Fin 6) :
    ((s.followCast c).ch d).kind = (s.ch d).kind ∧ ((s.followCast c).ch d).ma = (s.ch d).ma ∧
    ((s.followCast c).ch d).mb = (s.ch d).mb ∧ ((s.followCast c).ch d).mc = (s.ch d).mc ∧
    ((s.followCast c).ch d).clock = (s.ch d).clock := by
  and_intros <;> unfold State.followCast <;> (try dsimp only) <;> (repeat' split) <;> simp

@[simp] theorem State.follow_inputs (s : State) (c : Fin 6) (d : Fin 6) :
    ((s.follow c).ch d).kind = (s.ch d).kind ∧ ((s.follow c).ch d).ma = (s.ch d).ma ∧
    ((s.follow c).ch d).mb = (s.ch d).mb ∧ ((s.follow c).ch d).mc = (s.ch d).mc ∧
    ((s.follow c).ch d).clock = (s.ch d).clock := by
  and_intros <;> unfold State.follow <;> (try dsimp only) <;> (repeat' split) <;> simp

@[simp] theorem State.ask_inputs (s : State) (c : Fin 6) (a : Ask) (d : Fin 6) :
    ((s.ask c a).ch d).kind = (s.ch d).kind ∧ ((s.ask c a).ch d).ma = (s.ch d).ma ∧
    ((s.ask c a).ch d).mb = (s.ch d).mb ∧ ((s.ask c a).ch d).mc = (s.ch d).mc ∧
    ((s.ask c a).ch d).clock = (s.ch d).clock := by
  and_intros <;> unfold State.ask <;> (try dsimp only) <;> (repeat' split) <;> simp

@[simp] theorem State.repeatAsks_inputs (s : State) (c : Fin 6) (d : Fin 6) :
    ((s.repeatAsks c).ch d).kind = (s.ch d).kind ∧ ((s.repeatAsks c).ch d).ma = (s.ch d).ma ∧
    ((s.repeatAsks c).ch d).mb = (s.ch d).mb ∧ ((s.repeatAsks c).ch d).mc = (s.ch d).mc ∧
    ((s.repeatAsks c).ch d).clock = (s.ch d).clock := by
  and_intros <;> unfold State.repeatAsks <;> (try dsimp only) <;> (repeat' split) <;> simp

@[simp] theorem State.dropClaim_inputs (s : State) (c : Fin 6) (slot : Nat) (d : Fin 6) :
    ((s.dropClaim c slot).ch d).kind = (s.ch d).kind ∧ ((s.dropClaim c slot).ch d).ma = (s.ch d).ma ∧
    ((s.dropClaim c slot).ch d).mb = (s.ch d).mb ∧ ((s.dropClaim c slot).ch d).mc = (s.ch d).mc ∧
    ((s.dropClaim c slot).ch d).clock = (s.ch d).clock := by
  and_intros <;> unfold State.dropClaim <;> (try dsimp only) <;> (repeat' split) <;> simp

@[simp] theorem State.dropOn_inputs (s : State) (c : Fin 6) (r : Resource) (d : Fin 6) :
    ((s.dropOn c r).ch d).kind = (s.ch d).kind ∧ ((s.dropOn c r).ch d).ma = (s.ch d).ma ∧
    ((s.dropOn c r).ch d).mb = (s.ch d).mb ∧ ((s.dropOn c r).ch d).mc = (s.ch d).mc ∧
    ((s.dropOn c r).ch d).clock = (s.ch d).clock := by
  and_intros <;> unfold State.dropOn <;> (try dsimp only) <;> (repeat' split) <;> simp

@[simp] theorem State.dropAll_inputs (s : State) (c : Fin 6) (d : Fin 6) :
    ((s.dropAll c).ch d).kind = (s.ch d).kind ∧ ((s.dropAll c).ch d).ma = (s.ch d).ma ∧
    ((s.dropAll c).ch d).mb = (s.ch d).mb ∧ ((s.dropAll c).ch d).mc = (s.ch d).mc ∧
    ((s.dropAll c).ch d).clock = (s.ch d).clock := by
  and_intros <;> unfold State.dropAll <;> (try dsimp only) <;> (repeat' split) <;> simp

@[simp] theorem State.lowerClaim_inputs (s : State) (c : Fin 6) (slot amount : Nat) (d : Fin 6) :
    ((s.lowerClaim c slot amount).ch d).kind = (s.ch d).kind ∧
    ((s.lowerClaim c slot amount).ch d).ma = (s.ch d).ma ∧
    ((s.lowerClaim c slot amount).ch d).mb = (s.ch d).mb ∧
    ((s.lowerClaim c slot amount).ch d).mc = (s.ch d).mc ∧
    ((s.lowerClaim c slot amount).ch d).clock = (s.ch d).clock := by
  and_intros <;> unfold State.lowerClaim <;> (try dsimp only) <;> (repeat' split) <;> simp

@[simp] theorem State.countShed_inputs (s : State) (c : Fin 6) (d : Fin 6) :
    ((s.countShed c).ch d).kind = (s.ch d).kind ∧ ((s.countShed c).ch d).ma = (s.ch d).ma ∧
    ((s.countShed c).ch d).mb = (s.ch d).mb ∧ ((s.countShed c).ch d).mc = (s.ch d).mc ∧
    ((s.countShed c).ch d).clock = (s.ch d).clock := by
  unfold State.countShed
  simp [apply_ite Channel.kind, apply_ite Channel.ma, apply_ite Channel.mb, apply_ite Channel.mc,
      apply_ite Channel.clock]

@[simp] theorem State.shedOne_inputs (s : State) (c : Fin 6) (o : OwnClaim) (d : Fin 6) :
    ((s.shedOne c o).ch d).kind = (s.ch d).kind ∧ ((s.shedOne c o).ch d).ma = (s.ch d).ma ∧
    ((s.shedOne c o).ch d).mb = (s.ch d).mb ∧ ((s.shedOne c o).ch d).mc = (s.ch d).mc ∧
    ((s.shedOne c o).ch d).clock = (s.ch d).clock := by
  and_intros <;> unfold State.shedOne <;> (try dsimp only) <;> (repeat' split) <;> simp

@[simp] theorem State.shedPoint_inputs (s : State) (c : Fin 6) (rs : List Resource) (d : Fin 6) :
    ((s.shedPoint c rs).ch d).kind = (s.ch d).kind ∧ ((s.shedPoint c rs).ch d).ma = (s.ch d).ma ∧
    ((s.shedPoint c rs).ch d).mb = (s.ch d).mb ∧ ((s.shedPoint c rs).ch d).mc = (s.ch d).mc ∧
    ((s.shedPoint c rs).ch d).clock = (s.ch d).clock := by
  and_intros <;> unfold State.shedPoint <;> (try dsimp only) <;> (repeat' split) <;> simp

@[simp] theorem voidedAt_inputs (h : Channel) (r : Resource) :
    (voidedAt h r).kind = h.kind ∧ (voidedAt h r).ma = h.ma ∧ (voidedAt h r).mb = h.mb ∧
    (voidedAt h r).mc = h.mc ∧ (voidedAt h r).clock = h.clock := by
  and_intros <;> unfold voidedAt <;> (try dsimp only) <;> (repeat' split) <;> simp

@[simp] theorem State.tellVoided_inputs (s : State) (held : List OwnClaim) (d : Fin 6) :
    ((s.tellVoided held).ch d).kind = (s.ch d).kind ∧ ((s.tellVoided held).ch d).ma = (s.ch d).ma ∧
    ((s.tellVoided held).ch d).mb = (s.ch d).mb ∧ ((s.tellVoided held).ch d).mc = (s.ch d).mc ∧
    ((s.tellVoided held).ch d).clock = (s.ch d).clock := by
  and_intros <;> unfold State.tellVoided <;> (try dsimp only) <;> (repeat' split) <;> simp

@[simp] theorem State.voidHoldings_inputs (s : State) (d : Fin 6) :
    ((s.voidHoldings).ch d).kind = (s.ch d).kind ∧ ((s.voidHoldings).ch d).ma = (s.ch d).ma ∧
    ((s.voidHoldings).ch d).mb = (s.ch d).mb ∧ ((s.voidHoldings).ch d).mc = (s.ch d).mc ∧
    ((s.voidHoldings).ch d).clock = (s.ch d).clock := by
  and_intros <;> unfold State.voidHoldings <;> (try dsimp only) <;> (repeat' split) <;> simp

@[simp] theorem State.offerCaptures_inputs (s : State) (c : Fin 6) (items : List EntryItem) (d : Fin 6) :
    ((s.offerCaptures c items).ch d).kind = (s.ch d).kind ∧ ((s.offerCaptures c items).ch d).ma = (s.ch d).ma ∧
    ((s.offerCaptures c items).ch d).mb = (s.ch d).mb ∧ ((s.offerCaptures c items).ch d).mc = (s.ch d).mc ∧
    ((s.offerCaptures c items).ch d).clock = (s.ch d).clock := by
  and_intros <;> unfold State.offerCaptures <;> (try dsimp only) <;> (repeat' split) <;> simp

@[simp] theorem serveList_inputs (l : List (Fin 6)) (s : State) (d : Fin 6) :
    ((serveList l s).ch d).kind = (s.ch d).kind ∧ ((serveList l s).ch d).ma = (s.ch d).ma ∧
    ((serveList l s).ch d).mb = (s.ch d).mb ∧ ((serveList l s).ch d).mc = (s.ch d).mc ∧
    ((serveList l s).ch d).clock = (s.ch d).clock := by
  induction l generalizing s with
  | nil => simp [serveList]
  | cons c r ih => and_intros <;> unfold serveList <;> (repeat' split) <;> simp [ih]

@[simp] theorem State.serve_inputs (s : State) (d : Fin 6) :
    ((s.serve).ch d).kind = (s.ch d).kind ∧ ((s.serve).ch d).ma = (s.ch d).ma ∧
    ((s.serve).ch d).mb = (s.ch d).mb ∧ ((s.serve).ch d).mc = (s.ch d).mc ∧
    ((s.serve).ch d).clock = (s.ch d).clock := by
  and_intros <;> unfold State.serve <;> (try dsimp only) <;> (repeat' split) <;> simp

@[simp] theorem State.dropCaptures_inputs (s : State) (c : Fin 6) (d : Fin 6) :
    ((s.dropCaptures c).ch d).kind = (s.ch d).kind ∧ ((s.dropCaptures c).ch d).ma = (s.ch d).ma ∧
    ((s.dropCaptures c).ch d).mb = (s.ch d).mb ∧ ((s.dropCaptures c).ch d).mc = (s.ch d).mc ∧
    ((s.dropCaptures c).ch d).clock = (s.ch d).clock := by
  and_intros <;> unfold State.dropCaptures <;> (try dsimp only) <;> (repeat' split) <;> simp

@[simp] theorem State.modXfer_inputs (s : State) (c : Fin 6) (f : Xfer → Xfer) (d : Fin 6) :
    ((s.modXfer c f).ch d).kind = (s.ch d).kind ∧ ((s.modXfer c f).ch d).ma = (s.ch d).ma ∧
    ((s.modXfer c f).ch d).mb = (s.ch d).mb ∧ ((s.modXfer c f).ch d).mc = (s.ch d).mc ∧
    ((s.modXfer c f).ch d).clock = (s.ch d).clock := by
  and_intros <;> unfold State.modXfer <;> (try dsimp only) <;> (repeat' split) <;> simp

@[simp] theorem State.endXfer_inputs (s : State) (c : Fin 6) (d : Fin 6) :
    ((s.endXfer c).ch d).kind = (s.ch d).kind ∧ ((s.endXfer c).ch d).ma = (s.ch d).ma ∧
    ((s.endXfer c).ch d).mb = (s.ch d).mb ∧ ((s.endXfer c).ch d).mc = (s.ch d).mc ∧
    ((s.endXfer c).ch d).clock = (s.ch d).clock := by
  and_intros <;> unfold State.endXfer <;> (try dsimp only) <;> (repeat' split) <;> simp

@[simp] theorem State.offerWait_inputs (s : State) (c : Fin 6) (b : Bool) (d : Fin 6) :
    ((s.offerWait c b).ch d).kind = (s.ch d).kind ∧ ((s.offerWait c b).ch d).ma = (s.ch d).ma ∧
    ((s.offerWait c b).ch d).mb = (s.ch d).mb ∧ ((s.offerWait c b).ch d).mc = (s.ch d).mc ∧
    ((s.offerWait c b).ch d).clock = (s.ch d).clock := by
  and_intros <;> unfold State.offerWait <;> (try dsimp only) <;> (repeat' split) <;> simp

@[simp] theorem State.endOffer_inputs (s : State) (c : Fin 6) (d : Fin 6) :
    ((s.endOffer c).ch d).kind = (s.ch d).kind ∧ ((s.endOffer c).ch d).ma = (s.ch d).ma ∧
    ((s.endOffer c).ch d).mb = (s.ch d).mb ∧ ((s.endOffer c).ch d).mc = (s.ch d).mc ∧
    ((s.endOffer c).ch d).clock = (s.ch d).clock := by
  and_intros <;> unfold State.endOffer <;> (try dsimp only) <;> (repeat' split) <;> simp

@[simp] theorem State.startOffer_inputs (s : State) (c : Fin 6) (r : PhaseRecord) (d : Fin 6) :
    ((s.startOffer c r).ch d).kind = (s.ch d).kind ∧ ((s.startOffer c r).ch d).ma = (s.ch d).ma ∧
    ((s.startOffer c r).ch d).mb = (s.ch d).mb ∧ ((s.startOffer c r).ch d).mc = (s.ch d).mc ∧
    ((s.startOffer c r).ch d).clock = (s.ch d).clock := by
  and_intros <;> unfold State.startOffer <;> (try dsimp only) <;> (repeat' split) <;> simp

@[simp] theorem State.xferHalted_inputs (s : State) (c : Fin 6) (d : Fin 6) :
    ((s.xferHalted c).ch d).kind = (s.ch d).kind ∧ ((s.xferHalted c).ch d).ma = (s.ch d).ma ∧
    ((s.xferHalted c).ch d).mb = (s.ch d).mb ∧ ((s.xferHalted c).ch d).mc = (s.ch d).mc ∧
    ((s.xferHalted c).ch d).clock = (s.ch d).clock := by
  and_intros <;> unfold State.xferHalted <;> (try dsimp only) <;> (repeat' split) <;> simp

@[simp] theorem State.completeCast_inputs (s : State) (c : Fin 6) (d : Fin 6) :
    ((s.completeCast c).ch d).kind = (s.ch d).kind ∧ ((s.completeCast c).ch d).ma = (s.ch d).ma ∧
    ((s.completeCast c).ch d).mb = (s.ch d).mb ∧ ((s.completeCast c).ch d).mc = (s.ch d).mc ∧
    ((s.completeCast c).ch d).clock = (s.ch d).clock := by
  and_intros <;> unfold State.completeCast <;> (try dsimp only) <;> (repeat' split) <;> simp

@[simp] theorem haltedChannel_inputs (h : Channel) (r : HaltReason) :
    (haltedChannel h r).kind = h.kind ∧ (haltedChannel h r).ma = h.ma ∧ (haltedChannel h r).mb = h.mb ∧
    (haltedChannel h r).mc = h.mc ∧ (haltedChannel h r).clock = h.clock := by
  and_intros <;> unfold haltedChannel <;> (try dsimp only) <;> (repeat' split) <;> simp

@[simp] theorem State.halt_inputs (s : State) (c : Fin 6) (r : HaltReason) (d : Fin 6) :
    ((s.halt c r).ch d).kind = (s.ch d).kind ∧ ((s.halt c r).ch d).ma = (s.ch d).ma ∧
    ((s.halt c r).ch d).mb = (s.ch d).mb ∧ ((s.halt c r).ch d).mc = (s.ch d).mc ∧
    ((s.halt c r).ch d).clock = (s.ch d).clock := by
  and_intros <;> unfold State.halt <;> (try dsimp only) <;> (repeat' split) <;> simp

@[simp] theorem pausedChannel_inputs (h : Channel) (reason : PauseReason) (resume : Option Resume) :
    (pausedChannel h reason resume).kind = h.kind ∧ (pausedChannel h reason resume).ma = h.ma ∧
    (pausedChannel h reason resume).mb = h.mb ∧ (pausedChannel h reason resume).mc = h.mc ∧
    (pausedChannel h reason resume).clock = h.clock := by
  and_intros <;> unfold pausedChannel <;> (try dsimp only) <;> (repeat' split) <;> simp

@[simp] theorem State.pause_inputs (s : State) (c : Fin 6) (reason : PauseReason) (resume : Option Resume) (d : Fin 6) :
    ((s.pause c reason resume).ch d).kind = (s.ch d).kind ∧ ((s.pause c reason resume).ch d).ma = (s.ch d).ma ∧
    ((s.pause c reason resume).ch d).mb = (s.ch d).mb ∧ ((s.pause c reason resume).ch d).mc = (s.ch d).mc ∧
    ((s.pause c reason resume).ch d).clock = (s.ch d).clock := by
  and_intros <;> unfold State.pause <;> (try dsimp only) <;> (repeat' split) <;> simp

@[simp] theorem State.starve_inputs (s : State) (c : Fin 6) (d : Fin 6) :
    ((s.starve c).ch d).kind = (s.ch d).kind ∧ ((s.starve c).ch d).ma = (s.ch d).ma ∧
    ((s.starve c).ch d).mb = (s.ch d).mb ∧ ((s.starve c).ch d).mc = (s.ch d).mc ∧
    ((s.starve c).ch d).clock = (s.ch d).clock := by
  and_intros <;> unfold State.starve <;> (try dsimp only) <;> (repeat' split) <;> simp

@[simp] theorem idleChannel_inputs (h : Channel) :
    (idleChannel h).kind = h.kind ∧ (idleChannel h).ma = h.ma ∧ (idleChannel h).mb = h.mb ∧
    (idleChannel h).mc = h.mc ∧ (idleChannel h).clock = h.clock := by
  and_intros <;> unfold idleChannel <;> (try dsimp only) <;> (repeat' split) <;> simp

@[simp] theorem State.lowerBy_inputs (s : State) (c : Fin 6) (e : Nat) (l : List OwnClaim) (d : Fin 6) :
    ((s.lowerBy c e l).ch d).kind = (s.ch d).kind ∧ ((s.lowerBy c e l).ch d).ma = (s.ch d).ma ∧
    ((s.lowerBy c e l).ch d).mb = (s.ch d).mb ∧ ((s.lowerBy c e l).ch d).mc = (s.ch d).mc ∧
    ((s.lowerBy c e l).ch d).clock = (s.ch d).clock := by
  induction l generalizing s e with
  | nil => simp [State.lowerBy]
  | cons o r ih => and_intros <;> unfold State.lowerBy <;> (repeat' split) <;> simp [ih]

@[simp] theorem State.carry_inputs (s : State) (c : Fin 6) (r : PhaseRecord) (res : Resource) (d : Fin 6) :
    ((s.carry c r res).ch d).kind = (s.ch d).kind ∧ ((s.carry c r res).ch d).ma = (s.ch d).ma ∧
    ((s.carry c r res).ch d).mb = (s.ch d).mb ∧ ((s.carry c r res).ch d).mc = (s.ch d).mc ∧
    ((s.carry c r res).ch d).clock = (s.ch d).clock := by
  and_intros <;> unfold State.carry <;> (try dsimp only) <;> (repeat' split) <;> simp

@[simp] theorem State.carryClaims_inputs (s : State) (c : Fin 6) (r : PhaseRecord) (d : Fin 6) :
    ((s.carryClaims c r).ch d).kind = (s.ch d).kind ∧ ((s.carryClaims c r).ch d).ma = (s.ch d).ma ∧
    ((s.carryClaims c r).ch d).mb = (s.ch d).mb ∧ ((s.carryClaims c r).ch d).mc = (s.ch d).mc ∧
    ((s.carryClaims c r).ch d).clock = (s.ch d).clock := by
  and_intros <;> unfold State.carryClaims <;> (try dsimp only) <;> (repeat' split) <;> simp

@[simp] theorem startSetpoint_inputs (h : Channel) (r : PhaseRecord) :
    (startSetpoint h r).kind = h.kind ∧ (startSetpoint h r).ma = h.ma ∧ (startSetpoint h r).mb = h.mb ∧
    (startSetpoint h r).mc = h.mc ∧ (startSetpoint h r).clock = h.clock := by
  and_intros <;> unfold startSetpoint <;> (try dsimp only) <;> (repeat' split) <;> simp

@[simp] theorem State.createPiece_inputs (s : State) (c : Fin 6) (lot : Nat) (d : Fin 6) :
    ((s.createPiece c lot).ch d).kind = (s.ch d).kind ∧ ((s.createPiece c lot).ch d).ma = (s.ch d).ma ∧
    ((s.createPiece c lot).ch d).mb = (s.ch d).mb ∧ ((s.createPiece c lot).ch d).mc = (s.ch d).mc ∧
    ((s.createPiece c lot).ch d).clock = (s.ch d).clock := by
  and_intros <;> unfold State.createPiece <;> (try dsimp only) <;> (repeat' split) <;> simp

@[simp] theorem startedChannel_inputs (h : Channel) (r : PhaseRecord) (orphan : Bool) :
    (startedChannel h r orphan).kind = h.kind ∧ (startedChannel h r orphan).ma = h.ma ∧
    (startedChannel h r orphan).mb = h.mb ∧ (startedChannel h r orphan).mc = h.mc ∧
    (startedChannel h r orphan).clock = h.clock := by
  and_intros <;> unfold startedChannel <;> (try dsimp only) <;> (repeat' split) <;> simp

@[simp] theorem kindStart_inputs (h : Channel) (r : PhaseRecord) :
    (kindStart h r).kind = h.kind ∧ (kindStart h r).ma = h.ma ∧ (kindStart h r).mb = h.mb ∧
    (kindStart h r).mc = h.mc ∧ (kindStart h r).clock = h.clock := by
  and_intros <;> unfold kindStart <;> (try dsimp only) <;> (repeat' split) <;> simp

@[simp] theorem State.startWaits_inputs (s : State) (c : Fin 6) (d : Fin 6) :
    ((s.startWaits c).ch d).kind = (s.ch d).kind ∧ ((s.startWaits c).ch d).ma = (s.ch d).ma ∧
    ((s.startWaits c).ch d).mb = (s.ch d).mb ∧ ((s.startWaits c).ch d).mc = (s.ch d).mc ∧
    ((s.startWaits c).ch d).clock = (s.ch d).clock := by
  and_intros <;> unfold State.startWaits <;> (try dsimp only) <;> (repeat' split) <;> simp

@[simp] theorem State.startAsks_inputs (s : State) (c : Fin 6) (r : PhaseRecord) (d : Fin 6) :
    ((s.startAsks c r).ch d).kind = (s.ch d).kind ∧ ((s.startAsks c r).ch d).ma = (s.ch d).ma ∧
    ((s.startAsks c r).ch d).mb = (s.ch d).mb ∧ ((s.startAsks c r).ch d).mc = (s.ch d).mc ∧
    ((s.startAsks c r).ch d).clock = (s.ch d).clock := by
  and_intros <;> unfold State.startAsks <;> (try dsimp only) <;> (repeat' split) <;> simp

@[simp] theorem State.begin_inputs (s : State) (c : Fin 6) (afterFinal orphan : Bool) (d : Fin 6) :
    ((s.begin c afterFinal orphan).ch d).kind = (s.ch d).kind ∧
    ((s.begin c afterFinal orphan).ch d).ma = (s.ch d).ma ∧
    ((s.begin c afterFinal orphan).ch d).mb = (s.ch d).mb ∧
    ((s.begin c afterFinal orphan).ch d).mc = (s.ch d).mc ∧
    ((s.begin c afterFinal orphan).ch d).clock = (s.ch d).clock := by
  and_intros <;> unfold State.begin <;> (try dsimp only) <;> (repeat' split) <;> simp

@[simp] theorem recordedChannel_inputs (h : Channel) (r : PhaseRecord) (reason : EndReason) (round : Word16) :
    (recordedChannel h r reason round).kind = h.kind ∧ (recordedChannel h r reason round).ma = h.ma ∧
    (recordedChannel h r reason round).mb = h.mb ∧ (recordedChannel h r reason round).mc = h.mc ∧
    (recordedChannel h r reason round).clock = h.clock := by
  and_intros <;> unfold recordedChannel <;> (try dsimp only) <;> (repeat' split) <;> simp

@[simp] theorem movedOn_inputs (h : Channel) (r : PhaseRecord) :
    (movedOn h r).kind = h.kind ∧ (movedOn h r).ma = h.ma ∧ (movedOn h r).mb = h.mb ∧ (movedOn h r).mc = h.mc ∧
    (movedOn h r).clock = h.clock := by
  and_intros <;> unfold movedOn <;> (try dsimp only) <;> (repeat' split) <;> simp

@[simp] theorem State.endPiece_inputs (s : State) (c : Fin 6) (d : Fin 6) :
    ((s.endPiece c).ch d).kind = (s.ch d).kind ∧ ((s.endPiece c).ch d).ma = (s.ch d).ma ∧
    ((s.endPiece c).ch d).mb = (s.ch d).mb ∧ ((s.endPiece c).ch d).mc = (s.ch d).mc ∧
    ((s.endPiece c).ch d).clock = (s.ch d).clock := by
  and_intros <;> unfold State.endPiece <;> (try dsimp only) <;> (repeat' split) <;> simp

@[simp] theorem State.afterFinal_inputs (s : State) (c : Fin 6) (k : PhaseKind) (d : Fin 6) :
    ((s.afterFinal c k).ch d).kind = (s.ch d).kind ∧ ((s.afterFinal c k).ch d).ma = (s.ch d).ma ∧
    ((s.afterFinal c k).ch d).mb = (s.ch d).mb ∧ ((s.afterFinal c k).ch d).mc = (s.ch d).mc ∧
    ((s.afterFinal c k).ch d).clock = (s.ch d).clock := by
  and_intros <;> unfold State.afterFinal <;> (try dsimp only) <;> (repeat' split) <;> simp

@[simp] theorem State.complete_inputs (s : State) (c : Fin 6) (reason : EndReason) (d : Fin 6) :
    ((s.complete c reason).ch d).kind = (s.ch d).kind ∧ ((s.complete c reason).ch d).ma = (s.ch d).ma ∧
    ((s.complete c reason).ch d).mb = (s.ch d).mb ∧ ((s.complete c reason).ch d).mc = (s.ch d).mc ∧
    ((s.complete c reason).ch d).clock = (s.ch d).clock := by
  and_intros <;> unfold State.complete <;> (try dsimp only) <;> (repeat' split) <;> simp

@[simp] theorem State.finish_inputs (s : State) (c : Fin 6) (reason : EndReason) (d : Fin 6) :
    ((s.finish c reason).ch d).kind = (s.ch d).kind ∧ ((s.finish c reason).ch d).ma = (s.ch d).ma ∧
    ((s.finish c reason).ch d).mb = (s.ch d).mb ∧ ((s.finish c reason).ch d).mc = (s.ch d).mc ∧
    ((s.finish c reason).ch d).clock = (s.ch d).clock := by
  and_intros <;> unfold State.finish <;> (try dsimp only) <;> (repeat' split) <;> simp

@[simp] theorem State.startPhase_inputs (s : State) (c : Fin 6) (orphan : Bool) (d : Fin 6) :
    ((s.startPhase c orphan).ch d).kind = (s.ch d).kind ∧ ((s.startPhase c orphan).ch d).ma = (s.ch d).ma ∧
    ((s.startPhase c orphan).ch d).mb = (s.ch d).mb ∧ ((s.startPhase c orphan).ch d).mc = (s.ch d).mc ∧
    ((s.startPhase c orphan).ch d).clock = (s.ch d).clock := by
  and_intros <;> unfold State.startPhase <;> (try dsimp only) <;> (repeat' split) <;> simp

@[simp] theorem State.dropTurner_inputs (s : State) (d : Fin 6) :
    ((s.dropTurner).ch d).kind = (s.ch d).kind ∧ ((s.dropTurner).ch d).ma = (s.ch d).ma ∧
    ((s.dropTurner).ch d).mb = (s.ch d).mb ∧ ((s.dropTurner).ch d).mc = (s.ch d).mc ∧
    ((s.dropTurner).ch d).clock = (s.ch d).clock := by
  and_intros <;> unfold State.dropTurner <;> (try dsimp only) <;> (repeat' split) <;> simp

@[simp] theorem State.turnerHolds_inputs (s : State) (e : ClaimEntry) (d : Fin 6) :
    ((s.turnerHolds e).ch d).kind = (s.ch d).kind ∧ ((s.turnerHolds e).ch d).ma = (s.ch d).ma ∧
    ((s.turnerHolds e).ch d).mb = (s.ch d).mb ∧ ((s.turnerHolds e).ch d).mc = (s.ch d).mc ∧
    ((s.turnerHolds e).ch d).clock = (s.ch d).clock := by
  and_intros <;> unfold State.turnerHolds <;> (try dsimp only) <;> (repeat' split) <;> simp

@[simp] theorem State.abandon_inputs (s : State) (o : Order) (d : Fin 6) :
    ((s.abandon o).ch d).kind = (s.ch d).kind ∧ ((s.abandon o).ch d).ma = (s.ch d).ma ∧
    ((s.abandon o).ch d).mb = (s.ch d).mb ∧ ((s.abandon o).ch d).mc = (s.ch d).mc ∧
    ((s.abandon o).ch d).clock = (s.ch d).clock := by
  and_intros <;> unfold State.abandon <;> (try dsimp only) <;> (repeat' split) <;> simp

@[simp] theorem State.turnerStops_inputs (s : State) (station channel : Nat) (d : Fin 6) :
    ((s.turnerStops station channel).ch d).kind = (s.ch d).kind ∧
    ((s.turnerStops station channel).ch d).ma = (s.ch d).ma ∧
    ((s.turnerStops station channel).ch d).mb = (s.ch d).mb ∧
    ((s.turnerStops station channel).ch d).mc = (s.ch d).mc ∧
    ((s.turnerStops station channel).ch d).clock = (s.ch d).clock := by
  and_intros <;> unfold State.turnerStops <;> (try dsimp only) <;> (repeat' split) <;> simp

@[simp] theorem State.report_inputs (s : State) (r : TurnerReport) (d : Fin 6) :
    ((s.report r).ch d).kind = (s.ch d).kind ∧ ((s.report r).ch d).ma = (s.ch d).ma ∧
    ((s.report r).ch d).mb = (s.ch d).mb ∧ ((s.report r).ch d).mc = (s.ch d).mc ∧
    ((s.report r).ch d).clock = (s.ch d).clock := by
  and_intros <;> unfold State.report <;> (try dsimp only) <;> (repeat' split) <;> simp

@[simp] theorem State.reportAll_inputs (s : State) (l : List TurnerReport) (d : Fin 6) :
    ((s.reportAll l).ch d).kind = (s.ch d).kind ∧ ((s.reportAll l).ch d).ma = (s.ch d).ma ∧
    ((s.reportAll l).ch d).mb = (s.ch d).mb ∧ ((s.reportAll l).ch d).mc = (s.ch d).mc ∧
    ((s.reportAll l).ch d).clock = (s.ch d).clock := by
  and_intros <;> unfold State.reportAll <;> (try dsimp only) <;> (repeat' split) <;> simp

@[simp] theorem State.turningDone_inputs (s : State) (d : Fin 6) :
    ((s.turningDone).ch d).kind = (s.ch d).kind ∧ ((s.turningDone).ch d).ma = (s.ch d).ma ∧
    ((s.turningDone).ch d).mb = (s.ch d).mb ∧ ((s.turningDone).ch d).mc = (s.ch d).mc ∧
    ((s.turningDone).ch d).clock = (s.ch d).clock := by
  and_intros <;> unfold State.turningDone <;> (try dsimp only) <;> (repeat' split) <;> simp

@[simp] theorem State.turnerFaults_inputs (s : State) (d : Fin 6) :
    ((s.turnerFaults).ch d).kind = (s.ch d).kind ∧ ((s.turnerFaults).ch d).ma = (s.ch d).ma ∧
    ((s.turnerFaults).ch d).mb = (s.ch d).mb ∧ ((s.turnerFaults).ch d).mc = (s.ch d).mc ∧
    ((s.turnerFaults).ch d).clock = (s.ch d).clock := by
  and_intros <;> unfold State.turnerFaults <;> (try dsimp only) <;> (repeat' split) <;> simp

@[simp] theorem State.setClaims_inputs (s : State) (t : List ClaimEntry) (l : List TurnerReport) (d : Fin 6) :
    ((s.setClaims t l).ch d).kind = (s.ch d).kind ∧ ((s.setClaims t l).ch d).ma = (s.ch d).ma ∧
    ((s.setClaims t l).ch d).mb = (s.ch d).mb ∧ ((s.setClaims t l).ch d).mc = (s.ch d).mc ∧
    ((s.setClaims t l).ch d).clock = (s.ch d).clock := by
  and_intros <;> unfold State.setClaims <;> (try dsimp only) <;> (repeat' split) <;> simp

@[simp] theorem State.applyClaims_inputs (s : State) (sender : Nat) (items : List ClaimItem) (turnerOk : Bool) (d : Fin 6) :
    ((s.applyClaims sender items turnerOk).ch d).kind = (s.ch d).kind ∧
    ((s.applyClaims sender items turnerOk).ch d).ma = (s.ch d).ma ∧
    ((s.applyClaims sender items turnerOk).ch d).mb = (s.ch d).mb ∧
    ((s.applyClaims sender items turnerOk).ch d).mc = (s.ch d).mc ∧
    ((s.applyClaims sender items turnerOk).ch d).clock = (s.ch d).clock := by
  and_intros <;> unfold State.applyClaims <;> (try dsimp only) <;> (repeat' split) <;> simp

@[simp] theorem State.expireClaims_inputs (s : State) (station : Nat) (d : Fin 6) :
    ((s.expireClaims station).ch d).kind = (s.ch d).kind ∧ ((s.expireClaims station).ch d).ma = (s.ch d).ma ∧
    ((s.expireClaims station).ch d).mb = (s.ch d).mb ∧ ((s.expireClaims station).ch d).mc = (s.ch d).mc ∧
    ((s.expireClaims station).ch d).clock = (s.ch d).clock := by
  and_intros <;> unfold State.expireClaims <;> (try dsimp only) <;> (repeat' split) <;> simp

@[simp] theorem State.clearClaims_inputs (s : State) (d : Fin 6) :
    ((s.clearClaims).ch d).kind = (s.ch d).kind ∧ ((s.clearClaims).ch d).ma = (s.ch d).ma ∧
    ((s.clearClaims).ch d).mb = (s.ch d).mb ∧ ((s.clearClaims).ch d).mc = (s.ch d).mc ∧
    ((s.clearClaims).ch d).clock = (s.ch d).clock := by
  and_intros <;> unfold State.clearClaims <;> (try dsimp only) <;> (repeat' split) <;> simp

@[simp] theorem State.judgeOffer_inputs (s : State) (sender : Nat) (o : OfferItem) (d : Fin 6) :
    ((s.judgeOffer sender o).ch d).kind = (s.ch d).kind ∧ ((s.judgeOffer sender o).ch d).ma = (s.ch d).ma ∧
    ((s.judgeOffer sender o).ch d).mb = (s.ch d).mb ∧ ((s.judgeOffer sender o).ch d).mc = (s.ch d).mc ∧
    ((s.judgeOffer sender o).ch d).clock = (s.ch d).clock := by
  and_intros <;> unfold State.judgeOffer <;> (try dsimp only) <;> (repeat' split) <;> simp

@[simp] theorem State.askTransfer_inputs (s : State) (c : Fin 6) (d : Fin 6) :
    ((s.askTransfer c).ch d).kind = (s.ch d).kind ∧ ((s.askTransfer c).ch d).ma = (s.ch d).ma ∧
    ((s.askTransfer c).ch d).mb = (s.ch d).mb ∧ ((s.askTransfer c).ch d).mc = (s.ch d).mc ∧
    ((s.askTransfer c).ch d).clock = (s.ch d).clock := by
  and_intros <;> unfold State.askTransfer <;> (try dsimp only) <;> (repeat' split) <;> simp

@[simp] theorem State.accepted_inputs (s : State) (c : Fin 6) (d : Fin 6) :
    ((s.accepted c).ch d).kind = (s.ch d).kind ∧ ((s.accepted c).ch d).ma = (s.ch d).ma ∧
    ((s.accepted c).ch d).mb = (s.ch d).mb ∧ ((s.accepted c).ch d).mc = (s.ch d).mc ∧
    ((s.accepted c).ch d).clock = (s.ch d).clock := by
  and_intros <;> unfold State.accepted <;> (try dsimp only) <;> (repeat' split) <;> simp

@[simp] theorem State.placePiece_inputs (s : State) (c : Fin 6) (content : Piece) (orphan : Bool) (d : Fin 6) :
    ((s.placePiece c content orphan).ch d).kind = (s.ch d).kind ∧
    ((s.placePiece c content orphan).ch d).ma = (s.ch d).ma ∧
    ((s.placePiece c content orphan).ch d).mb = (s.ch d).mb ∧
    ((s.placePiece c content orphan).ch d).mc = (s.ch d).mc ∧
    ((s.placePiece c content orphan).ch d).clock = (s.ch d).clock := by
  and_intros <;> unfold State.placePiece <;> (try dsimp only) <;> (repeat' split) <;> simp

@[simp] theorem State.settlePiece_inputs (s : State) (c : Fin 6) (d : Fin 6) :
    ((s.settlePiece c).ch d).kind = (s.ch d).kind ∧ ((s.settlePiece c).ch d).ma = (s.ch d).ma ∧
    ((s.settlePiece c).ch d).mb = (s.ch d).mb ∧ ((s.settlePiece c).ch d).mc = (s.ch d).mc ∧
    ((s.settlePiece c).ch d).clock = (s.ch d).clock := by
  and_intros <;> unfold State.settlePiece <;> (try dsimp only) <;> (repeat' split) <;> simp

@[simp] theorem State.arrive_inputs (s : State) (c : Fin 6) (source : Pair) (content : Piece) (d : Fin 6) :
    ((s.arrive c source content).ch d).kind = (s.ch d).kind ∧
    ((s.arrive c source content).ch d).ma = (s.ch d).ma ∧ ((s.arrive c source content).ch d).mb = (s.ch d).mb ∧
    ((s.arrive c source content).ch d).mc = (s.ch d).mc ∧
    ((s.arrive c source content).ch d).clock = (s.ch d).clock := by
  and_intros <;> unfold State.arrive <;> (try dsimp only) <;> (repeat' split) <;> simp

@[simp] theorem State.modPiece_inputs (s : State) (c : Fin 6) (f : Piece → Piece) (d : Fin 6) :
    ((s.modPiece c f).ch d).kind = (s.ch d).kind ∧ ((s.modPiece c f).ch d).ma = (s.ch d).ma ∧
    ((s.modPiece c f).ch d).mb = (s.ch d).mb ∧ ((s.modPiece c f).ch d).mc = (s.ch d).mc ∧
    ((s.modPiece c f).ch d).clock = (s.ch d).clock := by
  and_intros <;> unfold State.modPiece <;> (try dsimp only) <;> (repeat' split) <;> simp

@[simp] theorem State.handleCastend_inputs (s : State) (sender : Nat) (x : CastendItem) (d : Fin 6) :
    ((s.handleCastend sender x).ch d).kind = (s.ch d).kind ∧
    ((s.handleCastend sender x).ch d).ma = (s.ch d).ma ∧ ((s.handleCastend sender x).ch d).mb = (s.ch d).mb ∧
    ((s.handleCastend sender x).ch d).mc = (s.ch d).mc ∧
    ((s.handleCastend sender x).ch d).clock = (s.ch d).clock := by
  and_intros <;> unfold State.handleCastend <;> (try dsimp only) <;> (repeat' split) <;> simp

@[simp] theorem State.makeOrphan_inputs (s : State) (c : Fin 6) (value : Nat) (d : Fin 6) :
    ((s.makeOrphan c value).ch d).kind = (s.ch d).kind ∧ ((s.makeOrphan c value).ch d).ma = (s.ch d).ma ∧
    ((s.makeOrphan c value).ch d).mb = (s.ch d).mb ∧ ((s.makeOrphan c value).ch d).mc = (s.ch d).mc ∧
    ((s.makeOrphan c value).ch d).clock = (s.ch d).clock := by
  and_intros <;> unfold State.makeOrphan <;> (try dsimp only) <;> (repeat' split) <;> simp

@[simp] theorem State.castRead_inputs (s : State) (x : CastendItem) (d : Fin 6) :
    ((s.castRead x).ch d).kind = (s.ch d).kind ∧ ((s.castRead x).ch d).ma = (s.ch d).ma ∧
    ((s.castRead x).ch d).mb = (s.ch d).mb ∧ ((s.castRead x).ch d).mc = (s.ch d).mc ∧
    ((s.castRead x).ch d).clock = (s.ch d).clock := by
  and_intros <;> unfold State.castRead <;> (try dsimp only) <;> (repeat' split) <;> simp

@[simp] theorem State.lossAt_inputs (s : State) (station : Nat) (c : Fin 6) (d : Fin 6) :
    ((s.lossAt station c).ch d).kind = (s.ch d).kind ∧ ((s.lossAt station c).ch d).ma = (s.ch d).ma ∧
    ((s.lossAt station c).ch d).mb = (s.ch d).mb ∧ ((s.lossAt station c).ch d).mc = (s.ch d).mc ∧
    ((s.lossAt station c).ch d).clock = (s.ch d).clock := by
  and_intros <;> unfold State.lossAt <;> (try dsimp only) <;> (repeat' split) <;> simp

@[simp] theorem State.lossAll_inputs (s : State) (station : Nat) (d : Fin 6) :
    ((s.lossAll station).ch d).kind = (s.ch d).kind ∧ ((s.lossAll station).ch d).ma = (s.ch d).ma ∧
    ((s.lossAll station).ch d).mb = (s.ch d).mb ∧ ((s.lossAll station).ch d).mc = (s.ch d).mc ∧
    ((s.lossAll station).ch d).clock = (s.ch d).clock := by
  and_intros <;> unfold State.lossAll <;> (try dsimp only) <;> (repeat' split) <;> simp

@[simp] theorem State.lose_inputs (s : State) (station : Nat) (d : Fin 6) :
    ((s.lose station).ch d).kind = (s.ch d).kind ∧ ((s.lose station).ch d).ma = (s.ch d).ma ∧
    ((s.lose station).ch d).mb = (s.ch d).mb ∧ ((s.lose station).ch d).mc = (s.ch d).mc ∧
    ((s.lose station).ch d).clock = (s.ch d).clock := by
  and_intros <;> unfold State.lose <;> (try dsimp only) <;> (repeat' split) <;> simp

@[simp] theorem State.turnEnds_inputs (s : State) (c : Fin 6) (reason : EndReason) (d : Fin 6) :
    ((s.turnEnds c reason).ch d).kind = (s.ch d).kind ∧ ((s.turnEnds c reason).ch d).ma = (s.ch d).ma ∧
    ((s.turnEnds c reason).ch d).mb = (s.ch d).mb ∧ ((s.turnEnds c reason).ch d).mc = (s.ch d).mc ∧
    ((s.turnEnds c reason).ch d).clock = (s.ch d).clock := by
  and_intros <;> unfold State.turnEnds <;> (try dsimp only) <;> (repeat' split) <;> simp

@[simp] theorem State.handleTurnend_inputs (s : State) (t : TurnendItem) (d : Fin 6) :
    ((s.handleTurnend t).ch d).kind = (s.ch d).kind ∧ ((s.handleTurnend t).ch d).ma = (s.ch d).ma ∧
    ((s.handleTurnend t).ch d).mb = (s.ch d).mb ∧ ((s.handleTurnend t).ch d).mc = (s.ch d).mc ∧
    ((s.handleTurnend t).ch d).clock = (s.ch d).clock := by
  and_intros <;> unfold State.handleTurnend <;> (try dsimp only) <;> (repeat' split) <;> simp

@[simp] theorem State.discardPiece_inputs (s : State) (c : Fin 6) (d : Fin 6) :
    ((s.discardPiece c).ch d).kind = (s.ch d).kind ∧ ((s.discardPiece c).ch d).ma = (s.ch d).ma ∧
    ((s.discardPiece c).ch d).mb = (s.ch d).mb ∧ ((s.discardPiece c).ch d).mc = (s.ch d).mc ∧
    ((s.discardPiece c).ch d).clock = (s.ch d).clock := by
  and_intros <;> unfold State.discardPiece <;> (try dsimp only) <;> (repeat' split) <;> simp

@[simp] theorem State.depart_inputs (s : State) (d : Fin 6) :
    ((s.depart).ch d).kind = (s.ch d).kind ∧ ((s.depart).ch d).ma = (s.ch d).ma ∧
    ((s.depart).ch d).mb = (s.ch d).mb ∧ ((s.depart).ch d).mc = (s.ch d).mc ∧
    ((s.depart).ch d).clock = (s.ch d).clock := by
  and_intros <;> unfold State.depart <;> (try dsimp only) <;> (repeat' split) <;> simp

@[simp] theorem State.departIfMember_inputs (s : State) (d : Fin 6) :
    ((s.departIfMember).ch d).kind = (s.ch d).kind ∧ ((s.departIfMember).ch d).ma = (s.ch d).ma ∧
    ((s.departIfMember).ch d).mb = (s.ch d).mb ∧ ((s.departIfMember).ch d).mc = (s.ch d).mc ∧
    ((s.departIfMember).ch d).clock = (s.ch d).clock := by
  and_intros <;> unfold State.departIfMember <;> (try dsimp only) <;> (repeat' split) <;> simp

@[simp] theorem State.enterMute_inputs (s : State) (d : Fin 6) :
    ((s.enterMute).ch d).kind = (s.ch d).kind ∧ ((s.enterMute).ch d).ma = (s.ch d).ma ∧
    ((s.enterMute).ch d).mb = (s.ch d).mb ∧ ((s.enterMute).ch d).mc = (s.ch d).mc ∧
    ((s.enterMute).ch d).clock = (s.ch d).clock := by
  and_intros <;> unfold State.enterMute <;> (try dsimp only) <;> (repeat' split) <;> simp

@[simp] theorem State.emptyTable_inputs (s : State) (d : Fin 6) :
    ((s.emptyTable).ch d).kind = (s.ch d).kind ∧ ((s.emptyTable).ch d).ma = (s.ch d).ma ∧
    ((s.emptyTable).ch d).mb = (s.ch d).mb ∧ ((s.emptyTable).ch d).mc = (s.ch d).mc ∧
    ((s.emptyTable).ch d).clock = (s.ch d).clock := by
  and_intros <;> unfold State.emptyTable <;> (try dsimp only) <;> (repeat' split) <;> simp

@[simp] theorem State.enterClocking_inputs (s : State) (d : Fin 6) :
    ((s.enterClocking).ch d).kind = (s.ch d).kind ∧ ((s.enterClocking).ch d).ma = (s.ch d).ma ∧
    ((s.enterClocking).ch d).mb = (s.ch d).mb ∧ ((s.enterClocking).ch d).mc = (s.ch d).mc ∧
    ((s.enterClocking).ch d).clock = (s.ch d).clock := by
  and_intros <;> unfold State.enterClocking <;> (try dsimp only) <;> (repeat' split) <;> simp

@[simp] theorem State.losePeer_inputs (s : State) (a : Nat) (d : Fin 6) :
    ((s.losePeer a).ch d).kind = (s.ch d).kind ∧ ((s.losePeer a).ch d).ma = (s.ch d).ma ∧
    ((s.losePeer a).ch d).mb = (s.ch d).mb ∧ ((s.losePeer a).ch d).mc = (s.ch d).mc ∧
    ((s.losePeer a).ch d).clock = (s.ch d).clock := by
  and_intros <;> unfold State.losePeer <;> (try dsimp only) <;> (repeat' split) <;> simp

@[simp] theorem State.charge_inputs (s : State) (a : Nat) (d : Fin 6) :
    ((s.charge a).ch d).kind = (s.ch d).kind ∧ ((s.charge a).ch d).ma = (s.ch d).ma ∧
    ((s.charge a).ch d).mb = (s.ch d).mb ∧ ((s.charge a).ch d).mc = (s.ch d).mc ∧
    ((s.charge a).ch d).clock = (s.ch d).clock := by
  and_intros <;> unfold State.charge <;> (try dsimp only) <;> (repeat' split) <;> simp

@[simp] theorem State.chargeAll_inputs (s : State) (l : List Nat) (d : Fin 6) :
    ((s.chargeAll l).ch d).kind = (s.ch d).kind ∧ ((s.chargeAll l).ch d).ma = (s.ch d).ma ∧
    ((s.chargeAll l).ch d).mb = (s.ch d).mb ∧ ((s.chargeAll l).ch d).mc = (s.ch d).mc ∧
    ((s.chargeAll l).ch d).clock = (s.ch d).clock := by
  and_intros <;> unfold State.chargeAll <;> (try dsimp only) <;> (repeat' split) <;> simp

@[simp] theorem State.offerUnanswered_inputs (s : State) (c : Fin 6) (d : Fin 6) :
    ((s.offerUnanswered c).ch d).kind = (s.ch d).kind ∧ ((s.offerUnanswered c).ch d).ma = (s.ch d).ma ∧
    ((s.offerUnanswered c).ch d).mb = (s.ch d).mb ∧ ((s.offerUnanswered c).ch d).mc = (s.ch d).mc ∧
    ((s.offerUnanswered c).ch d).clock = (s.ch d).clock := by
  and_intros <;> unfold State.offerUnanswered <;> (try dsimp only) <;> (repeat' split) <;> simp

@[simp] theorem State.offerRound_inputs (s : State) (c : Fin 6) (d : Fin 6) :
    ((s.offerRound c).ch d).kind = (s.ch d).kind ∧ ((s.offerRound c).ch d).ma = (s.ch d).ma ∧
    ((s.offerRound c).ch d).mb = (s.ch d).mb ∧ ((s.offerRound c).ch d).mc = (s.ch d).mc ∧
    ((s.offerRound c).ch d).clock = (s.ch d).clock := by
  and_intros <;> unfold State.offerRound <;> (try dsimp only) <;> (repeat' split) <;> simp

@[simp] theorem State.countRound_inputs (s : State) (d : Fin 6) :
    ((s.countRound).ch d).kind = (s.ch d).kind ∧ ((s.countRound).ch d).ma = (s.ch d).ma ∧
    ((s.countRound).ch d).mb = (s.ch d).mb ∧ ((s.countRound).ch d).mc = (s.ch d).mc ∧
    ((s.countRound).ch d).clock = (s.ch d).clock := by
  and_intros <;> unfold State.countRound <;> (try dsimp only) <;> (repeat' split) <;> simp

@[simp] theorem State.judgeDissent_inputs (s : State) (opener : Nat) (digest : Word16) (d : Fin 6) :
    ((s.judgeDissent opener digest).ch d).kind = (s.ch d).kind ∧
    ((s.judgeDissent opener digest).ch d).ma = (s.ch d).ma ∧
    ((s.judgeDissent opener digest).ch d).mb = (s.ch d).mb ∧
    ((s.judgeDissent opener digest).ch d).mc = (s.ch d).mc ∧
    ((s.judgeDissent opener digest).ch d).clock = (s.ch d).clock := by
  and_intros <;> unfold State.judgeDissent <;> (try dsimp only) <;> (repeat' split) <;> simp

@[simp] theorem State.openRound_inputs (s : State) (d : Fin 6) :
    ((s.openRound).ch d).kind = (s.ch d).kind ∧ ((s.openRound).ch d).ma = (s.ch d).ma ∧
    ((s.openRound).ch d).mb = (s.ch d).mb ∧ ((s.openRound).ch d).mc = (s.ch d).mc ∧
    ((s.openRound).ch d).clock = (s.ch d).clock := by
  and_intros <;> unfold State.openRound <;> (try dsimp only) <;> (repeat' split) <;> simp

@[simp] theorem State.ownOpening_inputs (s : State) (d : Fin 6) :
    ((s.ownOpening).ch d).kind = (s.ch d).kind ∧ ((s.ownOpening).ch d).ma = (s.ch d).ma ∧
    ((s.ownOpening).ch d).mb = (s.ch d).mb ∧ ((s.ownOpening).ch d).mc = (s.ch d).mc ∧
    ((s.ownOpening).ch d).clock = (s.ch d).clock := by
  and_intros <;> unfold State.ownOpening <;> (try dsimp only) <;> (repeat' split) <;> simp

@[simp] theorem State.heardOpening_inputs (s : State) (f : TurnFrame) (d : Fin 6) :
    ((s.heardOpening f).ch d).kind = (s.ch d).kind ∧ ((s.heardOpening f).ch d).ma = (s.ch d).ma ∧
    ((s.heardOpening f).ch d).mb = (s.ch d).mb ∧ ((s.heardOpening f).ch d).mc = (s.ch d).mc ∧
    ((s.heardOpening f).ch d).clock = (s.ch d).clock := by
  and_intros <;> unfold State.heardOpening <;> (try dsimp only) <;> (repeat' split) <;> simp

@[simp] theorem State.garbledOpening_inputs (s : State) (d : Fin 6) :
    ((s.garbledOpening).ch d).kind = (s.ch d).kind ∧ ((s.garbledOpening).ch d).ma = (s.ch d).ma ∧
    ((s.garbledOpening).ch d).mb = (s.ch d).mb ∧ ((s.garbledOpening).ch d).mc = (s.ch d).mc ∧
    ((s.garbledOpening).ch d).clock = (s.ch d).clock := by
  and_intros <;> unfold State.garbledOpening <;> (try dsimp only) <;> (repeat' split) <;> simp

@[simp] theorem State.isolate_inputs (s : State) (d : Fin 6) :
    ((s.isolate).ch d).kind = (s.ch d).kind ∧ ((s.isolate).ch d).ma = (s.ch d).ma ∧
    ((s.isolate).ch d).mb = (s.ch d).mb ∧ ((s.isolate).ch d).mc = (s.ch d).mc ∧
    ((s.isolate).ch d).clock = (s.ch d).clock := by
  and_intros <;> unfold State.isolate <;> (try dsimp only) <;> (repeat' split) <;> simp

@[simp] theorem State.startOpening_inputs (s : State) (d : Fin 6) :
    ((s.startOpening).ch d).kind = (s.ch d).kind ∧ ((s.startOpening).ch d).ma = (s.ch d).ma ∧
    ((s.startOpening).ch d).mb = (s.ch d).mb ∧ ((s.startOpening).ch d).mc = (s.ch d).mc ∧
    ((s.startOpening).ch d).clock = (s.ch d).clock := by
  and_intros <;> unfold State.startOpening <;> (try dsimp only) <;> (repeat' split) <;> simp

@[simp] theorem State.abortCounted_inputs (s : State) (d : Fin 6) :
    ((s.abortCounted).ch d).kind = (s.ch d).kind ∧ ((s.abortCounted).ch d).ma = (s.ch d).ma ∧
    ((s.abortCounted).ch d).mb = (s.ch d).mb ∧ ((s.abortCounted).ch d).mc = (s.ch d).mc ∧
    ((s.abortCounted).ch d).clock = (s.ch d).clock := by
  and_intros <;> unfold State.abortCounted <;> (try dsimp only) <;> (repeat' split) <;> simp

@[simp] theorem State.aborted_inputs (s : State) (own : OwnFrame) (other : Bool) (d : Fin 6) :
    ((s.aborted own other).ch d).kind = (s.ch d).kind ∧ ((s.aborted own other).ch d).ma = (s.ch d).ma ∧
    ((s.aborted own other).ch d).mb = (s.ch d).mb ∧ ((s.aborted own other).ch d).mc = (s.ch d).mc ∧
    ((s.aborted own other).ch d).clock = (s.ch d).clock := by
  and_intros <;> unfold State.aborted <;> (try dsimp only) <;> (repeat' split) <;> simp

@[simp] theorem State.granted_inputs (s : State) (o : OwnClaim) (d : Fin 6) :
    ((s.granted o).ch d).kind = (s.ch d).kind ∧ ((s.granted o).ch d).ma = (s.ch d).ma ∧
    ((s.granted o).ch d).mb = (s.ch d).mb ∧ ((s.granted o).ch d).mc = (s.ch d).mc ∧
    ((s.granted o).ch d).clock = (s.ch d).clock := by
  and_intros <;> unfold State.granted <;> (try dsimp only) <;> (repeat' split) <;> simp

@[simp] theorem State.updateOwn_inputs (s : State) (items : List ClaimItem) (d : Fin 6) :
    ((s.updateOwn items).ch d).kind = (s.ch d).kind ∧ ((s.updateOwn items).ch d).ma = (s.ch d).ma ∧
    ((s.updateOwn items).ch d).mb = (s.ch d).mb ∧ ((s.updateOwn items).ch d).mc = (s.ch d).mc ∧
    ((s.updateOwn items).ch d).clock = (s.ch d).clock := by
  and_intros <;> unfold State.updateOwn <;> (try dsimp only) <;> (repeat' split) <;> simp

@[simp] theorem State.captureRead_inputs (s : State) (c : Fin 6) (d : Fin 6) :
    ((s.captureRead c).ch d).kind = (s.ch d).kind ∧ ((s.captureRead c).ch d).ma = (s.ch d).ma ∧
    ((s.captureRead c).ch d).mb = (s.ch d).mb ∧ ((s.captureRead c).ch d).mc = (s.ch d).mc ∧
    ((s.captureRead c).ch d).clock = (s.ch d).clock := by
  and_intros <;> unfold State.captureRead <;> (try dsimp only) <;> (repeat' split) <;> simp

@[simp] theorem State.ownEntry_inputs (s : State) (round : Word16) (e : EntryItem) (d : Fin 6) :
    ((s.ownEntry round e).ch d).kind = (s.ch d).kind ∧ ((s.ownEntry round e).ch d).ma = (s.ch d).ma ∧
    ((s.ownEntry round e).ch d).mb = (s.ch d).mb ∧ ((s.ownEntry round e).ch d).mc = (s.ch d).mc ∧
    ((s.ownEntry round e).ch d).clock = (s.ch d).clock := by
  and_intros <;> unfold State.ownEntry <;> (try dsimp only) <;> (repeat' split) <;> simp

@[simp] theorem State.ownEntries_inputs (s : State) (f : TurnFrame) (d : Fin 6) :
    ((s.ownEntries f).ch d).kind = (s.ch d).kind ∧ ((s.ownEntries f).ch d).ma = (s.ch d).ma ∧
    ((s.ownEntries f).ch d).mb = (s.ch d).mb ∧ ((s.ownEntries f).ch d).mc = (s.ch d).mc ∧
    ((s.ownEntries f).ch d).clock = (s.ch d).clock := by
  and_intros <;> unfold State.ownEntries <;> (try dsimp only) <;> (repeat' split) <;> simp

@[simp] theorem State.duplicate_inputs (s : State) (d : Fin 6) :
    ((s.duplicate).ch d).kind = (s.ch d).kind ∧ ((s.duplicate).ch d).ma = (s.ch d).ma ∧
    ((s.duplicate).ch d).mb = (s.ch d).mb ∧ ((s.duplicate).ch d).mc = (s.ch d).mc ∧
    ((s.duplicate).ch d).clock = (s.ch d).clock := by
  and_intros <;> unfold State.duplicate <;> (try dsimp only) <;> (repeat' split) <;> simp

@[simp] theorem State.hearRound_inputs (s : State) (f : TurnFrame) (late : Bool) (d : Fin 6) :
    ((s.hearRound f late).ch d).kind = (s.ch d).kind ∧ ((s.hearRound f late).ch d).ma = (s.ch d).ma ∧
    ((s.hearRound f late).ch d).mb = (s.ch d).mb ∧ ((s.hearRound f late).ch d).mc = (s.ch d).mc ∧
    ((s.hearRound f late).ch d).clock = (s.ch d).clock := by
  and_intros <;> unfold State.hearRound <;> (try dsimp only) <;> (repeat' split) <;> simp

@[simp] theorem State.hearJoin_inputs (s : State) (f : JoinFrame) (d : Fin 6) :
    ((s.hearJoin f).ch d).kind = (s.ch d).kind ∧ ((s.hearJoin f).ch d).ma = (s.ch d).ma ∧
    ((s.hearJoin f).ch d).mb = (s.ch d).mb ∧ ((s.hearJoin f).ch d).mc = (s.ch d).mc ∧
    ((s.hearJoin f).ch d).clock = (s.ch d).clock := by
  and_intros <;> unfold State.hearJoin <;> (try dsimp only) <;> (repeat' split) <;> simp

@[simp] theorem State.hearGarbled_inputs (s : State) (d : Fin 6) :
    ((s.hearGarbled).ch d).kind = (s.ch d).kind ∧ ((s.hearGarbled).ch d).ma = (s.ch d).ma ∧
    ((s.hearGarbled).ch d).mb = (s.ch d).mb ∧ ((s.hearGarbled).ch d).mc = (s.ch d).mc ∧
    ((s.hearGarbled).ch d).clock = (s.ch d).clock := by
  and_intros <;> unfold State.hearGarbled <;> (try dsimp only) <;> (repeat' split) <;> simp

@[simp] theorem sampledChannel_inputs (cal : ChannelCal) (raw : RawArrival) (h : Channel) :
    (sampledChannel cal raw h).kind = h.kind ∧ (sampledChannel cal raw h).clock = h.clock := by
  and_intros <;> unfold sampledChannel <;> (try dsimp only) <;> (repeat' split) <;> simp

@[simp] theorem State.sample_inputs (s : State) (c : Fin 6) (raw : RawArrival) (d : Fin 6) :
    ((s.sample c raw).ch d).kind = (s.ch d).kind ∧ ((s.sample c raw).ch d).clock = (s.ch d).clock := by
  and_intros <;> unfold State.sample <;> (try dsimp only) <;> (repeat' split) <;> simp

@[simp] theorem State.judgeInput_inputs (s : State) (c : Fin 6) (i : Input) (d : Fin 6) :
    ((s.judgeInput c i).ch d).kind = (s.ch d).kind ∧ ((s.judgeInput c i).ch d).ma = (s.ch d).ma ∧
    ((s.judgeInput c i).ch d).mb = (s.ch d).mb ∧ ((s.judgeInput c i).ch d).mc = (s.ch d).mc ∧
    ((s.judgeInput c i).ch d).clock = (s.ch d).clock := by
  and_intros <;> unfold State.judgeInput <;> (try dsimp only) <;> (repeat' split) <;> simp

@[simp] theorem State.judgeInputs_inputs (s : State) (c : Fin 6) (d : Fin 6) :
    ((s.judgeInputs c).ch d).kind = (s.ch d).kind ∧ ((s.judgeInputs c).ch d).ma = (s.ch d).ma ∧
    ((s.judgeInputs c).ch d).mb = (s.ch d).mb ∧ ((s.judgeInputs c).ch d).mc = (s.ch d).mc ∧
    ((s.judgeInputs c).ch d).clock = (s.ch d).clock := by
  and_intros <;> unfold State.judgeInputs <;> (try dsimp only) <;> (repeat' split) <;> simp

@[simp] theorem takeRampStart_inputs (h : Channel) :
    (takeRampStart h).kind = h.kind ∧ (takeRampStart h).ma = h.ma ∧ (takeRampStart h).mb = h.mb ∧
    (takeRampStart h).mc = h.mc ∧ (takeRampStart h).clock = h.clock := by
  and_intros <;> unfold takeRampStart <;> split <;> rfl

@[simp] theorem setpointAtArrival_inputs (h : Channel) :
    (setpointAtArrival h).kind = h.kind ∧ (setpointAtArrival h).ma = h.ma ∧ (setpointAtArrival h).mb = h.mb ∧
    (setpointAtArrival h).mc = h.mc ∧ (setpointAtArrival h).clock = h.clock := by
  and_intros <;> unfold setpointAtArrival <;> (try dsimp only) <;> (repeat' split) <;> simp

@[simp] theorem State.accumulate_inputs (s : State) (c : Fin 6) (d : Fin 6) :
    ((s.accumulate c).ch d).kind = (s.ch d).kind ∧ ((s.accumulate c).ch d).ma = (s.ch d).ma ∧
    ((s.accumulate c).ch d).mb = (s.ch d).mb ∧ ((s.accumulate c).ch d).mc = (s.ch d).mc ∧
    ((s.accumulate c).ch d).clock = (s.ch d).clock := by
  and_intros <;> unfold State.accumulate <;> (try dsimp only) <;> (repeat' split) <;> simp

@[simp] theorem State.captureLevel_inputs (s : State) (c : Fin 6) (run : SteadyRun) (d : Fin 6) :
    ((s.captureLevel c run).ch d).kind = (s.ch d).kind ∧ ((s.captureLevel c run).ch d).ma = (s.ch d).ma ∧
    ((s.captureLevel c run).ch d).mb = (s.ch d).mb ∧ ((s.captureLevel c run).ch d).mc = (s.ch d).mc ∧
    ((s.captureLevel c run).ch d).clock = (s.ch d).clock := by
  and_intros <;> unfold State.captureLevel <;> (try dsimp only) <;> (repeat' split) <;> simp

@[simp] theorem State.judgeLevel_inputs (s : State) (c : Fin 6) (level : Option Int) (d : Fin 6) :
    ((s.judgeLevel c level).ch d).kind = (s.ch d).kind ∧ ((s.judgeLevel c level).ch d).ma = (s.ch d).ma ∧
    ((s.judgeLevel c level).ch d).mb = (s.ch d).mb ∧ ((s.judgeLevel c level).ch d).mc = (s.ch d).mc ∧
    ((s.judgeLevel c level).ch d).clock = (s.ch d).clock := by
  and_intros <;> unfold State.judgeLevel <;> (try dsimp only) <;> (repeat' split) <;> simp

@[simp] theorem State.fillEnd_inputs (s : State) (c : Fin 6) (r : PhaseRecord) (d : Fin 6) :
    ((s.fillEnd c r).ch d).kind = (s.ch d).kind ∧ ((s.fillEnd c r).ch d).ma = (s.ch d).ma ∧
    ((s.fillEnd c r).ch d).mb = (s.ch d).mb ∧ ((s.fillEnd c r).ch d).mc = (s.ch d).mc ∧
    ((s.fillEnd c r).ch d).clock = (s.ch d).clock := by
  and_intros <;> unfold State.fillEnd <;> (try dsimp only) <;> (repeat' split) <;> simp

@[simp] theorem State.drainEnd_inputs (s : State) (c : Fin 6) (d : Fin 6) :
    ((s.drainEnd c).ch d).kind = (s.ch d).kind ∧ ((s.drainEnd c).ch d).ma = (s.ch d).ma ∧
    ((s.drainEnd c).ch d).mb = (s.ch d).mb ∧ ((s.drainEnd c).ch d).mc = (s.ch d).mc ∧
    ((s.drainEnd c).ch d).clock = (s.ch d).clock := by
  and_intros <;> unfold State.drainEnd <;> (try dsimp only) <;> (repeat' split) <;> simp

@[simp] theorem State.castEnd_inputs (s : State) (c : Fin 6) (d : Fin 6) :
    ((s.castEnd c).ch d).kind = (s.ch d).kind ∧ ((s.castEnd c).ch d).ma = (s.ch d).ma ∧
    ((s.castEnd c).ch d).mb = (s.ch d).mb ∧ ((s.castEnd c).ch d).mc = (s.ch d).mc ∧
    ((s.castEnd c).ch d).clock = (s.ch d).clock := by
  and_intros <;> unfold State.castEnd <;> (try dsimp only) <;> (repeat' split) <;> simp

@[simp] theorem State.fillShed_inputs (s : State) (c : Fin 6) (d : Fin 6) :
    ((s.fillShed c).ch d).kind = (s.ch d).kind ∧ ((s.fillShed c).ch d).ma = (s.ch d).ma ∧
    ((s.fillShed c).ch d).mb = (s.ch d).mb ∧ ((s.fillShed c).ch d).mc = (s.ch d).mc ∧
    ((s.fillShed c).ch d).clock = (s.ch d).clock := by
  and_intros <;> unfold State.fillShed <;> (try dsimp only) <;> (repeat' split) <;> simp

@[simp] theorem State.steepRunning_inputs (s : State) (c : Fin 6) (r : PhaseRecord) (d : Fin 6) :
    ((s.steepRunning c r).ch d).kind = (s.ch d).kind ∧ ((s.steepRunning c r).ch d).ma = (s.ch d).ma ∧
    ((s.steepRunning c r).ch d).mb = (s.ch d).mb ∧ ((s.steepRunning c r).ch d).mc = (s.ch d).mc ∧
    ((s.steepRunning c r).ch d).clock = (s.ch d).clock := by
  and_intros <;> unfold State.steepRunning <;> (try dsimp only) <;> (repeat' split) <;> simp

@[simp] theorem State.steepArrival_inputs (s : State) (c : Fin 6) (d : Fin 6) :
    ((s.steepArrival c).ch d).kind = (s.ch d).kind ∧ ((s.steepArrival c).ch d).ma = (s.ch d).ma ∧
    ((s.steepArrival c).ch d).mb = (s.ch d).mb ∧ ((s.steepArrival c).ch d).mc = (s.ch d).mc ∧
    ((s.steepArrival c).ch d).clock = (s.ch d).clock := by
  and_intros <;> unfold State.steepArrival <;> (try dsimp only) <;> (repeat' split) <;> simp

@[simp] theorem State.askTopUp_inputs (s : State) (c : Fin 6) (d : Fin 6) :
    ((s.askTopUp c).ch d).kind = (s.ch d).kind ∧ ((s.askTopUp c).ch d).ma = (s.ch d).ma ∧
    ((s.askTopUp c).ch d).mb = (s.ch d).mb ∧ ((s.askTopUp c).ch d).mc = (s.ch d).mc ∧
    ((s.askTopUp c).ch d).clock = (s.ch d).clock := by
  and_intros <;> unfold State.askTopUp <;> (try dsimp only) <;> (repeat' split) <;> simp

@[simp] theorem State.judgeLimited_inputs (s : State) (c : Fin 6) (d : Fin 6) :
    ((s.judgeLimited c).ch d).kind = (s.ch d).kind ∧ ((s.judgeLimited c).ch d).ma = (s.ch d).ma ∧
    ((s.judgeLimited c).ch d).mb = (s.ch d).mb ∧ ((s.judgeLimited c).ch d).mc = (s.ch d).mc ∧
    ((s.judgeLimited c).ch d).clock = (s.ch d).clock := by
  and_intros <;> unfold State.judgeLimited <;> (try dsimp only) <;> (repeat' split) <;> simp

@[simp] theorem State.fanLaw_inputs (s : State) (c : Fin 6) (r : PhaseRecord) (d : Fin 6) :
    ((s.fanLaw c r).ch d).kind = (s.ch d).kind ∧ ((s.fanLaw c r).ch d).ma = (s.ch d).ma ∧
    ((s.fanLaw c r).ch d).mb = (s.ch d).mb ∧ ((s.fanLaw c r).ch d).mc = (s.ch d).mc ∧
    ((s.fanLaw c r).ch d).clock = (s.ch d).clock := by
  and_intros <;> unfold State.fanLaw <;> (try dsimp only) <;> (repeat' split) <;> simp

@[simp] theorem State.boxArrival_inputs (s : State) (c : Fin 6) (d : Fin 6) :
    ((s.boxArrival c).ch d).kind = (s.ch d).kind ∧ ((s.boxArrival c).ch d).ma = (s.ch d).ma ∧
    ((s.boxArrival c).ch d).mb = (s.ch d).mb ∧ ((s.boxArrival c).ch d).mc = (s.ch d).mc ∧
    ((s.boxArrival c).ch d).clock = (s.ch d).clock := by
  and_intros <;> unfold State.boxArrival <;> (try dsimp only) <;> (repeat' split) <;> simp

@[simp] theorem State.fire_inputs (s : State) (c : Fin 6) (r : PhaseRecord) (d : Fin 6) :
    ((s.fire c r).ch d).kind = (s.ch d).kind ∧ ((s.fire c r).ch d).ma = (s.ch d).ma ∧
    ((s.fire c r).ch d).mb = (s.ch d).mb ∧ ((s.fire c r).ch d).mc = (s.ch d).mc ∧
    ((s.fire c r).ch d).clock = (s.ch d).clock := by
  and_intros <;> unfold State.fire <;> (try dsimp only) <;> (repeat' split) <;> simp

@[simp] theorem State.burnerLaw_inputs (s : State) (c : Fin 6) (r : PhaseRecord) (d : Fin 6) :
    ((s.burnerLaw c r).ch d).kind = (s.ch d).kind ∧ ((s.burnerLaw c r).ch d).ma = (s.ch d).ma ∧
    ((s.burnerLaw c r).ch d).mb = (s.ch d).mb ∧ ((s.burnerLaw c r).ch d).mc = (s.ch d).mc ∧
    ((s.burnerLaw c r).ch d).clock = (s.ch d).clock := by
  and_intros <;> unfold State.burnerLaw <;> (try dsimp only) <;> (repeat' split) <;> simp

@[simp] theorem State.burnerArrival_inputs (s : State) (c : Fin 6) (d : Fin 6) :
    ((s.burnerArrival c).ch d).kind = (s.ch d).kind ∧ ((s.burnerArrival c).ch d).ma = (s.ch d).ma ∧
    ((s.burnerArrival c).ch d).mb = (s.ch d).mb ∧ ((s.burnerArrival c).ch d).mc = (s.ch d).mc ∧
    ((s.burnerArrival c).ch d).clock = (s.ch d).clock := by
  and_intros <;> unfold State.burnerArrival <;> (try dsimp only) <;> (repeat' split) <;> simp

@[simp] theorem State.judgeBreak_inputs (s : State) (c : Fin 6) (r : PhaseRecord) (d : Fin 6) :
    ((s.judgeBreak c r).ch d).kind = (s.ch d).kind ∧ ((s.judgeBreak c r).ch d).ma = (s.ch d).ma ∧
    ((s.judgeBreak c r).ch d).mb = (s.ch d).mb ∧ ((s.judgeBreak c r).ch d).mc = (s.ch d).mc ∧
    ((s.judgeBreak c r).ch d).clock = (s.ch d).clock := by
  and_intros <;> unfold State.judgeBreak <;> (try dsimp only) <;> (repeat' split) <;> simp

@[simp] theorem State.makeMoisture_inputs (s : State) (c : Fin 6) (values : List Int) (d : Fin 6) :
    ((s.makeMoisture c values).ch d).kind = (s.ch d).kind ∧ ((s.makeMoisture c values).ch d).ma = (s.ch d).ma ∧
    ((s.makeMoisture c values).ch d).mb = (s.ch d).mb ∧ ((s.makeMoisture c values).ch d).mc = (s.ch d).mc ∧
    ((s.makeMoisture c values).ch d).clock = (s.ch d).clock := by
  and_intros <;> unfold State.makeMoisture <;> (try dsimp only) <;> (repeat' split) <;> simp

@[simp] theorem State.addReading_inputs (s : State) (c : Fin 6) (v : Int) (d : Fin 6) :
    ((s.addReading c v).ch d).kind = (s.ch d).kind ∧ ((s.addReading c v).ch d).ma = (s.ch d).ma ∧
    ((s.addReading c v).ch d).mb = (s.ch d).mb ∧ ((s.addReading c v).ch d).mc = (s.ch d).mc ∧
    ((s.addReading c v).ch d).clock = (s.ch d).clock := by
  and_intros <;> unfold State.addReading <;> (try dsimp only) <;> (repeat' split) <;> simp

@[simp] theorem State.readMoisture_inputs (s : State) (c : Fin 6) (d : Fin 6) :
    ((s.readMoisture c).ch d).kind = (s.ch d).kind ∧ ((s.readMoisture c).ch d).ma = (s.ch d).ma ∧
    ((s.readMoisture c).ch d).mb = (s.ch d).mb ∧ ((s.readMoisture c).ch d).mc = (s.ch d).mc ∧
    ((s.readMoisture c).ch d).clock = (s.ch d).clock := by
  and_intros <;> unfold State.readMoisture <;> (try dsimp only) <;> (repeat' split) <;> simp

@[simp] theorem State.kilnArrival_inputs (s : State) (c : Fin 6) (d : Fin 6) :
    ((s.kilnArrival c).ch d).kind = (s.ch d).kind ∧ ((s.kilnArrival c).ch d).ma = (s.ch d).ma ∧
    ((s.kilnArrival c).ch d).mb = (s.ch d).mb ∧ ((s.kilnArrival c).ch d).mc = (s.ch d).mc ∧
    ((s.kilnArrival c).ch d).clock = (s.ch d).clock := by
  and_intros <;> unfold State.kilnArrival <;> (try dsimp only) <;> (repeat' split) <;> simp

@[simp] theorem State.judgeOverload_inputs (s : State) (active : Bool) (d : Fin 6) :
    ((s.judgeOverload active).ch d).kind = (s.ch d).kind ∧ ((s.judgeOverload active).ch d).ma = (s.ch d).ma ∧
    ((s.judgeOverload active).ch d).mb = (s.ch d).mb ∧ ((s.judgeOverload active).ch d).mc = (s.ch d).mc ∧
    ((s.judgeOverload active).ch d).clock = (s.ch d).clock := by
  and_intros <;> unfold State.judgeOverload <;> (try dsimp only) <;> (repeat' split) <;> simp

@[simp] theorem State.kindArrival_inputs (s : State) (c : Fin 6) (raw : RawArrival) (d : Fin 6) :
    ((s.kindArrival c raw).ch d).kind = (s.ch d).kind ∧ ((s.kindArrival c raw).ch d).ma = (s.ch d).ma ∧
    ((s.kindArrival c raw).ch d).mb = (s.ch d).mb ∧ ((s.kindArrival c raw).ch d).mc = (s.ch d).mc ∧
    ((s.kindArrival c raw).ch d).clock = (s.ch d).clock := by
  and_intros <;> unfold State.kindArrival <;> (try dsimp only) <;> (repeat' split) <;> simp

@[simp] theorem State.arrival_inputs (s : State) (c : Fin 6) (raw : RawArrival) (d : Fin 6) :
    ((s.arrival c raw).ch d).kind = (s.ch d).kind := by
  and_intros <;> unfold State.arrival <;> (try dsimp only) <;> (repeat' split) <;> simp

@[simp] theorem State.askRestart_inputs (s : State) (c : Fin 6) (d : Fin 6) :
    ((s.askRestart c).ch d).kind = (s.ch d).kind ∧ ((s.askRestart c).ch d).ma = (s.ch d).ma ∧
    ((s.askRestart c).ch d).mb = (s.ch d).mb ∧ ((s.askRestart c).ch d).mc = (s.ch d).mc ∧
    ((s.askRestart c).ch d).clock = (s.ch d).clock := by
  and_intros <;> unfold State.askRestart <;> (try dsimp only) <;> (repeat' split) <;> simp

@[simp] theorem State.pauseRestart_inputs (s : State) (c : Fin 6) (resume : Resume) (d : Fin 6) :
    ((s.pauseRestart c resume).ch d).kind = (s.ch d).kind ∧ ((s.pauseRestart c resume).ch d).ma = (s.ch d).ma ∧
    ((s.pauseRestart c resume).ch d).mb = (s.ch d).mb ∧ ((s.pauseRestart c resume).ch d).mc = (s.ch d).mc ∧
    ((s.pauseRestart c resume).ch d).clock = (s.ch d).clock := by
  and_intros <;> unfold State.pauseRestart <;> (try dsimp only) <;> (repeat' split) <;> simp

@[simp] theorem State.castRestart_inputs (s : State) (c : Fin 6) (d : Fin 6) :
    ((s.castRestart c).ch d).kind = (s.ch d).kind ∧ ((s.castRestart c).ch d).ma = (s.ch d).ma ∧
    ((s.castRestart c).ch d).mb = (s.ch d).mb ∧ ((s.castRestart c).ch d).mc = (s.ch d).mc ∧
    ((s.castRestart c).ch d).clock = (s.ch d).clock := by
  and_intros <;> unfold State.castRestart <;> (try dsimp only) <;> (repeat' split) <;> simp

@[simp] theorem State.dropList_inputs (s : State) (c : Fin 6) (d : Fin 6) :
    ((s.dropList c).ch d).kind = (s.ch d).kind ∧ ((s.dropList c).ch d).ma = (s.ch d).ma ∧
    ((s.dropList c).ch d).mb = (s.ch d).mb ∧ ((s.dropList c).ch d).mc = (s.ch d).mc ∧
    ((s.dropList c).ch d).clock = (s.ch d).clock := by
  and_intros <;> unfold State.dropList <;> (try dsimp only) <;> (repeat' split) <;> simp

@[simp] theorem State.decide_inputs (s : State) (c : Fin 6) (d : Fin 6) :
    ((s.decide c).ch d).kind = (s.ch d).kind ∧ ((s.decide c).ch d).ma = (s.ch d).ma ∧
    ((s.decide c).ch d).mb = (s.ch d).mb ∧ ((s.decide c).ch d).mc = (s.ch d).mc ∧
    ((s.decide c).ch d).clock = (s.ch d).clock := by
  and_intros <;> unfold State.decide <;> (try dsimp only) <;> (repeat' split) <;> simp

@[simp] theorem startClock_inputs (h : Channel) :
    (startClock h).kind = h.kind ∧ (startClock h).ma = h.ma ∧ (startClock h).mb = h.mb ∧
    (startClock h).mc = h.mc := by
  and_intros <;> unfold startClock <;> (try dsimp only) <;> (repeat' split) <;> simp

@[simp] theorem State.crystalIsLost_inputs (s : State) (d : Fin 6) :
    ((s.crystalIsLost).ch d).kind = (s.ch d).kind ∧ ((s.crystalIsLost).ch d).ma = (s.ch d).ma ∧
    ((s.crystalIsLost).ch d).mb = (s.ch d).mb ∧ ((s.crystalIsLost).ch d).mc = (s.ch d).mc ∧
    ((s.crystalIsLost).ch d).clock = (s.ch d).clock := by
  and_intros <;> unfold State.crystalIsLost <;> (try dsimp only) <;> (repeat' split) <;> simp

@[simp] theorem State.opens_inputs (s : State) (d : Fin 6) :
    ((s.opens).ch d).kind = (s.ch d).kind ∧ ((s.opens).ch d).ma = (s.ch d).ma ∧
    ((s.opens).ch d).mb = (s.ch d).mb ∧ ((s.opens).ch d).mc = (s.ch d).mc ∧
    ((s.opens).ch d).clock = (s.ch d).clock := by
  and_intros <;> unfold State.opens <;> (try dsimp only) <;> (repeat' split) <;> simp

@[simp] theorem State.windowBySilence_inputs (s : State) (d : Fin 6) :
    ((s.windowBySilence).ch d).kind = (s.ch d).kind ∧ ((s.windowBySilence).ch d).ma = (s.ch d).ma ∧
    ((s.windowBySilence).ch d).mb = (s.ch d).mb ∧ ((s.windowBySilence).ch d).mc = (s.ch d).mc ∧
    ((s.windowBySilence).ch d).clock = (s.ch d).clock := by
  and_intros <;> unfold State.windowBySilence <;> (try dsimp only) <;> (repeat' split) <;> simp

@[simp] theorem setInput_inputs (h : Channel) (i : Input) (x : InputState) :
    (setInput h i x).kind = h.kind ∧ (setInput h i x).clock = h.clock := by
  and_intros <;> unfold setInput <;> (try dsimp only) <;> (repeat' split) <;> simp

@[simp] theorem State.timerAt_inputs (s : State) (c : Fin 6) (t : Nat) (d : Fin 6) :
    ((s.timerAt c t).ch d).kind = (s.ch d).kind ∧ ((s.timerAt c t).ch d).ma = (s.ch d).ma ∧
    ((s.timerAt c t).ch d).mb = (s.ch d).mb ∧ ((s.timerAt c t).ch d).mc = (s.ch d).mc ∧
    ((s.timerAt c t).ch d).clock = (s.ch d).clock := by
  and_intros <;> unfold State.timerAt <;> (try dsimp only) <;> (repeat' split) <;> simp

@[simp] theorem durationFlags_inputs (h : Channel) (r : PhaseRecord) :
    (durationFlags h r).kind = h.kind ∧ (durationFlags h r).ma = h.ma ∧ (durationFlags h r).mb = h.mb ∧
    (durationFlags h r).mc = h.mc ∧ (durationFlags h r).clock = h.clock := by
  and_intros <;> unfold durationFlags <;> (try dsimp only) <;> (repeat' split) <;> simp

@[simp] theorem State.durationDone_inputs (s : State) (c : Fin 6) (r : PhaseRecord) (d : Fin 6) :
    ((s.durationDone c r).ch d).kind = (s.ch d).kind ∧ ((s.durationDone c r).ch d).ma = (s.ch d).ma ∧
    ((s.durationDone c r).ch d).mb = (s.ch d).mb ∧ ((s.durationDone c r).ch d).mc = (s.ch d).mc ∧
    ((s.durationDone c r).ch d).clock = (s.ch d).clock := by
  and_intros <;> unfold State.durationDone <;> (try dsimp only) <;> (repeat' split) <;> simp

@[simp] theorem State.durationReached_inputs (s : State) (c : Fin 6) (d : Fin 6) :
    ((s.durationReached c).ch d).kind = (s.ch d).kind ∧ ((s.durationReached c).ch d).ma = (s.ch d).ma ∧
    ((s.durationReached c).ch d).mb = (s.ch d).mb ∧ ((s.durationReached c).ch d).mc = (s.ch d).mc ∧
    ((s.durationReached c).ch d).clock = (s.ch d).clock := by
  and_intros <;> unfold State.durationReached <;> (try dsimp only) <;> (repeat' split) <;> simp

@[simp] theorem beginBlend_inputs (h : Channel) (t : Nat) :
    (beginBlend h t).kind = h.kind ∧ (beginBlend h t).ma = h.ma ∧ (beginBlend h t).mb = h.mb ∧
    (beginBlend h t).mc = h.mc ∧ (beginBlend h t).clock = h.clock := by
  and_intros <;> unfold beginBlend <;> (try dsimp only) <;> (repeat' split) <;> simp

@[simp] theorem State.blowerOnEdge_inputs (s : State) (c : Fin 6) (d : Fin 6) :
    ((s.blowerOnEdge c).ch d).kind = (s.ch d).kind ∧ ((s.blowerOnEdge c).ch d).ma = (s.ch d).ma ∧
    ((s.blowerOnEdge c).ch d).mb = (s.ch d).mb ∧ ((s.blowerOnEdge c).ch d).mc = (s.ch d).mc ∧
    ((s.blowerOnEdge c).ch d).clock = (s.ch d).clock := by
  and_intros <;> unfold State.blowerOnEdge <;> (try dsimp only) <;> (repeat' split) <;> simp

@[simp] theorem State.blowerOffEdge_inputs (s : State) (c : Fin 6) (d : Fin 6) :
    ((s.blowerOffEdge c).ch d).kind = (s.ch d).kind ∧ ((s.blowerOffEdge c).ch d).ma = (s.ch d).ma ∧
    ((s.blowerOffEdge c).ch d).mb = (s.ch d).mb ∧ ((s.blowerOffEdge c).ch d).mc = (s.ch d).mc ∧
    ((s.blowerOffEdge c).ch d).clock = (s.ch d).clock := by
  and_intros <;> unfold State.blowerOffEdge <;> (try dsimp only) <;> (repeat' split) <;> simp

@[simp] theorem State.restShed_inputs (s : State) (c : Fin 6) (d : Fin 6) :
    ((s.restShed c).ch d).kind = (s.ch d).kind ∧ ((s.restShed c).ch d).ma = (s.ch d).ma ∧
    ((s.restShed c).ch d).mb = (s.ch d).mb ∧ ((s.restShed c).ch d).mc = (s.ch d).mc ∧
    ((s.restShed c).ch d).clock = (s.ch d).clock := by
  and_intros <;> unfold State.restShed <;> (try dsimp only) <;> (repeat' split) <;> simp

@[simp] theorem State.airRestEdge_inputs (s : State) (c : Fin 6) (d : Fin 6) :
    ((s.airRestEdge c).ch d).kind = (s.ch d).kind ∧ ((s.airRestEdge c).ch d).ma = (s.ch d).ma ∧
    ((s.airRestEdge c).ch d).mb = (s.ch d).mb ∧ ((s.airRestEdge c).ch d).mc = (s.ch d).mc ∧
    ((s.airRestEdge c).ch d).clock = (s.ch d).clock := by
  and_intros <;> unfold State.airRestEdge <;> (try dsimp only) <;> (repeat' split) <;> simp

@[simp] theorem lateBlend_inputs (h : Channel) (r : PhaseRecord) :
    (lateBlend h r).kind = h.kind ∧ (lateBlend h r).ma = h.ma ∧ (lateBlend h r).mb = h.mb ∧
    (lateBlend h r).mc = h.mc ∧ (lateBlend h r).clock = h.clock := by
  and_intros <;> unfold lateBlend <;> (try dsimp only) <;> (repeat' split) <;> simp

@[simp] theorem placeRecord_inputs (h : Channel) (r : PhaseRecord) :
    (placeRecord h r).kind = h.kind ∧ (placeRecord h r).ma = h.ma ∧ (placeRecord h r).mb = h.mb ∧
    (placeRecord h r).mc = h.mc ∧ (placeRecord h r).clock = h.clock := by
  and_intros <;> unfold placeRecord <;> (try dsimp only) <;> (repeat' split) <;> simp

@[simp] theorem State.loadAt_inputs (r : PhaseRecord) (c : Fin 6) (s : State) (d : Fin 6) :
    ((State.loadAt r c s).ch d).kind = (s.ch d).kind ∧ ((State.loadAt r c s).ch d).ma = (s.ch d).ma ∧
    ((State.loadAt r c s).ch d).mb = (s.ch d).mb ∧ ((State.loadAt r c s).ch d).mc = (s.ch d).mc ∧
    ((State.loadAt r c s).ch d).clock = (s.ch d).clock := by
  and_intros <;> unfold State.loadAt <;> (try dsimp only) <;> (repeat' split) <;> simp

@[simp] theorem State.holdAt_inputs (c : Fin 6) (s : State) (d : Fin 6) :
    ((State.holdAt c s).ch d).kind = (s.ch d).kind ∧ ((State.holdAt c s).ch d).ma = (s.ch d).ma ∧
    ((State.holdAt c s).ch d).mb = (s.ch d).mb ∧ ((State.holdAt c s).ch d).mc = (s.ch d).mc ∧
    ((State.holdAt c s).ch d).clock = (s.ch d).clock := by
  and_intros <;> unfold State.holdAt <;> (try dsimp only) <;> (repeat' split) <;> simp

@[simp] theorem State.runAgain_inputs (s : State) (c : Fin 6) (d : Fin 6) :
    ((s.runAgain c).ch d).kind = (s.ch d).kind ∧ ((s.runAgain c).ch d).ma = (s.ch d).ma ∧
    ((s.runAgain c).ch d).mb = (s.ch d).mb ∧ ((s.runAgain c).ch d).mc = (s.ch d).mc ∧
    ((s.runAgain c).ch d).clock = (s.ch d).clock := by
  and_intros <;> unfold State.runAgain <;> (try dsimp only) <;> (repeat' split) <;> simp

@[simp] theorem State.resumeRunning_inputs (s : State) (c : Fin 6) (d : Fin 6) :
    ((s.resumeRunning c).ch d).kind = (s.ch d).kind ∧ ((s.resumeRunning c).ch d).ma = (s.ch d).ma ∧
    ((s.resumeRunning c).ch d).mb = (s.ch d).mb ∧ ((s.resumeRunning c).ch d).mc = (s.ch d).mc ∧
    ((s.resumeRunning c).ch d).clock = (s.ch d).clock := by
  and_intros <;> unfold State.resumeRunning <;> (try dsimp only) <;> (repeat' split) <;> simp

@[simp] theorem State.resumeStarved_inputs (s : State) (c : Fin 6) (orphan : Bool) (d : Fin 6) :
    ((s.resumeStarved c orphan).ch d).kind = (s.ch d).kind ∧
    ((s.resumeStarved c orphan).ch d).ma = (s.ch d).ma ∧ ((s.resumeStarved c orphan).ch d).mb = (s.ch d).mb ∧
    ((s.resumeStarved c orphan).ch d).mc = (s.ch d).mc ∧
    ((s.resumeStarved c orphan).ch d).clock = (s.ch d).clock := by
  and_intros <;> unfold State.resumeStarved <;> (try dsimp only) <;> (repeat' split) <;> simp

@[simp] theorem State.releaseCleared_inputs (s : State) (c : Fin 6) (d : Fin 6) :
    ((s.releaseCleared c).ch d).kind = (s.ch d).kind ∧ ((s.releaseCleared c).ch d).ma = (s.ch d).ma ∧
    ((s.releaseCleared c).ch d).mb = (s.ch d).mb ∧ ((s.releaseCleared c).ch d).mc = (s.ch d).mc ∧
    ((s.releaseCleared c).ch d).clock = (s.ch d).clock := by
  and_intros <;> unfold State.releaseCleared <;> (try dsimp only) <;> (repeat' split) <;> simp

@[simp] theorem State.offerAgain_inputs (s : State) (c : Fin 6) (d : Fin 6) :
    ((s.offerAgain c).ch d).kind = (s.ch d).kind ∧ ((s.offerAgain c).ch d).ma = (s.ch d).ma ∧
    ((s.offerAgain c).ch d).mb = (s.ch d).mb ∧ ((s.offerAgain c).ch d).mc = (s.ch d).mc ∧
    ((s.offerAgain c).ch d).clock = (s.ch d).clock := by
  and_intros <;> unfold State.offerAgain <;> (try dsimp only) <;> (repeat' split) <;> simp

@[simp] theorem State.releaseOffer_inputs (s : State) (c : Fin 6) (d : Fin 6) :
    ((s.releaseOffer c).ch d).kind = (s.ch d).kind ∧ ((s.releaseOffer c).ch d).ma = (s.ch d).ma ∧
    ((s.releaseOffer c).ch d).mb = (s.ch d).mb ∧ ((s.releaseOffer c).ch d).mc = (s.ch d).mc ∧
    ((s.releaseOffer c).ch d).clock = (s.ch d).clock := by
  and_intros <;> unfold State.releaseOffer <;> (try dsimp only) <;> (repeat' split) <;> simp

@[simp] theorem State.releaseRestart_inputs (s : State) (c : Fin 6) (d : Fin 6) :
    ((s.releaseRestart c).ch d).kind = (s.ch d).kind ∧ ((s.releaseRestart c).ch d).ma = (s.ch d).ma ∧
    ((s.releaseRestart c).ch d).mb = (s.ch d).mb ∧ ((s.releaseRestart c).ch d).mc = (s.ch d).mc ∧
    ((s.releaseRestart c).ch d).clock = (s.ch d).clock := by
  and_intros <;> unfold State.releaseRestart <;> (try dsimp only) <;> (repeat' split) <;> simp

@[simp] theorem State.releasePaused_inputs (s : State) (c : Fin 6) (d : Fin 6) :
    ((s.releasePaused c).ch d).kind = (s.ch d).kind ∧ ((s.releasePaused c).ch d).ma = (s.ch d).ma ∧
    ((s.releasePaused c).ch d).mb = (s.ch d).mb ∧ ((s.releasePaused c).ch d).mc = (s.ch d).mc ∧
    ((s.releasePaused c).ch d).clock = (s.ch d).clock := by
  and_intros <;> unfold State.releasePaused <;> (try dsimp only) <;> (repeat' split) <;> simp

@[simp] theorem State.releaseAt_inputs (c : Fin 6) (s : State) (d : Fin 6) :
    ((State.releaseAt c s).ch d).kind = (s.ch d).kind ∧ ((State.releaseAt c s).ch d).ma = (s.ch d).ma ∧
    ((State.releaseAt c s).ch d).mb = (s.ch d).mb ∧ ((State.releaseAt c s).ch d).mc = (s.ch d).mc ∧
    ((State.releaseAt c s).ch d).clock = (s.ch d).clock := by
  and_intros <;> unfold State.releaseAt <;> (try dsimp only) <;> (repeat' split) <;> simp

@[simp] theorem clearedChannel_inputs (h : Channel) :
    (clearedChannel h).kind = h.kind ∧ (clearedChannel h).ma = h.ma ∧ (clearedChannel h).mb = h.mb ∧
    (clearedChannel h).mc = h.mc ∧ (clearedChannel h).clock = h.clock := by
  and_intros <;> unfold clearedChannel <;> (try dsimp only) <;> (repeat' split) <;> simp

@[simp] theorem State.clearTransfer_inputs (s : State) (c : Fin 6) (d : Fin 6) :
    ((s.clearTransfer c).ch d).kind = (s.ch d).kind ∧ ((s.clearTransfer c).ch d).ma = (s.ch d).ma ∧
    ((s.clearTransfer c).ch d).mb = (s.ch d).mb ∧ ((s.clearTransfer c).ch d).mc = (s.ch d).mc ∧
    ((s.clearTransfer c).ch d).clock = (s.ch d).clock := by
  and_intros <;> unfold State.clearTransfer <;> (try dsimp only) <;> (repeat' split) <;> simp

@[simp] theorem State.clearHaltAt_inputs (c : Fin 6) (s : State) (d : Fin 6) :
    ((State.clearHaltAt c s).ch d).kind = (s.ch d).kind ∧ ((State.clearHaltAt c s).ch d).ma = (s.ch d).ma ∧
    ((State.clearHaltAt c s).ch d).mb = (s.ch d).mb ∧ ((State.clearHaltAt c s).ch d).mc = (s.ch d).mc ∧
    ((State.clearHaltAt c s).ch d).clock = (s.ch d).clock := by
  and_intros <;> unfold State.clearHaltAt <;> (try dsimp only) <;> (repeat' split) <;> simp

@[simp] theorem resetChannel_inputs (h : Channel) :
    (resetChannel h).kind = h.kind ∧ (resetChannel h).ma = h.ma ∧ (resetChannel h).mb = h.mb ∧
    (resetChannel h).mc = h.mc ∧ (resetChannel h).clock = h.clock := by
  and_intros <;> unfold resetChannel <;> (try dsimp only) <;> (repeat' split) <;> simp

@[simp] theorem State.channelResetAt_inputs (c : Fin 6) (s : State) (d : Fin 6) :
    ((State.channelResetAt c s).ch d).kind = (s.ch d).kind ∧
    ((State.channelResetAt c s).ch d).ma = (s.ch d).ma ∧ ((State.channelResetAt c s).ch d).mb = (s.ch d).mb ∧
    ((State.channelResetAt c s).ch d).mc = (s.ch d).mc ∧
    ((State.channelResetAt c s).ch d).clock = (s.ch d).clock := by
  and_intros <;> unfold State.channelResetAt <;> (try dsimp only) <;> (repeat' split) <;> simp

@[simp] theorem withdrawnChannel_inputs (h : Channel) :
    (withdrawnChannel h).kind = h.kind ∧ (withdrawnChannel h).ma = h.ma ∧ (withdrawnChannel h).mb = h.mb ∧
    (withdrawnChannel h).mc = h.mc ∧ (withdrawnChannel h).clock = h.clock := by
  and_intros <;> unfold withdrawnChannel <;> (try dsimp only) <;> (repeat' split) <;> simp

@[simp] theorem State.withdraw_inputs (s : State) (c : Fin 6) (d : Fin 6) :
    ((s.withdraw c).ch d).kind = (s.ch d).kind ∧ ((s.withdraw c).ch d).ma = (s.ch d).ma ∧
    ((s.withdraw c).ch d).mb = (s.ch d).mb ∧ ((s.withdraw c).ch d).mc = (s.ch d).mc ∧
    ((s.withdraw c).ch d).clock = (s.ch d).clock := by
  and_intros <;> unfold State.withdraw <;> (try dsimp only) <;> (repeat' split) <;> simp

@[simp] theorem State.withdrawAt_inputs (c : Fin 6) (s : State) (d : Fin 6) :
    ((State.withdrawAt c s).ch d).kind = (s.ch d).kind ∧ ((State.withdrawAt c s).ch d).ma = (s.ch d).ma ∧
    ((State.withdrawAt c s).ch d).mb = (s.ch d).mb ∧ ((State.withdrawAt c s).ch d).mc = (s.ch d).mc ∧
    ((State.withdrawAt c s).ch d).clock = (s.ch d).clock := by
  and_intros <;> unfold State.withdrawAt <;> (try dsimp only) <;> (repeat' split) <;> simp

@[simp] theorem State.discardAt_inputs (c : Fin 6) (s : State) (d : Fin 6) :
    ((State.discardAt c s).ch d).kind = (s.ch d).kind ∧ ((State.discardAt c s).ch d).ma = (s.ch d).ma ∧
    ((State.discardAt c s).ch d).mb = (s.ch d).mb ∧ ((State.discardAt c s).ch d).mc = (s.ch d).mc ∧
    ((State.discardAt c s).ch d).clock = (s.ch d).clock := by
  and_intros <;> unfold State.discardAt <;> (try dsimp only) <;> (repeat' split) <;> simp

@[simp] theorem State.takeBook_inputs (s : State) (sequence : Seq) (d : Fin 6) :
    ((s.takeBook sequence).ch d).kind = (s.ch d).kind ∧ ((s.takeBook sequence).ch d).ma = (s.ch d).ma ∧
    ((s.takeBook sequence).ch d).mb = (s.ch d).mb ∧ ((s.takeBook sequence).ch d).mc = (s.ch d).mc ∧
    ((s.takeBook sequence).ch d).clock = (s.ch d).clock := by
  and_intros <;> unfold State.takeBook <;> (try dsimp only) <;> (repeat' split) <;> simp

end Sys2Proof.Machine
end

