-- ==== Sys2Proof/Laws/Lists.lean ====
section
/-! SUPPORT. What the lists of the station do: the Own Claim List under an ask (R28, R29), the Gauge Book under an append
(R152, R156), a claim item under the fields that its judgment sets (R31, R46), the lists an own frame carries from (R3),
a restart list under a further reset (R189), a new serial (R79), the GAPs of a TAKE_BOOK (R157), a steady run (R84),
the fan law (R95), the channels under a tick (R53, R166). -/

namespace Sys2Proof.Machine

/-! ## The Own Claim List -/

theorem mem_of_insertOwn {o x : OwnClaim} {l : List OwnClaim} (h : x ∈ insertOwn o l) : x = o ∨ x ∈ l := by
  induction l with
  | nil => simpa [insertOwn] using h
  | cons a r ih =>
    unfold insertOwn at h
    split at h
    · simpa using h
    · split at h
      · simp only [List.mem_cons] at h ⊢; exact h.imp_right .inr
      · simp only [List.mem_cons] at h ⊢
        rcases h with h | h
        · exact .inr (.inl h)
        · exact (ih h).imp_right .inr

theorem mem_insertOwn_self (o : OwnClaim) (l : List OwnClaim) : o ∈ insertOwn o l := by
  induction l with
  | nil => simp [insertOwn]
  | cons a r ih =>
    unfold insertOwn
    split
    · simp
    · split
      · simp
      · exact List.mem_cons_of_mem _ ih

/-- In slots 0 to 2 the place in the list order names the identity. -/
theorem OwnClaim.key_inj {a b : OwnClaim} (ha : a.slot < 3) (hb : b.slot < 3) (h : a.key = b.key) :
    a.channel = b.channel ∧ a.slot = b.slot := by
  unfold OwnClaim.key at h
  exact ⟨Fin.ext (by omega), by omega⟩

/-- An ask keeps the list in order, without an identity twice, in slots 0 to 2. -/
theorem insertOwn_ordered {o : OwnClaim} {l : List OwnClaim} (ho : o.slot < 3)
    (h : l.Pairwise fun a b => a.key < b.key) (hs : ∀ a ∈ l, a.slot < 3) :
    (insertOwn o l).Pairwise (fun a b => a.key < b.key) ∧ ∀ a ∈ insertOwn o l, a.slot < 3 := by
  refine ⟨?_, fun a ha => (mem_of_insertOwn ha).elim (fun e => e ▸ ho) (hs a)⟩
  induction l with
  | nil => simp [insertOwn]
  | cons a r ih =>
    rw [List.pairwise_cons] at h
    unfold insertOwn
    split
    next hlt =>
      refine List.pairwise_cons.2 ⟨fun b hb => ?_, List.pairwise_cons.2 h⟩
      rcases List.mem_cons.1 hb with rfl | hb
      · exact hlt
      · exact hlt.trans (h.1 b hb)
    next hlt =>
      split
      next he =>
        have hk : o.key = a.key := by unfold OwnClaim.key; rw [he.1, he.2]
        exact List.pairwise_cons.2 ⟨fun b hb => hk ▸ h.1 b hb, h.2⟩
      next he =>
        refine List.pairwise_cons.2 ⟨fun b hb => ?_, ih h.2 fun b hb => hs b (List.mem_cons_of_mem _ hb)⟩
        rcases mem_of_insertOwn hb with rfl | hb
        · rcases Nat.lt_or_ge a.key b.key with hl | hl
          · exact hl
          · exact absurd (OwnClaim.key_inj ho (hs a (List.mem_cons_self ..)) (by omega)) he
        · exact h.1 b hb

/-! ## The Gauge Book -/

@[simp] theorem State.append_book (s : State) (item : EntryItem) (span : Nat) (round : Word16) (station : Nat) :
    (s.append item span round station).book = s.book.append item span round station := rfl

theorem Book.append_room {b : Book} (h : b.entries.length < 128) (item : EntryItem) (span : Nat) (round : Word16)
    (station : Nat) :
    b.append item span round station = { b with
      entries := b.entries ++ [⟨b.count, span, item, round, station⟩]
      count := b.count + BitVec.ofNat 24 span } := by
  unfold Book.append bookSize
  rw [if_pos h]

theorem Book.append_full {b : Book} (h : 128 ≤ b.entries.length) (item : EntryItem) (span : Nat) (round : Word16)
    (station : Nat) :
    b.append item span round station = { b with
      missed := (match b.missed with
        | none => some ⟨b.count, span⟩
        | some m => some { m with count := min 16777215 (m.count + span) })
      count := b.count + BitVec.ofNat 24 span } := by
  unfold Book.append bookSize
  refine (if_neg (Nat.not_lt.2 h)).trans ?_
  cases b.missed <;> rfl

theorem entriesFrom_nil (start : Seq) (round : Word16) (station : Nat) : entriesFrom start round station [] = [] := rfl

theorem entriesFrom_cons (start : Seq) (round : Word16) (station : Nat) (e : EntryItem) (l : List EntryItem) :
    entriesFrom start round station (e :: l)
      = ⟨start, 1, e, round, station⟩ :: entriesFrom (start + 1#24) round station l := by
  unfold entriesFrom
  rw [List.zipIdx_cons']
  simp only [List.map_cons, List.map_map, List.cons.injEq, Entry.mk.injEq, and_true]
  refine ⟨by simp, List.map_congr_left fun x _ => ?_⟩
  simp only [Function.comp_apply, Prod.map, Entry.mk.injEq, id_eq, and_true]
  rw [BitVec.add_assoc, ← BitVec.ofNat_add, Nat.add_comm]

/-- Entries appended one after the other, with room for all: each takes the next number (R152, R154). -/
theorem State.foldl_append_room (l : List EntryItem) (s : State) (round : Word16) (station : Nat)
    (h : s.book.entries.length + l.length ≤ 128) :
    (l.foldl (fun t e => t.append e 1 round station) s).book = { s.book with
      entries := s.book.entries ++ entriesFrom s.book.count round station l
      count := s.book.count + BitVec.ofNat 24 l.length } := by
  induction l generalizing s with
  | nil => simp [entriesFrom_nil]
  | cons e r ih =>
    simp only [List.length_cons] at h
    rw [List.foldl_cons, ih]
    · rw [State.append_book, Book.append_room (by omega), entriesFrom_cons]
      simp only [List.append_assoc, List.cons_append, List.nil_append, List.length_cons, Book.mk.injEq, and_true,
        true_and]
      rw [BitVec.add_assoc, ← BitVec.ofNat_add, Nat.add_comm]
    · rw [State.append_book, Book.append_room (by omega)]
      simp only [List.length_append, List.length_cons, List.length_nil]
      omega

/-! ## A claim item -/

/-- A take's lawfulness does not look at the item's HOLD and shed flag, nor at the flags of the entry it makes (R40). -/
theorem lawful_judged (cfg : Settings) (ok : Bool) (t : List ClaimEntry) (sender : Nat) (i : ClaimItem)
    (hold shed p q : Bool) :
    lawful cfg ok t (entryOf sender { i with hold := hold, shed := shed } .waiting p)
      = lawful cfg ok t (entryOf sender i .waiting q) := rfl

/-! ## The lists an own frame carries from -/

theorem fitItems_prefix (room : Nat) (l : List Item) : fitItems room l <+: l := by
  induction l generalizing room with
  | nil => exact List.prefix_rfl
  | cons i r ih =>
    unfold fitItems
    dsimp only
    split
    · exact (List.prefix_cons_inj i).2 (ih _)
    · exact List.nil_prefix

/-- Reading one kind of item off a list: what the frame has of a kind comes first in the list it is taken from. -/
theorem prefix_of_cons {α β : Type} {f : List α → List β} (h0 : f [] = [])
    (h : ∀ a r, f (a :: r) = f [a] ++ f r) {l m : List α} (hp : l <+: m) : f l <+: f m := by
  obtain ⟨r, rfl⟩ := hp
  induction l with
  | nil => rw [h0]; exact List.nil_prefix
  | cons a l ih =>
    rw [h a l, List.cons_append, h a (l ++ r)]
    exact (List.prefix_append_right_inj _).2 ih

theorem repliesOf_cons (a : Item) (r : List Item) : repliesOf (a :: r) = repliesOf [a] ++ repliesOf r := by
  cases a <;> rfl

theorem castendsOf_cons (a : Item) (r : List Item) : castendsOf (a :: r) = castendsOf [a] ++ castendsOf r := by
  cases a <;> rfl

theorem turnendsOf_cons (a : Item) (r : List Item) : turnendsOf (a :: r) = turnendsOf [a] ++ turnendsOf r := by
  cases a <;> rfl

/-- A reader of one kind of item splits over an append. -/
theorem append_of_cons {α β : Type} {f : List α → List β} (h0 : f [] = [])
    (h : ∀ a r, f (a :: r) = f [a] ++ f r) (l m : List α) : f (l ++ m) = f l ++ f m := by
  induction l with
  | nil => rw [h0]; rfl
  | cons a l ih => rw [List.cons_append, h a (l ++ m), ih, h a l, List.append_assoc]

/-- A reader finds nothing in a list made of items of another kind. -/
theorem map_of_other {α β γ : Type} {f : List α → List β} (h0 : f [] = [])
    (h : ∀ a r, f (a :: r) = f [a] ++ f r) {g : γ → α} (hg : ∀ x, f [g x] = []) (l : List γ) : f (l.map g) = [] := by
  induction l with
  | nil => exact h0
  | cons a l ih => rw [List.map_cons, h, ih, hg]; rfl

/-- A reader finds in a list made of items of its kind what they were made of. -/
theorem map_of_own {α β γ : Type} {f : List α → List β} (h0 : f [] = [])
    (h : ∀ a r, f (a :: r) = f [a] ++ f r) {g : γ → α} {k : γ → β} (hg : ∀ x, f [g x] = [k x]) (l : List γ) :
    f (l.map g) = l.map k := by
  induction l with
  | nil => exact h0
  | cons a l ih => rw [List.map_cons, h, ih, hg]; rfl

theorem State.repliesOf_bodyItems (s : State) : repliesOf s.bodyItems = s.replies.map (·.item) := by
  have other {γ : Type} {g : γ → Item} (hg : ∀ x, repliesOf [g x] = []) (l : List γ) : repliesOf (l.map g) = [] :=
    map_of_other rfl repliesOf_cons hg l
  unfold State.bodyItems
  simp only [append_of_cons rfl repliesOf_cons]
  rw [other fun _ => rfl,
    other fun _ => rfl, map_of_own rfl repliesOf_cons fun _ => rfl,
    other fun _ => rfl, other fun _ => rfl, other fun _ => rfl]
  simp only [List.nil_append, List.append_nil]

theorem State.castendsOf_bodyItems (s : State) : castendsOf s.bodyItems = s.castends.map (·.item) := by
  have other {γ : Type} {g : γ → Item} (hg : ∀ x, castendsOf [g x] = []) (l : List γ) : castendsOf (l.map g) = [] :=
    map_of_other rfl castendsOf_cons hg l
  unfold State.bodyItems
  simp only [append_of_cons rfl castendsOf_cons]
  rw [other fun _ => rfl, other fun _ => rfl,
    other fun _ => rfl, map_of_own rfl castendsOf_cons fun _ => rfl, other fun _ => rfl, other fun _ => rfl]
  simp only [List.nil_append, List.append_nil]

theorem State.turnendsOf_bodyItems (s : State) : turnendsOf s.bodyItems = s.turner.turnends.map (·.item) := by
  have other {γ : Type} {g : γ → Item} (hg : ∀ x, turnendsOf [g x] = []) (l : List γ) : turnendsOf (l.map g) = [] :=
    map_of_other rfl turnendsOf_cons hg l
  unfold State.bodyItems
  simp only [append_of_cons rfl turnendsOf_cons]
  rw [other fun _ => rfl, other fun _ => rfl, other fun _ => rfl,
    other fun _ => rfl, map_of_own rfl turnendsOf_cons fun _ => rfl, other fun _ => rfl]
  simp only [List.nil_append, List.append_nil]

/-- The items a frame carries are the first of their lists (R3, R111, R135, R137). -/
theorem State.buildTurn_prefix (s : State) (opening : Bool) (round : Word16) :
    (s.buildTurn opening round).replies <+: s.replies.map (·.item)
      ∧ (s.buildTurn opening round).castends <+: s.castends.map (·.item)
      ∧ (s.buildTurn opening round).turnends <+: s.turner.turnends.map (·.item) := by
  rw [← s.repliesOf_bodyItems, ← s.castendsOf_bodyItems, ← s.turnendsOf_bodyItems]
  have h := fitItems_prefix bodyRoom s.bodyItems
  exact ⟨prefix_of_cons rfl repliesOf_cons h, prefix_of_cons rfl castendsOf_cons h,
    prefix_of_cons rfl turnendsOf_cons h⟩

/-- Marking keeps the items. -/
@[simp] theorem markFirst_items {α : Type} (n : Nat) (l : List (Listed α)) :
    (markFirst n l).map (·.item) = l.map (·.item) := by
  induction l generalizing n with
  | nil => cases n <;> rfl
  | cons a r ih => cases n <;> simp [markFirst, ih]

/-- The items marked are the first. -/
theorem markFirst_carried {α : Type} (n : Nat) (l : List (Listed α)) :
    ((markFirst n l).filter (·.inFrame)).map (·.item) = (l.map (·.item)).take n := by
  induction l generalizing n with
  | nil => cases n <;> rfl
  | cons a r ih => cases n <;> simp [markFirst, ih]

/-- Marked by what a frame carries of a list, the list shows what the frame carries. -/
theorem markFirst_of_prefix {α : Type} {c : List α} {l : List (Listed α)} (h : c <+: l.map (·.item)) :
    ((markFirst c.length l).filter (·.inFrame)).map (·.item) = c := by
  rw [markFirst_carried, ← List.prefix_iff_eq_take.1 h]

/-! ## Restart lists -/

/-- A kept list is the one the channel has (R189). -/
theorem State.restartList_of_kept {s : State} {c : Fin 6} (h : s.keepsList c = true) :
    s.restartList c = (s.ch c).restart := if_pos h

/-- Where no list is kept, a vessel saves the claims it has (R189). -/
theorem State.restartList_of_new {s : State} {c : Fin 6} (h : s.keepsList c = false)
    (hv : isVessel (s.ch c).kind = true) : s.restartList c = some (s.savedClaims c) := by
  unfold State.restartList
  rw [h, if_neg (by decide), if_pos hv]

/-! ## Serials, GAPs and the values of an arrival -/

/-- The serial of a new piece: every one passed over has an identity that is held, and within the search the one taken
has a free identity (R79). -/
theorem State.freeSerial_spec (s : State) (fuel n : Nat) :
    ∃ k ≤ fuel, s.freeSerial fuel n = (n + k) % 2048
      ∧ (∀ j < k, s.pieceIds.contains (BitVec.ofNat 16 (s.cfg.address * 2048 + (n + j) % 2048)) = true)
      ∧ (k < fuel → s.pieceIds.contains (BitVec.ofNat 16 (s.cfg.address * 2048 + (n + k) % 2048)) = false) := by
  induction fuel generalizing n with
  | zero => exact ⟨0, le_refl _, rfl, by simp, by simp⟩
  | succ fuel ih =>
    unfold State.freeSerial
    split
    · next h =>
      obtain ⟨k, hk, he, hall, hfree⟩ := ih ((n + 1) % 2048)
      have shift : ∀ j, ((n + 1) % 2048 + j) % 2048 = (n + (j + 1)) % 2048 := fun j => by omega
      simp only [shift] at he hall hfree
      refine ⟨k + 1, by omega, he, fun j hj => ?_, fun hlt => hfree (by omega)⟩
      cases j with
      | zero => simpa using h
      | succ j => exact hall j (by omega)
    · next h => exact ⟨0, by omega, rfl, by simp, fun _ => by simpa using h⟩

/-- One GAP of a filling: the oldest 65535 numbers of the span at most, and the span goes on behind them (R157). -/
theorem fillGaps_room {b : Book} {m : Missed} (hm : b.missed = some m) (h : b.entries.length < 128) (round : Word16)
    (station n : Nat) :
    fillGaps round station (n + 1) b = fillGaps round station n
      { b with
        entries := b.entries ++ [⟨m.start, min m.count 65535, gapItem, round, station⟩]
        missed := if m.count ≤ 65535 then none else some ⟨m.start + BitVec.ofNat 24 65535, m.count - 65535⟩ } := by
  rw [fillGaps, hm]
  dsimp only
  rw [if_pos (show b.entries.length < bookSize from h)]
  by_cases hc : m.count ≤ 65535
  · rw [if_pos hc, min_eq_left hc, if_pos (Nat.sub_self _)]
  · rw [if_neg hc, min_eq_right (by omega), if_neg (by omega)]

/-- With no span, or with no place, a filling changes nothing (R157). -/
theorem fillGaps_still {b : Book} (h : b.missed = none ∨ 128 ≤ b.entries.length) (round : Word16) (station n : Nat) :
    fillGaps round station n b = b := by
  cases n with
  | zero => rfl
  | succ n =>
    unfold fillGaps
    rcases h with h | h
    · rw [h]
    · split
      · rfl
      · exact if_neg (by unfold bookSize; omega)

/-- A level that begins a steady run: the first, or one more than 5 mm from the run's first (R84). -/
theorem steadyNext_first {r : SteadyRun} {v : Int} (h : r.count = 0 ∨ 5 < (v - r.first).natAbs) :
    steadyNext r (some v) = { first := v, count := 1, sum := v } := by
  unfold steadyNext
  dsimp only
  by_cases h0 : r.count = 0
  · rw [if_pos h0]
  · rw [if_neg h0, if_neg (by omega)]

/-- A level within 5 mm of the run's first goes on with the run (R84). -/
theorem steadyNext_within {r : SteadyRun} {v : Int} (h0 : r.count ≠ 0) (h : (v - r.first).natAbs ≤ 5) :
    steadyNext r (some v) = { r with count := r.count + 1, sum := r.sum + v } := by
  unfold steadyNext
  dsimp only
  rw [if_neg h0, if_pos h]

/-- The fan law's per cent: the exact value's hundredth to the nearest, a half up, within 0 to 100 (R95). -/
theorem fanDemand_spec (base gain : Nat) (ma sp : Int) :
    (100 * (base : Int) + gain * (ma - sp) < 0 → fanDemand base gain ma sp = 0)
    ∧ (0 ≤ 100 * (base : Int) + gain * (ma - sp) → 100 * (base : Int) + gain * (ma - sp) ≤ 10000 →
        100 * (base : Int) + gain * (ma - sp) - 50 < 100 * (fanDemand base gain ma sp : Int)
          ∧ 100 * (fanDemand base gain ma sp : Int) ≤ 100 * (base : Int) + gain * (ma - sp) + 50)
    ∧ (10000 < 100 * (base : Int) + gain * (ma - sp) → fanDemand base gain ma sp = 100) := by
  unfold fanDemand clip roundUp
  generalize 100 * (base : Int) + gain * (ma - sp) = x
  refine ⟨fun h => ?_, fun h h' => ?_, fun h => ?_⟩ <;> split <;> (try split) <;> omega

/-! ## A tick -/

@[simp] theorem State.mapCh_ch (s : State) (f : Fin 6 → Channel → Channel) (c : Fin 6) :
    (s.mapCh f).ch c = f c (s.ch c) := by
  fin_cases c <;> rfl

/-- The channels under a tick: their times move where the station runs, else they stay. -/
theorem State.tick_ch (s : State) (c : Fin 6) :
    s.tick.ch c = if s.live = true then s.tickChannel c (s.ch c) else s.ch c := by
  unfold State.tick
  dsimp only
  split
  · show (State.mapCh _ _).ch c = _
    rw [State.mapCh_ch]
    congr 1
    split <;> split <;> rfl
  · split <;> split <;> rfl

end Sys2Proof.Machine
end

