-- ==== Sys2Proof/Laws/Tables.lean ====
section
/-! SUPPORT. The Claim Table's operations: the held sum over lists, the order, and that removal, items and postings keep
a safe table safe. -/

set_option linter.unusedSimpArgs false

namespace Sys2Proof.Machine

/-- `total` is the library's sum. -/
theorem total_eq_sum (l : List Nat) : total l = l.sum := by
  induction l with
  | nil => rfl
  | cons a r ih => simp [total, ih]

theorem heldSum_nil (r : Resource) : heldSum [] r = 0 := rfl

theorem heldSum_cons (a : ClaimEntry) (t : List ClaimEntry) (r : Resource) :
    heldSum (a :: t) r = (if a.holds r then a.amount else 0) + heldSum t r := by
  simp only [heldSum, List.filter_cons]
  split <;> simp [total]

theorem heldSum_append (a b : List ClaimEntry) (r : Resource) :
    heldSum (a ++ b) r = heldSum a r + heldSum b r := by
  induction a with
  | nil => simp [heldSum_nil]
  | cons x a ih => simp only [List.cons_append, heldSum_cons, ih]; omega

theorem heldSum_filter_le (p : ClaimEntry → Bool) (t : List ClaimEntry) (r : Resource) :
    heldSum (t.filter p) r ≤ heldSum t r := by
  induction t with
  | nil => simp
  | cons a t ih =>
    rw [List.filter_cons, heldSum_cons]
    split
    · rw [heldSum_cons]; omega
    · omega

theorem Ordered.filter {t : List ClaimEntry} (h : Ordered t) (p : ClaimEntry → Bool) : Ordered (t.filter p) :=
  List.Pairwise.filter p h

theorem Ordered.remove {t : List ClaimEntry} (h : Ordered t) (k : Nat) : Ordered (removeClaim k t) := h.filter _

theorem removeClaim_cons (a : ClaimEntry) (t : List ClaimEntry) (k : Nat) :
    removeClaim k (a :: t) = if a.key = k then removeClaim k t else a :: removeClaim k t := by
  simp only [removeClaim, List.filter_cons, bne_iff_ne, ne_eq, ite_not]

theorem removeClaim_of_lt {t : List ClaimEntry} {k : Nat} (h : ∀ e ∈ t, k < e.key) : removeClaim k t = t := by
  simp only [removeClaim]
  apply List.filter_eq_self.2
  intro e he
  have := h e he
  simp; omega

theorem entryAt_cons (a : ClaimEntry) (t : List ClaimEntry) (k : Nat) :
    entryAt (a :: t) k = if a.key = k then some a else entryAt t k := by
  simp only [entryAt, List.find?_cons]
  by_cases h : a.key = k
  · simp [h]
  · have : (a.key == k) = false := by simpa using h
    simp [this, h]

theorem heldSum_remove {t : List ClaimEntry} (h : Ordered t) (k : Nat) (r : Resource) :
    heldSum t r = heldSum (removeClaim k t) r
      + (match entryAt t k with | some e => if e.holds r then e.amount else 0 | none => 0) := by
  induction t with
  | nil => rfl
  | cons a t ih =>
    have ha := (List.pairwise_cons.1 h).1
    have ih := ih (List.pairwise_cons.1 h).2
    rw [removeClaim_cons, entryAt_cons, heldSum_cons]
    by_cases hk : a.key = k
    · subst hk
      rw [if_pos rfl, if_pos rfl, removeClaim_of_lt ha]; dsimp only; omega
    · rw [if_neg hk, if_neg hk, heldSum_cons]; omega

theorem insertClaim_mem {e x : ClaimEntry} {t : List ClaimEntry} (h : x ∈ insertClaim e t) : x = e ∨ x ∈ t := by
  induction t with
  | nil => simpa [insertClaim] using h
  | cons a t ih =>
    unfold insertClaim at h
    split at h
    · simpa using h
    · split at h
      · simp at h ⊢; tauto
      · simp at h ⊢; tauto

theorem Ordered.insert {t : List ClaimEntry} (h : Ordered t) (e : ClaimEntry) : Ordered (insertClaim e t) := by
  induction t with
  | nil => simp [insertClaim, Ordered]
  | cons a t ih =>
    have ha := (List.pairwise_cons.1 h).1
    have ih := ih (List.pairwise_cons.1 h).2
    unfold insertClaim
    split
    · next hlt =>
      apply List.pairwise_cons.2
      refine ⟨?_, h⟩
      intro x hx
      rcases List.mem_cons.1 hx with rfl | hx
      · exact hlt
      · have := ha x hx; omega
    · split
      · next heq =>
        apply List.pairwise_cons.2
        exact ⟨fun x hx => by have := ha x hx; omega, (List.pairwise_cons.1 h).2⟩
      · apply List.pairwise_cons.2
        refine ⟨?_, ih⟩
        intro x hx
        rcases insertClaim_mem hx with rfl | hx
        · omega
        · exact ha x hx

theorem heldSum_insert {t : List ClaimEntry} (h : Ordered t) (e : ClaimEntry) (r : Resource) :
    heldSum (insertClaim e t) r = heldSum (removeClaim e.key t) r + (if e.holds r then e.amount else 0) := by
  induction t with
  | nil => rw [insertClaim, heldSum_cons]; simp [removeClaim, heldSum_nil]
  | cons a t ih =>
    have ha := (List.pairwise_cons.1 h).1
    have ih := ih (List.pairwise_cons.1 h).2
    unfold insertClaim
    rw [removeClaim_cons]
    split
    · next hlt =>
      rw [if_neg (by omega), removeClaim_of_lt (fun x hx => by have := ha x hx; omega), heldSum_cons]; omega
    · split
      · next heq =>
        rw [if_pos heq.symm, removeClaim_of_lt (fun x hx => by have := ha x hx; omega), heldSum_cons]; omega
      · rw [if_neg (by omega), heldSum_cons, heldSum_cons, ih]; omega

theorem length_insert_some {t : List ClaimEntry} (e : ClaimEntry) (h : (entryAt t e.key).isSome) (ho : Ordered t) :
    (insertClaim e t).length = t.length := by
  induction t with
  | nil => simp [entryAt] at h
  | cons a t ih =>
    have ha := (List.pairwise_cons.1 ho).1
    rw [entryAt_cons] at h
    unfold insertClaim
    split
    · next hlt =>
      exfalso
      rw [if_neg (by omega)] at h
      obtain ⟨x, hx⟩ := Option.isSome_iff_exists.1 h
      have h1 := List.mem_of_find?_eq_some hx
      have h2 := List.find?_some hx
      have := ha x h1
      simp at h2; omega
    · split
      · simp
      · next hne => rw [if_neg (by omega)] at h; simp [ih h (List.pairwise_cons.1 ho).2]

theorem length_insert_le (e : ClaimEntry) (t : List ClaimEntry) : (insertClaim e t).length ≤ t.length + 1 := by
  induction t with
  | nil => simp [insertClaim]
  | cons a t ih => unfold insertClaim; split <;> [skip; split] <;> simp <;> omega

/-- The part of `ClaimsSafe` that is the table's own. -/
def TableSafe (cfg : Settings) (t : List ClaimEntry) : Prop :=
  Ordered t ∧ t.length ≤ claimRoom ∧ ∀ r, heldSum t r ≤ allowance cfg r

theorem TableSafe.filter {cfg t} (h : TableSafe cfg t) (p) : TableSafe cfg (t.filter p) :=
  ⟨h.1.filter p, le_trans (List.length_filter_le _ _) h.2.1, fun r => le_trans (heldSum_filter_le p t r) (h.2.2 r)⟩

theorem entryOf_key (sender : Nat) (i : ClaimItem) (st) (b) : (entryOf sender i st b).key = claimKey sender i.channel i.slot := rfl

/-- An entry put in the table keeps it safe where it finds room and its holding is paid for. -/
theorem table_of_item {cfg : Settings} {t : List ClaimEntry} {new : ClaimEntry} {old : Option ClaimEntry}
    (hts : TableSafe cfg t) (hat : entryAt t new.key = old) (hroom : ¬ (old.isNone = true ∧ claimRoom ≤ t.length))
    (hsum : new.state = .holding → heldSum (removeClaim new.key t) new.resource + new.amount ≤ allowance cfg new.resource) :
    TableSafe cfg (insertClaim new t) := by
  refine ⟨hts.1.insert _, ?_, ?_⟩
  · cases hold : old with
    | none =>
      have := length_insert_le new t
      simp [hold] at hroom
      omega
    | some e =>
      rw [length_insert_some _ (by rw [hat, hold]; rfl) hts.1]
      exact hts.2.1
  · intro r
    rw [heldSum_insert hts.1]
    by_cases hh : new.holds r = true
    · simp only [hh, if_true]
      simp only [ClaimEntry.holds, Bool.and_eq_true, beq_iff_eq] at hh
      have := hsum hh.1
      rw [hh.2] at this; exact this
    · simp only [hh]
      have := heldSum_filter_le (fun e => e.key != new.key) t r
      have := hts.2.2 r
      simp [removeClaim] at *
      omega

/-- An item keeps the table safe. -/
theorem applyItem_safe {cfg : Settings} {ok : Bool} {before : List ClaimEntry} {sender : Nat} {items : List ClaimItem} {a : Applied} {i : ClaimItem}
    (h : TableSafe cfg a.table) : TableSafe cfg (applyItem cfg ok before sender items a i).table := by
  have key : ∀ (t : List ClaimEntry) (old : Option ClaimEntry) (b : Bool), TableSafe cfg t →
      entryAt t (claimKey sender i.channel i.slot) = old → (∀ e, old = some e → e.resource = i.resource) →
      ¬ (old.isNone = true ∧ claimRoom ≤ t.length) →
      TableSafe cfg (insertClaim (entryOf sender i (itemState cfg ok before sender items t i old) b) t) := by
    intro t old b hts hat hres hroom
    refine table_of_item (old := old) hts hat hroom ?_
    intro hst
    rw [entryOf_key]
    simp only [entryOf] at hst ⊢
    unfold itemState at hst
    by_cases h1 : i.hold = true
    · simp only [h1] at hst
      by_cases htake : isTake before sender items i old = true
      · by_cases hl : lawful cfg ok t (entryOf sender i .waiting false) = true
        · simp only [lawful, Bool.and_eq_true, decide_eq_true_eq] at hl
          have := hl.1
          simp only [entryOf_key] at this
          simp only [entryOf] at this
          omega
        · simp [htake, hl] at hst
      · cases old with
        | none => simp [isTake] at htake
        | some e =>
          simp [isTake] at htake
          have hr := hres e rfl
          have hrem := heldSum_remove hts.1 (claimKey sender i.channel i.slot) i.resource
          have hle := hts.2.2 i.resource
          rw [hat] at hrem
          simp [ClaimEntry.holds, htake.1.1, hr] at hrem
          omega
    · simp [h1] at hst
  unfold applyItem
  dsimp only
  generalize hf : claimAt a.table sender i.channel i.slot = found
  have hf' : entryAt a.table (claimKey sender i.channel i.slot) = found := hf
  rcases found with _ | e
  · by_cases hroom : claimRoom ≤ a.table.length
    · simpa [hroom] using h
    · simp [hroom]
      exact key _ none _ h hf' (by simp) (by simp [hroom])
  · by_cases hoth : e.resource = i.resource
    · simp [hoth]
      exact key _ (some e) _ h hf' (by simp [hoth]) (by simp)
    · have hts : TableSafe cfg (removeClaim (claimKey sender i.channel i.slot) a.table) := h.filter _
      have hat : entryAt (removeClaim (claimKey sender i.channel i.slot) a.table) (claimKey sender i.channel i.slot) = none := by
        simp [entryAt, removeClaim, List.find?_filter]
      by_cases hroom : claimRoom ≤ (removeClaim (claimKey sender i.channel i.slot) a.table).length
      · simpa [hroom, hoth] using hts
      · simp [hroom, hoth]
        exact key _ none _ hts hat (by simp) (by simp [hroom])

theorem mem_of_entryAt {t : List ClaimEntry} {k e} (h : entryAt t k = some e) : e ∈ t ∧ e.key = k := by
  refine ⟨List.mem_of_find?_eq_some h, ?_⟩
  have := List.find?_some h
  simpa using this

theorem entryAt_of_mem {t : List ClaimEntry} (ho : Ordered t) {e} (h : e ∈ t) : entryAt t e.key = some e := by
  induction t with
  | nil => cases h
  | cons a t ih =>
    rw [entryAt_cons]
    have ha := (List.pairwise_cons.1 ho).1
    rcases List.mem_cons.1 h with rfl | h
    · simp
    · have := ha e h
      rw [if_neg (by omega)]; exact ih (List.pairwise_cons.1 ho).2 h

/-- The top-up that the removal step counts in an entry. -/
def topUpOf (before : List ClaimEntry) (sender : Nat) (items : List ClaimItem) (e : ClaimEntry) : Option ClaimEntry :=
  (items.find? fun i => itemKey sender i == e.key).bind (mergedTopUp before sender items)

theorem foldTopUp_eq (before sender items e) : foldTopUp before sender items e =
   match topUpOf before sender items e with | some t => { e with amount := e.amount + t.amount } | none => e := by
  unfold foldTopUp topUpOf
  cases items.find? fun i => itemKey sender i == e.key <;> rfl

/-- A counted top-up stands in the table, goes in the removal step, and determines its base. -/
theorem topUpOf_spec {t : List ClaimEntry} (ho : Ordered t) {sender items e b} (he : e ∈ t) (h : topUpOf t sender items e = some b) :
    b ∈ t ∧ keptBy sender items b = false ∧ (∀ r, e.holds r = b.holds r) ∧
    ((items.find? fun j => mergedKey sender j == some b.key).map (itemKey sender) = some e.key) := by
  unfold topUpOf at h
  cases hi : items.find? fun i => itemKey sender i == e.key with
  | none => simp [hi] at h
  | some i =>
    simp only [hi, Option.bind_some] at h
    have hk : itemKey sender i = e.key := by have := List.find?_some hi; simpa using this
    unfold mergedTopUp at h
    rw [hk] at h
    cases hm : mergedKey sender i with
    | none => simp [hm] at h
    | some k =>
      simp only [hm, entryAt_of_mem ho he] at h
      cases hb : entryAt t k with
      | none => simp [hb] at h
      | some x =>
        simp only [hb] at h
        split at h
        · next hc =>
          simp only [Option.some.injEq] at h
          subst h
          obtain ⟨hmem, hkey⟩ := mem_of_entryAt hb
          simp only [Bool.and_eq_true, beq_iff_eq, Bool.not_eq_true'] at hc
          obtain ⟨⟨⟨⟨h1, h2⟩, h3⟩, h4⟩, h5⟩ := hc
          refine ⟨hmem, ?_, ?_, ?_⟩
          · simp [keptBy, h3, hkey, h4]
          · intro r
            simp only [ClaimEntry.holds, Bool.and_eq_true, beq_iff_eq] at h1 h2
            simp [ClaimEntry.holds, h1, h2]
          · simp only [firstMerging, beq_iff_eq] at h5
            rw [hkey, h5, hk]
        · simp at h

theorem heldSum_eq_sum (l : List ClaimEntry) (r) : heldSum l r = ((l.filter fun e => e.holds r).map (·.amount)).sum := by
  rw [heldSum, total_eq_sum]

theorem heldSum_map_fold (t : List ClaimEntry) (sender items) (r) (hall : ∀ e b, topUpOf t sender items e = some b → e ∈ t → (e.holds r = b.holds r)) (l : List ClaimEntry) (hl : ∀ e ∈ l, e ∈ t) :
    heldSum (l.map (foldTopUp t sender items)) r = heldSum l r + heldSum (l.filterMap (topUpOf t sender items)) r := by
  induction l with
  | nil => rfl
  | cons a l ih =>
    have ih := ih (fun e he => hl e (List.mem_cons_of_mem _ he))
    rw [List.map_cons, heldSum_cons, heldSum_cons, ih, foldTopUp_eq]
    cases hb : topUpOf t sender items a with
    | none => rw [List.filterMap_cons_none hb]; dsimp only; omega
    | some b =>
      rw [List.filterMap_cons_some hb, heldSum_cons, ← hall a b hb (hl a (List.mem_cons_self ..))]
      by_cases hh : a.holds r = true
      · have : ClaimEntry.holds { a with amount := a.amount + b.amount } r = true := hh
        simp only [this, hh, if_true]; omega
      · have : ¬ ClaimEntry.holds { a with amount := a.amount + b.amount } r = true := hh
        simp [this, hh]

theorem heldSum_le_of_subperm {l m : List ClaimEntry} (h : l.Subperm m) (r) : heldSum l r ≤ heldSum m r := by
  obtain ⟨l', hp, hs⟩ := h
  rw [heldSum_eq_sum, heldSum_eq_sum]
  rw [← ((hp.filter _).map _).sum_eq]
  exact List.Sublist.sum_le_sum ((hs.filter _).map _) (by simp)

theorem heldSum_split (p : ClaimEntry → Bool) (t r) : heldSum t r = heldSum (t.filter p) r + heldSum (t.filter fun e => !p e) r := by
  induction t with
  | nil => rfl
  | cons a t ih =>
    rw [heldSum_cons, ih, List.filter_cons, List.filter_cons]
    cases p a <;> simp [heldSum_cons] <;> omega

theorem fold_key (t sender items e) : (foldTopUp t sender items e).key = e.key := by
  rw [foldTopUp_eq]; split <;> rfl

/-- The removal step keeps the table safe. -/
theorem removalStep_safe {cfg t} (h : TableSafe cfg t) (sender items) : TableSafe cfg (removalStep sender items t).table := by
  refine ⟨?_, ?_, ?_⟩
  · show Ordered ((t.filter _).map _)
    rw [Ordered, List.pairwise_map]
    simp only [fold_key]
    exact h.1.filter _
  · show ((t.filter _).map _).length ≤ _
    rw [List.length_map]; exact le_trans (List.length_filter_le _ _) h.2.1
  · intro r
    refine le_trans ?_ (h.2.2 r)
    show heldSum ((t.filter _).map _) r ≤ _
    have hsub : ∀ e ∈ t.filter (keptBy sender items), e ∈ t := fun e he => (List.mem_filter.1 he).1
    rw [heldSum_map_fold t sender items r (fun e b hb he => (topUpOf_spec h.1 he hb).2.2.1 r) _ hsub,
      heldSum_split (keptBy sender items) t r]
    apply Nat.add_le_add_left
    apply heldSum_le_of_subperm
    apply List.Nodup.subperm
    · rw [List.Nodup, List.pairwise_filterMap]
      refine List.Pairwise.imp_of_mem ?_ (h.1.filter (keptBy sender items))
      intro a b ha hb hlt x hx y hy hxy
      subst hxy
      have h1 := (topUpOf_spec h.1 (hsub _ ha) hx).2.2.2
      have h2 := (topUpOf_spec h.1 (hsub _ hb) hy).2.2.2
      rw [h1] at h2; simp at h2; omega
    · intro b hb
      obtain ⟨e, he, heb⟩ := List.mem_filterMap.1 hb
      have := topUpOf_spec h.1 (hsub _ he) heb
      exact List.mem_filter.2 ⟨this.1, by simp [this.2.1]⟩

/-- A standing list keeps the table safe. -/
theorem applyList_safe {cfg t} (h : TableSafe cfg t) (ok sender items) : TableSafe cfg (applyList cfg ok sender items t).table := by
  unfold applyList
  suffices ∀ (l : List ClaimItem) (a : Applied), TableSafe cfg a.table → TableSafe cfg (l.foldl (applyItem cfg ok t sender items) a).table from
    this items _ (removalStep_safe h sender items)
  intro l
  induction l with
  | nil => intro a h; exact h
  | cons i l ih => intro a h; exact ih _ (applyItem_safe h)

theorem heldSum_map_congr (f : ClaimEntry → ClaimEntry) (hf : ∀ e, (f e).state = e.state ∧ (f e).resource = e.resource ∧ (f e).amount = e.amount) (t r) :
    heldSum (t.map f) r = heldSum t r := by
  induction t with
  | nil => rfl
  | cons a t ih => rw [List.map_cons, heldSum_cons, heldSum_cons, ih]; simp [ClaimEntry.holds, hf a]

/-- A change of marks alone keeps the table safe. -/
theorem TableSafe.map {cfg t} (h : TableSafe cfg t) (f : ClaimEntry → ClaimEntry)
    (hf : ∀ e, (f e).state = e.state ∧ (f e).resource = e.resource ∧ (f e).amount = e.amount ∧ (f e).key = e.key) :
    TableSafe cfg (t.map f) := by
  refine ⟨?_, by simpa using h.2.1, fun r => by rw [heldSum_map_congr f (fun e => ⟨(hf e).1, (hf e).2.1, (hf e).2.2.1⟩)]; exact h.2.2 r⟩
  rw [Ordered, List.pairwise_map]
  simp only [fun e => (hf e).2.2.2]; exact h.1

/-- Postings keep the table safe. -/
theorem posted_safe {cfg t} (h : TableSafe cfg t) : TableSafe cfg (posted cfg t) := h.map _ (fun _ => ⟨rfl, rfl, rfl, rfl⟩)
end Sys2Proof.Machine
end

