-- ==== Sys2Proof/Tests/Slice0.lean ====
section
/-! SUPPORT. Tests: an ill-formed command for each check of WellFormed, a witness for the hypotheses of each statement
(one for each clause), and what a few commands do on a small station. -/

namespace Sys2Proof.Tests

-- One test after the other: each that waits for the kernel in a thread of its own costs the check's memory.
set_option Elab.async false
open Sys2Proof.Machine

/-! ## A small station -/

/-- A claim of channel `c`, HELD or not. -/
def claim (c : Fin 6) (slot : Nat) (r : Resource) (amount : Nat) (st : LocalState) : OwnClaim :=
  { channel := c, slot := slot, resource := r, amount := amount, priority := 3, sheddable := false,
    shed := false, age := 0, detail := none, base := none, state := st, voided := false,
    restartAsk := false, sent := .fresh }

/-- A Claim Table entry. -/
def entry (station channel slot : Nat) (r : Resource) (amount : Nat) (st : ClaimState) : ClaimEntry :=
  { station := station, channel := channel, slot := slot, resource := r, amount := amount, priority := 3,
    age := 0, state := st, shed := false, sheddable := false, detail := none, posted := false }

/-- A phase record with every field in range. -/
def record (k : PhaseKind) : PhaseRecord :=
  { kind := k, duration := 2, target := some 150, water := some 3, power := some 5, band := 10,
    fillLevel := some 100, fillLimit := some 5, blowerOn := some 1, blowerOff := some 1, lot := some 7,
    dest := some ⟨5, 1⟩, settle := some 1, fanBase := some 10, fanGain := some 10, sprayOn := some 5,
    turnLimit := some 5, fanPercent := some 50, burnerMax := some 50, breakDelta := some 50 }

/-- A steep's piece, not gauged. -/
def piece : Piece := { id := 0x1801#16, lot := 7, stage := .steep }

/-- A gauged piece. -/
def gaugedPiece : Piece := { piece with stage := .box, steepGauge := some 1000, couchGauge := some 1300 }

/-- Station 3 with a steep, a box, a kiln and the turner, MEMBER on a CLEAN view beside station 5. -/
def rig : State :=
  { State.reset with
    tb := { ready := true, stab := none, crystal := true }
    loader := { State.reset.loader with loading := false, loaded := true, supply := false }
    cfg := { noSettings with
      address := 3, homeTurner := true, bays := Six.all 4, ratings := Six.all 20, water := 10, power := 30,
      roundPeriod := 500, travel := 5, turnTime := 60, turnerPower := 5, scales := Six.all 100,
      cal := Six.all ⟨0, 400, 0, 2000, 0, 1000⟩ }
    line := { Line.start with state := .member, clean := true, record := {}, lastSender := some 1 }
    peers := modifyAt (fun _ => { present := true, home := true, available := true }) 2
      (modifyAt (fun _ => { present := true }) 4 noPeers)
    chans := ⟨{ kind := .steep, state := .idle }, { kind := .box, state := .idle },
      { kind := .kiln, state := .idle }, { kind := .turner }, { kind := .steep, state := .idle }, {}⟩ }

/-- The station with channel `c` changed. -/
def rigCh (c : Fin 6) (f : Channel → Channel) : State := rig.modCh c f

/-- The station with its Line Controller changed. -/
def rigLine (f : Line → Line) : State := { rig with line := f rig.line }

/-- A channel RUNNING a phase at a step, with a piece. -/
def running (k : PhaseKind) (st : Option Step) (h : Channel) : Channel :=
  { h with
    state := .running, started := true, current := some (record k), step := st, piece := some piece
    blower := some 0, spray := some 0 }

/-- The state a command leaves. -/
def after (i : Instr) (s : State) : State :=
  match exec i s with
  | .next t => t
  | _ => s

/-- An image of 128 bytes with a good sum: station 3 of a steep, a box, a kiln and the turner. -/
def image : List Byte :=
  toBytes ([131, 1, 2, 3, 4, 1, 0] ++ List.replicate 6 4 ++ List.replicate 6 20
    ++ [10, 30, 1, 244, 5, 0, 60, 5] ++ List.replicate 24 0
    ++ (List.replicate 6 [0, 0, 1, 144, 0, 0, 7, 208, 0, 0, 3, 232]).flatten ++ [0, 0, 0, 0, 141])

/-- A TURN frame of a station. -/
def turnFrame (sender : Nat) : TurnFrame :=
  { sender := sender, opening := false, home := false, available := true, round := 0#16, digest := 0#16,
    count := 0#24 }

/-- The bytes of that frame. -/
def turnBytes (sender : Nat) : List Byte := encodeTurn (turnFrame sender)

/-- A JOIN frame of a station. -/
def joinFrame (sender : Nat) : JoinFrame := ⟨sender, 0#16, 0#16⟩

/-! ## WellFormed refuses -/

theorem test_wellFormed_image : Instr.WellFormed (.configLoadGood []) = false := by decide +kernel
theorem test_wellFormed_turn : Instr.WellFormed (.validTurnFrameHeard [0#8]) = false := by decide +kernel
theorem test_wellFormed_join : Instr.WellFormed (.validJoinFrameHeard [0#8]) = false := by decide +kernel
theorem test_wellFormed_peerLow : Instr.WellFormed (.peerLost 0) = false := by decide
theorem test_wellFormed_peerHigh : Instr.WellFormed (.peerLost 25) = false := by decide
theorem test_wellFormed_arrival : Instr.WellFormed (.measurementArrival 0 ⟨4096, 0, 0, 0, false⟩) = false := by decide
theorem test_wellFormed_arrivalMb : Instr.WellFormed (.measurementArrival 0 ⟨0, 4096, 0, 0, false⟩) = false := by decide
theorem test_wellFormed_arrivalMc : Instr.WellFormed (.measurementArrival 0 ⟨0, 0, 4096, 0, false⟩) = false := by decide
theorem test_wellFormed_arrivalMd : Instr.WellFormed (.measurementArrival 0 ⟨0, 0, 0, 4096, false⟩) = false := by decide
theorem test_wellFormed_level : Instr.WellFormed (.levelSteady 0 4001) = false := by decide
theorem test_wellFormed_moisture : Instr.WellFormed (.moistureMade 0 1001) = false := by decide
theorem test_wellFormed_channels :
    ([.loadPhase 6 (record .wet), .hold 6, .release 6, .setStep 6 true, .clearHalt 6, .channelReset 6,
      .withdrawOffer 6, .discard 6 true, .handGauge 6 .steep 0 true, .readChannelStatus 6,
      .readPhaseRecord 6 .next, .readPieceRecord 6, .readCompletionRecord 6 0] : List Instr).all
      (fun i => !i.WellFormed) = true := by decide
theorem test_wellFormed_record :
    ([{ record .wet with duration := 65536 }, { record .wet with target := some 32768 },
      { record .wet with target := some (-32769) }, { record .wet with ramp := 256 },
      { record .wet with priority := 256 }, { record .wet with water := some 256 },
      { record .wet with power := some 256 }, { record .wet with band := 256 },
      { record .wet with fillLevel := some 65536 }, { record .wet with fillLimit := some 256 },
      { record .wet with blowerOn := some 256 }, { record .wet with blowerOff := some 256 },
      { record .wet with lot := some 65536 }, { record .wet with dest := some ⟨32, 0⟩ },
      { record .wet with dest := some ⟨0, 8⟩ }, { record .wet with settle := some 256 },
      { record .wet with fanBase := some 256 }, { record .wet with fanGain := some 256 },
      { record .wet with sprayOn := some 256 }, { record .wet with turnLimit := some 256 },
      { record .wet with fanPercent := some 256 }, { record .wet with burnerMax := some 256 },
      { record .wet with breakDelta := some 256 }] : List PhaseRecord).all
      (fun r => !(Instr.WellFormed (.loadPhase 0 r))) = true := by decide
theorem test_wellFormed_gauge : Instr.WellFormed (.handGauge 0 .steep 16777216 true) = false := by decide
theorem test_wellFormed_completion : Instr.WellFormed (.readCompletionRecord 0 4) = false := by decide
theorem test_wellFormed_claimEntry : Instr.WellFormed (.readClaimTableEntry 128) = false := by decide
theorem test_wellFormed_bookEntry : Instr.WellFormed (.readBookEntry 128) = false := by decide
theorem test_wellFormed_bad : Instr.WellFormed (.badRequest [0x0F#8, 0#8]) = false := by decide
theorem test_wellFormed_good : Instr.WellFormed (.loadPhase 0 (record .wet)) = true := by decide

/-! ## Chapter 12's bytes -/

/-- The check of "123456789" under the generator and start of section 12.1. -/
theorem test_crc : crc ([0x31, 0x32, 0x33, 0x34, 0x35, 0x36, 0x37, 0x38, 0x39].map (BitVec.ofNat 8)) = 0x29B1#16 := by
  decide +kernel
theorem test_image_good : goodImage image = true := by decide +kernel
theorem test_turn_bytes : decodeTurn (turnBytes 5) = some (turnFrame 5) := by decide +kernel
theorem test_join_bytes : decodeJoin (encodeJoin (joinFrame 5)) = some (joinFrame 5) := by decide +kernel
theorem test_request_hold : decodeRequest false [0x02#8, 1#8, 4#8] = some (.hold 4) := by decide
theorem test_request_take_book :
    decodeRequest false [0x0A#8, 3#8, 1#8, 0#8, 2#8] = some (.takeBook 65538#24) := by decide
theorem test_request_short : decodeRequest false [0x02#8, 1#8] = none := by decide
theorem test_no_word : decodeTableWord 8 0 = none := by decide

/-! ## Witnesses: steps and invariants -/

theorem witness_IdleStep_due :
    (∃ i l, ({ State.reset with tb := { State.reset.tb with stab := some 500 } } : State).dueList = i :: l)
      ∧ State.reset.pending = [] := ⟨⟨.crystalReady, [], by decide +kernel⟩, by decide⟩
theorem witness_IdleStep_tick : State.reset.pending = [] ∧ State.reset.dueList = [] := by decide +kernel
theorem witness_Tick : rig.tb.ready = true ∧ rig.line.state.hears = true ∧ rig.live = true
    ∧ (State.reset.tb.ready = false) ∧ State.reset.live = false := by decide

/-- A steep in a WET, RUNNING at a phase time with a wait set. -/
def timed (n : Nat) (w : WaitSet) : State :=
  rigCh 0 fun h => { running .wet (some .standing) h with timer := n, wait := w, clock := some 1999 }

theorem test_tick_runs : ((timed 7 { turn := true }).tick.ch 0).timer = 8 := by decide +kernel
theorem test_tick_frozen : ((timed 7 { claim := true }).tick.ch 0).timer = 7 := by decide +kernel
theorem test_tick_top : ((timed (2000 * 245700) {}).tick.ch 0).timer = 2000 * 245700 := by decide +kernel

/-- A station whose table holds two claims. -/
def claimed : State := { rig with claims := [entry 3 0 0 .water 6 .holding, entry 5 0 0 .water 4 .holding] }

theorem witness_HeldSums : claimed.ClaimsSafe ∧ ∃ t, step claimed = .next t := by
  refine ⟨⟨?_, by decide, ?_, ?_⟩, ⟨_, rfl⟩⟩
  · simp [Ordered, claimed, entry, ClaimEntry.key, claimKey]
  · intro r; cases r <;> decide
  · intro h; exact absurd h (by decide)
theorem witness_Buffers :
    let s : State := { rig with own := [claim 0 0 .water 3 .held, claim 0 2 .power 3 .asked] }
    s.Bounded ∧ ∃ t, step s = .next t := by
  refine ⟨?_, ⟨_, rfl⟩⟩
  unfold State.Bounded Book.Bounded OwnBounded Channel.Bounded
  decide

/-! ## Witnesses: resets, the load, the Timebase -/

theorem witness_ResetEnd : (after .pinReset rig).loader.held = true := by decide +kernel
theorem witness_PinReset : rig.loader.held = false ∧ rig.loader.supply = false ∧ rig.keepsLists = false
    ∧ isVessel (rig.ch 0).kind = true := by decide

/-- A steep that holds a restart list. -/
def listed (f : Channel → Channel) : State :=
  rigCh 0 fun h => f { h with state := .paused, pause := some .restart, restart := some [⟨0, ⟨.power, 5, 3, false, none, none⟩⟩] }

theorem witness_PinReset_kept :
    (∀ k, (listed fun h => { h with restartKept := k }).loader.held = false
      ∧ (listed fun h => { h with restartKept := k }).loader.supply = false)
    ∧ (let s := listed fun h => { h with restartKept := true }
       isVessel (s.ch 0).kind = true ∧ (s.ch 0).restart.isSome = true ∧ s.keepsLists = false
        ∧ (s.ch 0).restartKept = true ∧ (s.ch 0).state = .paused ∧ (s.ch 0).pause = some .restart)
    ∧ (let s : State := { listed id with line := { rig.line with state := .unconfigured } }
       (s.ch 0).restart.isSome = true ∧ s.keepsLists = true)
    ∧ ((listed id).ch 0).restart.isSome = true ∧ (listed id).keepsLists = false
    ∧ ((listed id).ch 0).restartKept = false := by decide
theorem test_pin_keeps_list :
    ((after .pinReset (listed fun h => { h with restartKept := true })).ch 0).restart = ((listed id).ch 0).restart := by
  decide +kernel
theorem test_pin_saves_anew : ((after .pinReset (listed id)).ch 0).restart = some [] := by decide +kernel
theorem witness_GoodLoad_powerUp : State.reset.loader.loading = true ∧ State.reset.loader.held = false
    ∧ goodImage image = true ∧ State.reset.loader.kind = .powerUp := by decide +kernel

/-- The load after a PIN reset. -/
def reloading (digest : Option Word16) : State :=
  { rig with loader := { rig.loader with loading := true, kind := .pin, lastDigest := digest } }

theorem witness_GoodLoad_same :
    let s := reloading (some (imageDigest image))
    s.loader.loading = true ∧ s.loader.held = false ∧ goodImage image = true ∧ s.loader.kind = .pin
      ∧ s.loader.lastDigest = some (imageDigest image) :=
  ⟨rfl, rfl, test_image_good, rfl, rfl⟩
theorem witness_GoodLoad_changed :
    let s := reloading none
    s.loader.loading = true ∧ s.loader.held = false ∧ goodImage image = true ∧ s.loader.kind = .pin
      ∧ s.loader.lastDigest ≠ some (imageDigest image) := by decide +kernel
theorem witness_BadLoad : (reloading none).loader.loading = true ∧ (reloading none).loader.held = false
    ∧ (reloading none).loader.kind = .pin := by decide
theorem witness_Crystal : State.reset.tb.stab.isSome = true ∧ State.reset.tb.ready = false := by decide
theorem witness_CrystalLoss_member :
    rig.tb.ready = true ∧ rig.line.state.hears = true ∧ rig.line.state = .member := by decide
theorem witness_CrystalLoss_listening :
    let s := rigLine fun l => { l with state := .listening }
    s.tb.ready = true ∧ s.line.state.hears = true ∧ s.line.state ≠ .member := by decide
theorem witness_CrystalLoss_unconfigured :
    let s := rigLine fun l => { l with state := .unconfigured }
    s.tb.ready = true ∧ s.line.state = .unconfigured := by decide

/-! ## Witnesses: the line -/

theorem witness_ColdWait :
    let s := rigLine fun l => { l with state := .listening, coldWait := some 0 }
    s.line.state = .listening ∧ s.line.coldWait.isSome = true ∧ s.maySend = true := by decide
theorem witness_ColdWait_busyLine :
    let s := rigLine fun l => { l with
      state := .listening, coldWait := some 0, onLine := some ⟨0, .inRound, none⟩ }
    s.line.state = .listening ∧ s.line.coldWait.isSome = true ∧ s.maySend = false := by decide

/-- The station sending a frame. -/
def sending (f : OwnFrame) : State := rigLine fun l => { l with sending := some f }

theorem witness_ColdRead : ∃ f ok, (sending (.turn (turnFrame 3) true true)).line.sending = some (.turn f true ok) :=
  ⟨_, _, rfl⟩
theorem witness_Listening_joining :
    let s := rigLine fun l => { l with state := .joining }
    s.line.state = .joining ∧ s.line.sending = none := by decide
theorem witness_Listening_mute :
    let s := rigLine fun l => { l with state := .mute, muteCount := 1 }
    s.line.state = .mute ∧ s.line.muteCount ≤ 1 := by decide
theorem witness_Mute_counts :
    let s := rigLine fun l => { l with state := .mute, muteCount := 2 }
    s.line.state = .mute ∧ 2 ≤ s.line.muteCount := by decide
theorem witness_JoinDelay : (rigLine fun l => { l with state := .joining, roundPart := .window 3 }).mayJoin = true := by
  decide
theorem witness_JoinRead :
    let s := sending (.join (joinFrame 3))
    s.line.sending = some (.join (joinFrame 3)) ∧ 1 ≤ s.cfg.address ∧ s.cfg.address ≤ s.peers.length
      ∧ s.othersPresent = true := by decide +kernel

/-- The station before an opening, in the first place or the second of the opening ladder. -/
def beforeO (part : Nat) : State :=
  rigLine fun l => { l with sinceOpening := some 1000, roundPart := .closed part, silence := 1000 }

theorem witness_Opening_first :
    let s := beforeO 0
    s.line.state = .member ∧ s.maySend = true ∧ s.beforeOpening = true ∧ s.openingPlace = some 0 := by
  decide +kernel
theorem witness_Opening_second :
    let s : State := { beforeO 6 with peers := modifyAt (fun _ => { present := true }) 0 rig.peers }
    s.line.state = .member ∧ s.maySend = true ∧ s.beforeOpening = true ∧ s.openingPlace = some 1
      ∧ s.silentSinceO = true := by decide +kernel
theorem witness_TurnSlot :
    rig.line.state = .member ∧ rig.maySend = true ∧ rig.line.turnTaken = false
      ∧ rig.line.roundPart = .turns ∧ rig.turnPlace = some 0 := by decide +kernel
theorem witness_TurnSlot_claims :
    let s : State := { rig with own := [claim 0 0 .water 3 .held] }
    s.line.state = .member ∧ s.maySend = true ∧ s.line.turnTaken = false ∧ s.line.roundPart = .turns
      ∧ s.turnPlace = some 0 ∧ s.own.length ≤ 18 ∧ ∃ i, s.claimItems = [] ++ i :: [] ∧ i.hold = true :=
  ⟨by decide, by decide, by decide, by decide, by decide +kernel, by decide, _, rfl, rfl⟩
theorem test_turn_marks_replies :
    let r : ReplyItem := { channel := 1, source := ⟨5, 0⟩, id := 1#16, decline := none }
    let s : State := { rig with replies := [⟨r, false⟩], castends := [⟨⟨0, ⟨5, 1⟩, .cancelled 1#16⟩, true⟩] }
    (after .turnSlotReached s).replies = [⟨r, true⟩] ∧ (after .turnSlotReached s).castends.map (·.inFrame) = [true] := by
  decide +kernel
theorem witness_Aborted_first :
    let s := sending (.turn (turnFrame 3) false true)
    s.line.sending = some (.turn (turnFrame 3) false true) ∧ s.line.aborts = 0 := by decide
theorem witness_Aborted_second :
    let s : State := { sending (.join (joinFrame 3)) with line := { (sending (.join (joinFrame 3))).line with aborts := 1 } }
    s.line.sending = some (.join (joinFrame 3)) ∧ 1 ≤ s.line.aborts := by decide
theorem witness_Hearing : rig.hearing = true := by decide
theorem witness_MuteEntry_member :
    let s := rigLine fun l => { l with aborts := 1 }
    s.line.state = .member ∧ 1 ≤ s.line.aborts := by decide
theorem witness_MuteEntry_joining :
    let s := rigLine fun l => { l with state := .joining, aborts := 1 }
    s.line.state = .joining ∧ 1 ≤ s.line.aborts := by decide
theorem witness_OwnTurn :
    let s := sending (.turn (turnFrame 3) false true)
    s.line.sending = some (.turn (turnFrame 3) false true) ∧ 1 ≤ (turnFrame 3).sender
      ∧ (turnFrame 3).sender ≤ s.peers.length := by decide

/-- A station without the turner that sends claims alone: channel 0's slot 0 as `m`. -/
def sendingClaim (st : LocalState) (m : SentMark) (hold : Bool) : State :=
  { rig with
    cfg := { rig.cfg with homeTurner := false }
    own := [{ claim 0 0 .water 3 st with sent := m }]
    line := { rig.line with sending := some (.turn { turnFrame 3 with claims := if m = .fresh then [] else [
      { channel := 0, slot := 0, hold := hold, resource := .water, amount := 3, priority := 3, age := 0,
        sheddable := false, shed := false, detail := none, merged := none }] } false true) } }

/-- That frame is the kind of frame the statement of the Own Claim List is about. -/
def claimsAlone (s : State) : Bool :=
  match s.line.sending with
  | some (.turn f false _) =>
    f.offers.isEmpty && f.replies.isEmpty && f.castends.isEmpty && f.turnends.isEmpty && f.entries.isEmpty
      && !s.cfg.homeTurner && s.peers.all (fun p => p.missed ≤ 1)
      && s.own.all fun o => match o.sent with
        | .merged => false
        | .base _ => false
        | _ => true
  | _ => false

theorem witness_BroughtUp :
    (claimsAlone (sendingClaim .waiting .take true) = true ∧ claimsAlone (sendingClaim .asked .fresh false) = true)
    ∧ (let s := sendingClaim .asked .wait false
       claimsAlone s = true ∧ ∀ o ∈ s.own, ((after .ownTurnReadBack s).entryOfOwn o).isSome = true ∧ o.state = .asked)
    ∧ (let s : State := { sendingClaim .waiting .wait false with cfg := { rig.cfg with homeTurner := false, address := 4 } }
       claimsAlone s = true ∧ ∀ o ∈ s.own, (after .ownTurnReadBack s).entryOfOwn o = none) := by
  decide +kernel
theorem witness_TurnHeard :
    rig.hearing = true ∧ decodeTurn (turnBytes 5) = some (turnFrame 5) ∧ (turnFrame 5).sender ≠ rig.cfg.address
      ∧ rig.peers.length = 24 := by decide +kernel
theorem witness_DuplicateAddress :
    rig.hearing = true ∧ decodeTurn (turnBytes 3) = some (turnFrame 3) ∧ (turnFrame 3).sender = rig.cfg.address := by
  decide +kernel
theorem witness_JoinHeard_new :
    rig.hearing = true ∧ decodeJoin (encodeJoin (joinFrame 24)) = some (joinFrame 24) ∧ rig.peers.length = 24
      ∧ (rig.peer 24).present = false ∧ (24 : Nat) ≠ rig.cfg.address := by decide +kernel
theorem witness_JoinHeard_present :
    decodeJoin (encodeJoin (joinFrame 5)) = some (joinFrame 5) ∧ (rig.peer 5).present = true := by
  decide +kernel
theorem witness_JoinHeard_own :
    let s : State := { rigLine fun l => { l with state := .listening } with peers := noPeers }
    s.hearing = true ∧ decodeJoin (encodeJoin (joinFrame 3)) = some (joinFrame 3) ∧ s.peers.length = 24
      ∧ (s.peer 3).present = false ∧ (3 : Nat) = s.cfg.address := by decide +kernel
theorem witness_Window_opens :
    rig.line.state.hears = true ∧ rig.lineIdle = true ∧ rig.line.roundPart = .turns
      ∧ rig.line.lastSender = some 1 := by decide
theorem witness_Window_closes :
    let s := rigLine fun l => { l with roundPart := .window 30 }
    s.line.state.hears = true ∧ s.lineIdle = true ∧ s.line.roundPart = .window 30 := by decide
theorem witness_JoiningEntry :
    let s := rigLine fun l => { l with state := .listening, openingHeard := true, rounds := 1 }
    s.line.state = .listening ∧ s.line.openingHeard = true ∧ 1 ≤ s.line.rounds := by decide
theorem witness_Isolation :
    let s := rigLine fun l => { l with isolation := some 2000 }
    s.line.state = .member ∧ s.line.isolation.isSome = true := by decide
theorem witness_PeerLost :
    let s : State := { rig with peers := modifyAt (fun _ => { present := true, missed := 2 }) 4 rig.peers }
    s.line.state.hears = true ∧ (s.peer 5).present = true ∧ 2 ≤ (s.peer 5).missed
      ∧ (5 : Nat) ≠ s.cfg.address := by decide

/-! ## Witnesses: transfers and arrivals -/


/-- A channel that awaits a piece from channel 0 of station 5. -/
def awaiting (st : ChState) (h : Channel) : Channel :=
  { h with
    state := st, pause := if st = .paused then some .cleared else none
    xfer := { state := .awaiting, partner := some ⟨5, 0⟩, piece := some piece.id, copy := some piece } }

theorem witness_AcceptLimit :
    ∀ st ∈ [ChState.ready, .idle, .halted, .paused],
      (rigCh 1 (awaiting st)).limitRuns 1 = true ∧ ((rigCh 1 (awaiting st)).ch 1).xfer.copy = some piece
        ∧ ((rigCh 1 (awaiting st)).ch 1).state = st := by decide
theorem witness_Unanswered :
    let s := rigCh 0 fun h => { running .cast (some .offering) h with xfer := { state := .offering, count := 7 } }
    s.vessel 0 = true ∧ s.countsOffers 0 = true ∧ 7 ≤ (s.ch 0).xfer.count := by decide
theorem witness_Arrival : rig.live = true ∧ (rig.ch 0).kind ≠ .unused := by decide
theorem witness_Statistics :
    let s := rigCh 2 (running .dry none)
    let a := after (.measurementArrival 2 ⟨100, 300, 500, 7, true⟩) s
    let b := after (.measurementArrival 2 ⟨0, 300, 500, 7, true⟩) s
    s.live = true ∧ (s.ch 2).kind ≠ .unused ∧ (s.ch 2).breakCount < 9 ∧ (s.ch 2).state = .running
      ∧ (s.ch 2).started = true ∧ (s.ch 2).current = some (record .dry) ∧ (a.ch 2).ma.value.isSome = true
      ∧ (b.ch 2).ma.value = none ∧ (rig.ch 2).state ≠ .running := by decide +kernel
theorem witness_Rails :
    (quantityOf .steep .ma).isSome = true ∧ ((0 : Nat) = 0 ∨ 4095 ≤ 0) ∧ (rig.ch 0).ma.outCount ≤ 3 := by decide
theorem witness_SensorFault_halts :
    let s := rigCh 0 fun h => { running .wet (some .filling) h with ma := { outCount := 2 } }
    s.faultDue 0 .ma = true ∧ haltsOn (s.ch 0) .ma = true := by decide

/-- A steep at the ninth steady arrival. -/
def steadying (h : Channel) : Channel :=
  { running .gauge (some .steadying) h with steady := { first := 300, count := 9, sum := 2700 } }

theorem witness_Steady_taken :
    (rigCh 0 steadying).nearlySteady 0 305 = true ∧ (rigCh 0 steadying).book.waiting = []
      ∧ (rigCh 0 steadying).canTake 1 = true := by decide
theorem witness_Steady_waits :
    let s : State := { rigCh 0 steadying with line := { rig.line with clean := false } }
    s.nearlySteady 0 295 = true ∧ s.canTake 1 = false := by decide
theorem witness_TenthReading :
    let s := rigCh 2 fun h => { running .sample (some .reading) h with readings := List.replicate 9 40 }
    s.nearlyRead 2 = true ∧ (s.ch 2).piece = some piece := by decide
theorem witness_Breakthrough :
    let s : State := { rigCh 2 fun h => { running .dry none h with breakCount := 9 } with
      own := [claim 2 0 .power 5 .held] }
    s.nearlyThrough 2 = true := by decide
theorem witness_FlameFail :
    (rigCh 2 fun h => { running .dry none h with firing := 20, flame := 2 }).nearlyOut 2 = true := by decide
theorem witness_NoFire :
    rig.live = true ∧ (rig.ch 2).kind = .kiln ∧ rig.fanCondition 2 = false := by decide

/-- A box held below its fan's demand for four arrivals, with `n` claims. -/
def limited (l : List OwnClaim) : State :=
  { rigCh 1 fun h => { running .grow (some .growing) h with limited := 4, fanCommand := 90 } with own := l }

theorem witness_PowerLimited :
    (limited [claim 1 0 .power 5 .held]).nearlyLimited 1 = true
      ∧ (limited [claim 1 0 .power 5 .held]).freeSlot 1 = some 1
      ∧ ((limited [claim 1 0 .power 5 .held]).fanTopUp 1).isSome = true := by decide
theorem witness_PowerLimited_noSlot :
    let l := [claim 1 0 .power 5 .held, claim 1 1 .water 3 .held, claim 1 2 .turner 1 .held]
    (limited l).nearlyLimited 1 = true ∧ (limited l).freeSlot 1 = none := by decide

/-- The turner moving for the box, or faulted. -/
def turning (st : TurnerState) : State :=
  { rig with
    turner := { Turner.start with state := st, order := some ⟨⟨3, 1⟩, 4, 9#16⟩, overload := 2 }
    own := [claim 3 0 .power 5 .held]
    claims := [entry 3 1 1 .turner 1 .holding] }

theorem witness_Overload : (turning .turning).nearlyOverloaded 3 = true ∧ (turning .turning).turnerCh = some 3 := by
  decide
theorem witness_Travel :
    (turning .travelling).moves = true ∧ (turning .travelling).turner.state = .travelling
      ∧ (turning .travelling).turner.order.isSome = true := by decide
theorem witness_TurnDone :
    (turning .turning).moves = true ∧ (turning .turning).turner.state = .turning
      ∧ (turning .turning).turner.order.isSome = true ∧ (turning .turning).turnerCh = some 3 := by decide

/-! ## Witnesses: process timers -/

/-- A channel whose time limit can come. -/
def limitStands (s : State) (c : Fin 6) : Bool :=
  s.vessel c && (s.ch c).started && (s.ch c).current.isSome && (s.ch c).due.isNone

theorem witness_Duration :
    let s := rigCh 2 (running .cure none)
    limitStands s 2 = true ∧ (durationLimit (s.ch 2) (record .cure)).isSome = true
      ∧ (s.ch 2).state = .running ∧ (s.ch 2).wait.freezes = false := by decide
theorem witness_Duration_paused :
    let s := rigCh 2 fun h => { running .strip none h with state := .paused }
    limitStands s 2 = true ∧ (durationLimit (s.ch 2) (record .strip)).isSome = true
      ∧ (s.ch 2).state = .paused := by decide
theorem witness_Stand :
    let s := rigCh 0 fun h => { running .wet (some .standing) h with standMark := some 10 }
    limitStands s 0 = true ∧ (standLimit (s.ch 0)).isSome = true ∧ (s.ch 0).state = .running
      ∧ (s.ch 0).wait.freezes = false := by decide
theorem witness_TurnLimit :
    let s := rigCh 1 (running .turn (some .asking))
    limitStands s 1 = true ∧ (turnLimitOf (s.ch 1)).isSome = true ∧ (s.ch 1).state = .running
      ∧ (s.ch 1).wait.freezes = false := by decide
theorem witness_CastEnds :
    let s := rigCh 0 fun h => { running .cast (some .casting) h with
      xfer := { state := .accepted, partner := some ⟨5, 1⟩, piece := some piece.id } }
    s.timerRuns 0 = true ∧ (s.ch 0).current = some (record .cast) ∧ (s.ch 0).due = none
      ∧ (s.ch 0).step = some .casting ∧ (s.ch 0).piece = some piece
      ∧ (s.ch 0).xfer.partner = some ⟨5, 1⟩ := by decide
theorem witness_LoadoutEnds :
    let s := rigCh 1 fun h => { running .loadout (some .loading) h with
      xfer := { state := .accepted, partner := some ⟨5, 2⟩, piece := some piece.id } }
    s.timerRuns 1 = true ∧ (s.ch 1).current = some (record .loadout) ∧ (s.ch 1).step = some .loading
      ∧ (s.ch 1).xfer.partner = some ⟨5, 2⟩ := by decide
theorem witness_FillLimit :
    let s := rigCh 0 (running .wet (some .filling))
    s.timerRuns 0 = true ∧ fillLimitOf (s.ch 0) = some (minutes 5) := by decide
theorem witness_Settle :
    let s := rigCh 1 (running .couch (some .settling))
    s.timerRuns 1 = true ∧ settleLimit (s.ch 1) = some (minutes 1) := by decide
theorem witness_Gate : (rigCh 2 (running .sample (some .gating))).gateOpen 2 = true := by decide

/-- A GROW that blends, with a record in NEXT or none. -/
def blending (next : Option PhaseRecord) : State :=
  rigCh 1 fun h => { running .grow (some .growing) h with
    current := some { record .grow with endMode := .blend, ramp := 5, duration := 60 }, next := next }

theorem witness_Blend_moves :
    (blending (some (record .turn))).timerRuns 1 = true
      ∧ (blendLimit ((blending (some (record .turn))).ch 1)).isSome = true
      ∧ ((blending (some (record .turn))).ch 1).next.bind targetOf = some 150 := by decide
theorem witness_Blend_missed :
    (blending none).timerRuns 1 = true ∧ (blendLimit ((blending none).ch 1)).isSome = true
      ∧ ((blending none).ch 1).next.bind targetOf = none := by decide
theorem witness_Blower :
    let s := rigCh 0 (running .wet (some .standing))
    s.vessel 0 = true ∧ (s.ch 0).blowerOn = false ∧ blowerCycle (s.ch 0) = some (minutes 1, minutes 2)
      ∧ (s.ch 0).blower = some 0 := by decide
theorem witness_BlowerOff :
    let s := rigCh 0 fun h => { running .wet (some .standing) h with blowerOn := true }
    s.vessel 0 = true ∧ (s.ch 0).blowerOn = true ∧ blowerCycle (s.ch 0) = some (minutes 1, minutes 2)
      ∧ (s.ch 0).blower = some 0 ∧ s.postedOf 0 [.power] = [] := by decide
theorem witness_Rest :
    let s := rigCh 0 (running .air (some .resting))
    s.vessel 0 = true ∧ (s.ch 0).resting = true ∧ (s.ch 0).blower = some 0
      ∧ s.postedOf 0 [.power] = [] := by decide

/-- A phase with its POWER claim HELD and posted. -/
def postedPower (k : PhaseKind) (st : Step) (paused : Bool) : State :=
  { rigCh 0 fun h => { running k (some st) h with
      state := if paused then .paused else .running, blowerOn := true } with
    own := [claim 0 0 .power 5 .held]
    claims := [{ entry 3 0 0 .power 5 .holding with posted := true, sheddable := true }] }

theorem witness_Shed :
    ∀ paused, ∀ x ∈ [(PhaseKind.wet, Step.standing), (.air, .resting)],
      let s := postedPower x.1 x.2 paused
      OwnBounded s.own ∧ s.vessel 0 = true ∧ (s.ch 0).blower = some 0 ∧ s.postedOf 0 [.power] ≠ []
        ∧ ((s.ch 0).blowerOn = true ∧ (blowerCycle (s.ch 0)).isSome = true ∨ (s.ch 0).resting = true)
        ∧ (s.ch 0).stats.sheds ≤ 255 ∧ (s.ch 0).shedsAside ≤ 255 ∧ (s.ch 0).started = true := by
  unfold OwnBounded
  decide

/-- A table in which station 5 sheds for a waiter of priority 7. -/
def shedTable (amount : Nat) : List ClaimEntry :=
  [{ entry 3 0 0 .power amount .holding with sheddable := true }, entry 3 1 0 .power 20 .holding,
    { entry 5 0 0 .power 10 .waiting with priority := 7, shed := true }]

theorem witness_Victims :
    shedWaiter [] .power = none ∧ (∀ n ∈ [0, 5, 6, 10], (shedWaiter (shedTable n) .power).isSome = true)
      ∧ victims rig.cfg (shedTable 10) .power ≠ [] ∧ (shedTable 0).length = 3
      ∧ victims rig.cfg ((shedTable 6).drop 1) .power = []
      ∧ victims { rig.cfg with power := 20 } (shedTable 6) .power = [] := by decide
theorem witness_Spray :
    let s := rigCh 1 (running .grow (some .growing))
    s.vessel 1 = true ∧ sprayPart (s.ch 1) = some (minutes 5) ∧ (s.ch 1).spray = some 0 := by decide

/-! ## Witnesses: panel requests -/

theorem witness_Refused : (after (.hold 0) rig).panel.reply.result = .refused := by decide +kernel
theorem witness_BadRequest : (after (.hold 6) rig).panel.reply.result = .badRequest := by decide +kernel
theorem witness_Busy : State.reset.busy = true ∧ rig.busy = false := by decide
theorem witness_Saturated :
    (let s := rigLine fun l => { l with checkFailures := 65535 }
     s.hearing = true ∧ s.line.checkFailures = 65535)
    ∧ (let s := rigLine fun l => { l with ownAborted := 65535, sending := some (.join (joinFrame 3)) }
       s.line.sending.isSome = true ∧ s.line.ownAborted = 65535)
    ∧ (let s := rigLine fun l => { l with missedTurns := 65535 }
       s.line.state.hears = true ∧ s.lineIdle = true ∧ s.line.roundPart = .turns ∧ s.line.lastSender = some 1
        ∧ s.line.missedTurns = 65535) := by decide
theorem witness_LoadPhase :
    rig.busy = false ∧ isVessel (rig.kindOf 0) = true ∧ (record .wet).fits = true
      ∧ loadRefusal (rig.ch 0) (record .wet) = none ∧ (rig.ch 0).state ≠ .starved
      ∧ (rig.ch 0).current = none := by decide
theorem witness_LoadPhase_next :
    let s := rigCh 0 (running .wet (some .filling))
    isVessel (s.kindOf 0) = true ∧ loadRefusal (s.ch 0) (record .air) = none ∧ (s.ch 0).state ≠ .starved
      ∧ (s.ch 0).current.isSome = true := by decide
theorem witness_Hold :
    let s := rigCh 0 (running .wet (some .filling))
    s.busy = false ∧ isVessel (s.kindOf 0) = true ∧ (s.ch 0).state = .running := by decide

/-- A steep PAUSED by the panel, with a completion due or none. -/
def heldBack (due : Option EndReason) : State :=
  rigCh 0 fun h => { running .wet (some .standing) h with
    state := .paused, pause := some .panel, resume := some .running, due := due }

theorem witness_Release :
    (heldBack none).busy = false ∧ isVessel ((heldBack none).kindOf 0) = true
      ∧ ((heldBack none).ch 0).discardPending = false ∧ ((heldBack none).ch 0).state = .paused
      ∧ ((heldBack none).ch 0).pause = some .panel ∧ ((heldBack none).ch 0).resume = some .running
      ∧ ((heldBack none).ch 0).due = none := by decide
theorem witness_Release_due :
    ((heldBack (some .time)).ch 0).due = some .time
      ∧ ((heldBack (some .time)).ch 0).current = some (record .wet)
      ∧ ((heldBack (some .time)).ch 0).pause = some .panel
      ∧ ((heldBack (some .time)).ch 0).resume = some .running := by decide
theorem witness_ReleaseWet :
    let s := rigCh 0 fun h => { h with state := .ready, current := some (record .wet) }
    s.busy = false ∧ s.kindOf 0 = .steep ∧ (s.ch 0).discardPending = false ∧ (s.ch 0).state = .ready
      ∧ (s.ch 0).piece = none ∧ (s.ch 0).current = some (record .wet) ∧ (record .wet).kind = .wet
      ∧ (record .wet).lot = some 7 := by decide
theorem witness_ClearHalt :
    let s := rigCh 2 fun h => { h with state := .halted, halt := some .flameFail }
    s.busy = false ∧ isVessel (s.kindOf 2) = true ∧ (s.ch 2).state = .halted := by decide
theorem witness_ClearTurner :
    let s : State := { rig with turner := { Turner.start with state := .faulted } }
    s.busy = false ∧ s.kindOf 3 = .turner ∧ s.turner.state = .faulted := by decide
theorem witness_ChannelReset :
    rig.busy = false ∧ isVessel (rig.kindOf 0) = true ∧ (rig.ch 0).piece = none
      ∧ (rig.ch 0).xfer.state ≠ .accepted ∧ (rig.ch 0).xfer.state ≠ .awaiting := by decide
theorem witness_Withdraw :
    let s := rigCh 0 fun h => { running .cast (some .offering) h with
      xfer := { state := .offering, partner := some ⟨5, 1⟩, piece := some piece.id, acceptedOnce := true } }
    s.busy = false ∧ isVessel (s.kindOf 0) = true ∧ (s.ch 0).xfer.state = .offering
      ∧ (s.ch 0).discardPending = false ∧ (s.ch 0).xfer.acceptedOnce = true
      ∧ (s.ch 0).xfer.partner = some ⟨5, 1⟩ ∧ (s.ch 0).xfer.piece = some piece.id := by decide

/-- A vessel STARVED with a piece. -/
def starving (c : Fin 6) (p : Piece) : State := rigCh c fun h => { h with state := .starved, piece := some p }

theorem witness_LoadPhase_starved :
    (let s := starving 0 piece
     s.busy = false ∧ isVessel (s.kindOf 0) = true ∧ (record .air).fits = true
       ∧ loadRefusal (s.ch 0) (record .air) = none ∧ (s.ch 0).state = .starved ∧ (s.ch 0).current = none
       ∧ startCheck (s.ch 0) (record .air) false = none)
    ∧ (loadRefusal ((starving 1 piece).ch 1) (record .grow) = none
       ∧ startCheck ((starving 1 piece).ch 1) (record .grow) false = some .firstPhase)
    ∧ (loadRefusal ((starving 2 piece).ch 2) (record .load) = none
       ∧ startCheck ((starving 2 piece).ch 2) (record .load) false = none) := by decide
theorem witness_Discard :
    let s := starving 0 piece
    s.busy = false ∧ isVessel (s.kindOf 0) = true ∧ (s.ch 0).piece = some piece
      ∧ ({ s with elock := false } : State).discardRefusal 0 piece = none ∧ gauged piece = false := by decide
theorem witness_Discard_gauged :
    let s := starving 1 gaugedPiece
    s.busy = false ∧ isVessel (s.kindOf 1) = true ∧ (s.ch 1).piece = some gaugedPiece
      ∧ ({ s with elock := false } : State).discardRefusal 1 gaugedPiece = none
      ∧ gauged gaugedPiece = true := by decide
theorem witness_HandGauge :
    let s := starving 0 piece
    s.busy = false ∧ isVessel (s.kindOf 0) = true ∧ (1000 : Nat) < 16777216 ∧ (s.ch 0).piece = some piece
      ∧ ({ s with elock := false } : State).handRefusal 0 .steep piece = none := by decide

/-- An entry of the book. -/
def bookEntry (n : Nat) : Entry :=
  { sequence := BitVec.ofNat 24 n, span := 1, round := 0#16, station := 3
    item := { kind := .start, channel := none, piece := none, value := .digest 0#16 } }

/-- The station with two entries in its book. -/
def booked : State := { rig with book := { rig.book with entries := [bookEntry 4, bookEntry 5], count := 6#24 } }

theorem witness_TakeBook :
    booked.busy = false ∧ booked.book.missed = none
      ∧ booked.book.entries = bookEntry 4 :: [bookEntry 5] := by decide

/-- A full book with a missed span of `n`. -/
def fullBook (n : Nat) : State :=
  { rig with book := { rig.book with
      entries := (List.range 128).map bookEntry, count := 600#24, missed := some ⟨128#24, n⟩ } }

/-- What TAKE_BOOK leaves of it before the filling. -/
def keptOf (s : State) (q : Seq) : List Entry := (s.book.remove q).entries

theorem witness_TakeBook_missed :
    (fullBook 5).busy = false ∧ (fullBook 5).book.missed = some ⟨128#24, 5⟩
      ∧ (fullBook 70000).book.missed = some ⟨128#24, 70000⟩ ∧ (keptOf (fullBook 70000) 0#24).length = 127
      ∧ (keptOf (fullBook 5) 16777215#24).length = 128 ∧ (keptOf (fullBook 5) 9#24).length < 128 := by
  decide +kernel
theorem witness_RestartHold :
    rig.busy = false ∧ rig.loader.supply = false ∧ (∃ t, exec .pinReset rig = .next t)
      ∧ (∃ t, exec .configLoadBad rig = .next t) ∧ (∃ t, exec (.powerUpReset true) rig = .next t) :=
  ⟨by decide, by decide, ⟨_, rfl⟩, ⟨_, rfl⟩, ⟨_, rfl⟩⟩
theorem witness_Reads : rig.busy = false ∧ rig.kindOf 0 ≠ .unused := by decide
theorem witness_LineState : rig.line.state ≠ .mute := by decide

/-- An event. -/
def event : Event := { kind := .turnDone, channel := none, piece := none, round := 0#16, value := [0, 0, 0, 0] }

/-- A panel with `n` events and an overflow count. -/
def panelOf (n overflow : Nat) : Panel := { Panel.start with events := List.replicate n event, overflow := overflow }

theorem witness_PopEvent :
    let s : State := { rig with panel := panelOf 2 0 }
    s.busy = false ∧ s.panel.events = event :: [event] := by decide
theorem witness_PopEvent_empty : rig.busy = false ∧ rig.panel.events = [] := by decide
theorem witness_Queue_room : (panelOf 15 0).overflow = 0 ∧ (panelOf 15 0).events.length < 16 := by decide
theorem witness_Queue_full : (panelOf 16 255).events.length = 16 ∧ (panelOf 16 255).overflow ≤ 255 := by decide
theorem witness_Queue_overrun : 1 ≤ (panelOf 14 255).overflow ∧ (panelOf 14 255).events.length ≤ 14 := by decide
theorem witness_Queue_onePlace : 1 ≤ (panelOf 15 1).overflow ∧ (panelOf 15 1).events.length = 15 := by decide
theorem witness_Queue_resets : rig.loader.held = false ∧ (∃ t, exec .pinReset rig = .next t) := ⟨by decide, ⟨_, rfl⟩⟩
theorem witness_ReadFault :
    rig.busy = false ∧ rig.panel.record = none ∧ (∃ t, exec .readFault rig = .next t)
      ∧ ∃ t, exec .readFault (rig.recordFault .bookSkew (some 5) none) = .next t :=
  ⟨by decide, by decide, ⟨_, rfl⟩, ⟨_, rfl⟩⟩
theorem witness_ClearFault : rig.busy = false ∧ (0x10#8).getLsbD 4 = true := by decide
theorem witness_Waiters :
    (entry 3 0 0 .water 1 .waiting).ahead (entry 3 0 1 .water 1 .waiting) = true
      ∧ (entry 3 0 1 .water 1 .waiting).ahead (entry 5 0 0 .water 1 .waiting) = true
      ∧ (entry 3 0 0 .water 1 .waiting).key ≠ (entry 5 0 0 .water 1 .waiting).key := by decide
theorem witness_Drives_off : State.reset.forcedOff 0 = true := by decide
theorem witness_Drives_steep :
    let s := rigCh 0 (running .wet (some .filling))
    s.forcedOff 0 = false ∧ (s.ch 0).kind = .steep ∧ s.hasHeld 0 .water = false ∧ s.hasHeld 0 .power = false
      ∧ s.hasHeld 0 .castway = false := by decide
theorem witness_Drives_box :
    let s := rigCh 1 (running .loadout (some .loading))
    s.forcedOff 1 = false ∧ (s.ch 1).kind = .box ∧ s.hasHeld 1 .water = false ∧ s.hasHeld 1 .loader = false := by
  decide
theorem witness_Drives_turner : (rig.ch 3).kind = .turner ∧ rig.turnerGate = false := by decide
theorem witness_Gauge : (0 : Int) ≤ ((300 : Nat) : Int) * (100 : Nat) + 100 * 0
    ∧ ((1 : Nat) : Int) * (1 : Nat) + 100 * (-1) < 0 := by decide
theorem witness_JoinRoundTrip : 1 ≤ (joinFrame 24).sender ∧ (joinFrame 24).sender ≤ 24
    ∧ 1 ≤ (joinFrame 1).sender := by decide

/-! ## Witnesses: restart and RELEASE -/

/-- The load after a PIN reset that changes nothing, with channel 0 as it was left. -/
def kept (hold : Bool) (f : Channel → Channel) : State :=
  { (reloading (some (imageDigest image))).modCh 0 f with
    loader := { (reloading (some (imageDigest image))).loader with hold := hold } }

/-- A saved claim of POWER in a slot. -/
def saved (slot : Nat) : Saved := ⟨slot, ⟨.power, 5, 3, false, none, none⟩⟩

/-- A source whose cast was accepted. -/
def castingAt (h : Channel) : Channel :=
  { running .cast (some .casting) h with
    xfer := { state := .accepted, partner := some ⟨5, 1⟩, piece := some piece.id } }

theorem witness_Restart_load (hold : Bool) (f : Channel → Channel) :
    (kept hold f).loader.loading = true ∧ (kept hold f).loader.held = false ∧ goodImage image = true
      ∧ (kept hold f).loader.kind = .pin ∧ (kept hold f).loader.lastDigest = some (imageDigest image)
      ∧ isVessel ((imageKinds image).get 0) = true :=
  ⟨rfl, rfl, test_image_good, rfl, rfl, by decide +kernel⟩
theorem witness_Restart :
    (∀ hold, let s := kept hold castingAt
      (s.ch 0).state = .running ∧ (s.ch 0).xfer.state = .accepted ∧ (s.ch 0).inPhase .cast = true)
    ∧ (let s := kept true (running .wet (some .filling))
       s.loader.hold = true ∧ (s.ch 0).state = .running ∧ (s.ch 0).xfer.state ≠ .accepted)
    ∧ (let s := kept false fun h => { running .wet (some .filling) h with restart := some [saved 0, saved 2] }
       s.loader.hold = false ∧ (s.ch 0).state = .running ∧ (s.ch 0).xfer.state ≠ .accepted
        ∧ (((s.ch 0).restart.getD []).map (·.slot)).Nodup ∧ (s.ch 0).restart.getD [] ≠ [])
    ∧ (let s := kept true fun h => { running .wet none h with state := .paused, pause := some .restart }
       (s.ch 0).state = .paused ∧ (s.ch 0).pause = some .restart ∧ (s.ch 0).xfer.state ≠ .accepted)
    ∧ ((kept true id).ch 0).state = .idle := by decide

/-- A channel PAUSED for a reason. -/
def pausedFor (r : PauseReason) (resume : Option Resume) (h : Channel) : Channel :=
  { h with state := .paused, pause := some r, resume := resume }

theorem witness_Release_paused :
    (∀ r ∈ [PauseReason.step, .orphan, .cleared, .offerUnanswered, .offerDeclined, .destLost, .restart],
      let s := rigCh 0 fun h => pausedFor r (some .running) { h with piece := some piece, current := some (record .wet) }
      s.busy = false ∧ isVessel (s.kindOf 0) = true ∧ (s.ch 0).discardPending = false ∧ (s.ch 0).state = .paused
        ∧ (s.ch 0).pause = some r ∧ (s.ch 0).current = some (record .wet) ∧ (record .wet).kind ≠ .load
        ∧ startCheck (s.ch 0) (record .wet) false = none ∧ (s.ch 0).piece.isSome = true
        ∧ (s.ch 0).xfer.state ≠ .accepted ∧ (s.ch 0).due = none ∧ (s.ch 0).resume = some .running
        ∧ (((s.ch 0).restart.getD []).map (·.slot)).Nodup)
    ∧ (let s := rigCh 0 (pausedFor .panel (some .starved))
       (s.ch 0).pause = some .panel ∧ (s.ch 0).resume = some .starved ∧ (s.ch 0).current = none)
    ∧ (let s := rigCh 0 (pausedFor .cleared none)
       (s.ch 0).pause = some .cleared ∧ (s.ch 0).piece = none)
    ∧ (let s := rigCh 0 fun h => pausedFor .restart (some .running) (castingAt h)
       (s.ch 0).xfer.state = .accepted ∧ (s.ch 0).xfer.partner = some ⟨5, 1⟩ ∧ (s.ch 0).started = true
        ∧ (s.ch 0).current = some (record .cast) ∧ (s.ch 0).xfer.loadout = decide ((record .cast).kind = .loadout)
        ∧ (s.ch 0).due = none ∧ s.claimsOf 0 = [])
    ∧ (let s := rigCh 0 fun h => pausedFor .restart (some .running) { running .wet none h with due := some .time }
       (s.ch 0).due = some .time ∧ (s.ch 0).current = some (record .wet))
    ∧ (let s := rigCh 0 (pausedFor .restart (some .starved))
       (s.ch 0).resume = some .starved ∧ (s.ch 0).current = none) := by decide
/-- A steep paused for its offer whose earlier cast was read back in the pause: no piece, the unit NONE, CAST due. -/
def dueInOffer (h : Channel) : Channel :=
  pausedFor .offerUnanswered none { running .cast (some .offering) h with piece := none, due := some .cast }
/-- A box back from a restart with its TURN's completion due, TURN_WAIT rebuilt at the RELEASE. -/
def dueTurn (h : Channel) : Channel :=
  pausedFor .restart (some .running) { running .turn (some .held) h with due := some .turned, wait := { turn := true } }

theorem witness_Release_dueInPause :
    (let s := rigCh 0 dueInOffer
     (s.ch 0).due = some .cast ∧ (s.ch 0).current = some (record .cast) ∧ (s.ch 0).xfer.state = .none)
    ∧ (let s := rigCh 1 dueTurn
       (s.ch 1).due = some .turned ∧ (s.ch 1).current = some (record .turn) ∧ (s.ch 1).next = none
        ∧ (s.ch 1).resume = some .running) := by decide
theorem witness_ReleaseWet_serial :
    rig.book.serial < 2048 ∧ BitVec.ofNat 16 (rig.cfg.address * 2048 + rig.book.serial) ∉ rig.pieceIds := by decide

/-! ## Witnesses: items of a frame heard -/

/-- The frame is heard with those items alone. -/
abbrev heardWith (s : State) (f : TurnFrame) (o : List OfferItem) (r : List ReplyItem) (x : List CastendItem)
    (e : List TurnendItem) : Prop :=
  (s.hearing = true ∧ decodeTurn (encodeTurn f) = some f ∧ f.sender ≠ s.cfg.address ∧ f.opening = false
    ∧ s.peers.length = 24 ∧ ∀ p ∈ s.peers, p.missed ≤ 1)
  ∧ f.offers = o ∧ f.replies = r ∧ f.castends = x ∧ f.turnends = e

/-- It is so in the words of the statements. -/
theorem hears_of_heardWith {s : State} {f : TurnFrame} {o : List OfferItem} {r : List ReplyItem}
    {x : List CastendItem} {e : List TurnendItem} (h : heardWith s f o r x e) :
    s.Hears (encodeTurn f) f ∧ CarriesJust f o r x e := h

/-- An offer of channel 0 of station 5 to channel `c`. -/
def offerTo (c : Nat) : OfferItem := { source := 0, dest := ⟨3, c⟩, loadout := false, content := piece }

/-- A box READY with a record. -/
def readyFor (k : PhaseKind) (h : Channel) : Channel := { h with state := .ready, current := some (record k) }

theorem witness_Offer :
    (∀ c ∈ [0, 1], heardWith rig { turnFrame 5 with offers := [offerTo c] } [offerTo c] [] [] [])
    ∧ (rig.ch 0).kind ≠ .box ∧ (rig.ch 1).kind = .box ∧ (rig.ch 1).state ≠ .ready ∧ (rig.ch 1).piece = none
    ∧ (let h := (rigCh 1 (awaiting .ready)).ch 1
       h.xfer.partner = some ⟨5, 0⟩ ∧ h.xfer.piece = some (offerTo 1).content.id)
    ∧ ((rigCh 1 fun h => { h with state := .halted }).ch 1).state = .halted
    ∧ ((starving 1 gaugedPiece).ch 1).piece.isSome = true
    ∧ ((rigCh 1 (readyFor .grow)).ch 1).current.map (·.kind) = some .grow
    ∧ ((rigCh 1 (readyFor .couch)).ch 1).current.map (·.kind) = some .couch := by decide +kernel

/-- A reply of channel 1 of station 5 to channel 0. -/
def replyOf (d : Option DeclineReason) : ReplyItem :=
  { channel := 1, source := ⟨3, 0⟩, id := piece.id, decline := d }

/-- A source that offers to channel 1 of station 5. -/
def offering (h : Channel) : Channel :=
  { running .cast (some .offering) h with
    xfer := { state := .offering, partner := some ⟨5, 1⟩, piece := some piece.id } }

theorem witness_Reply :
    (∀ d ∈ [none, some DeclineReason.halted], ∀ f ∈ [offering, castingAt, id,
        fun h => pausedFor .restart (some .running) (offering h)],
      heardWith (rigCh 0 f) { turnFrame 5 with replies := [replyOf d] } [] [replyOf d] [] [])
    ∧ (let h := (rigCh 0 offering).ch 0
       h.xfer.state = .offering ∧ h.xfer.piece = some piece.id ∧ h.xfer.partner = some ⟨5, 1⟩
        ∧ h.pause ≠ some .restart ∧ h.current = some (record .cast) ∧ (rigCh 0 offering).claimsOf 0 = [])
    ∧ ((rigCh 0 castingAt).ch 0).xfer.state = .accepted ∧ (rig.ch 0).xfer.state = .none := by decide +kernel

/-- A cast end of channel 0 of station 5 for channel `c`. -/
def castendTo (c : Nat) (out : CastOutcome) : CastendItem := { source := 0, dest := ⟨3, c⟩, outcome := out }

theorem witness_Castend :
    (∀ out ∈ [CastOutcome.complete piece, .cancelled piece.id], ∀ st ∈ [ChState.halted, .paused, .idle, .ready],
      heardWith (rigCh 1 (awaiting st)) { turnFrame 5 with castends := [castendTo 1 out] } [] []
        [castendTo 1 out] [])
    ∧ (let s := rigCh 1 fun h => { awaiting .ready h with current := some (record .couch) }
       (s.ch 1).state = .ready ∧ (s.ch 1).kind = .box ∧ (s.ch 1).current = some (record .couch))
    ∧ (let s := rigCh 2 fun h => { awaiting .ready h with current := some (record .load) }
       heardWith s { turnFrame 5 with castends := [castendTo 2 (.complete piece)] } [] []
         [castendTo 2 (.complete piece)] []
        ∧ (s.ch 2).state = .ready ∧ (s.ch 2).kind = .kiln ∧ (s.ch 2).current = some (record .load)
        ∧ (s.ch 2).xfer.state = .awaiting)
    ∧ (let s := starving 1 { piece with orphan := true }
       heardWith s { turnFrame 5 with castends := [castendTo 1 (.complete piece)] } [] []
         [castendTo 1 (.complete piece)] []
        ∧ (s.ch 1).piece = some { piece with orphan := true } ∧ (s.ch 1).xfer.state ≠ .awaiting)
    ∧ (rig.ch 1).xfer.state ≠ .awaiting ∧ (rig.ch 1).piece = none := by decide +kernel

/-- A turn end for channel 1. -/
def turnendTo (out : TurnOutcome) : TurnendItem := ⟨⟨3, 1⟩, out, 9#16⟩

/-- A box whose turn was ordered in round 9. -/
def turned (st : ChState) (h : Channel) : Channel :=
  { running .turn (some .held) h with state := st, turnRound := some 9#16 }

theorem witness_Turnend :
    (∀ st ∈ [ChState.running, .paused], ∀ out ∈ [TurnOutcome.ok, .fault],
      let s := rigCh 1 (turned st)
      heardWith s { turnFrame 5 with turnends := [turnendTo out] } [] [] [] [turnendTo out]
        ∧ (s.ch 1).kind = .box ∧ (s.ch 1).inPhase .turn = true ∧ (s.ch 1).state = st ∧ (s.ch 1).due = none
        ∧ (s.ch 1).turnRound = some 9#16 ∧ ((turnendTo out).round - 9#16).toNat < 32768)
    ∧ (rig.ch 1).inPhase .turn = false ∧ (rig.ch 1).kind ≠ .turner := by decide +kernel

/-- A take of the turner by channel 2 of station 5. -/
def turnerTake : ClaimItem :=
  { channel := 2, slot := 0, hold := true, resource := .turner, amount := 1, priority := 3, age := 0,
    sheddable := false, shed := false, detail := some (.bay 4), merged := none }

theorem witness_Order :
    ∀ st ∈ [TurnerState.parked, .faulted, .travelling],
      let s : State := { rig with turner := { Turner.start with state := st } }
      heardWith s { turnFrame 5 with claims := [turnerTake] } [] [] [] []
        ∧ s.cfg.homeTurner = true ∧ s.turnerCh = some 3 ∧ s.claims = [] ∧ s.turnerOk = true
        ∧ (turnFrame 5).home = false ∧ (s.peer 5).home = false ∧ s.claimsOf 3 = [] := by decide +kernel
theorem witness_Abandon :
    ∀ st ∈ [TurnerState.powerWait, .travelling, .turning],
      let s : State := { turning st with
        claims := [entry 5 2 0 .turner 1 .holding]
        turner := { (turning st).turner with order := some ⟨⟨5, 2⟩, 4, 9#16⟩ } }
      heardWith s (turnFrame 5) [] [] [] [] ∧ s.cfg.homeTurner = true ∧ s.turnerCh = some 3
        ∧ s.claims = [entry 5 2 0 .turner 1 .holding] ∧ (entry 5 2 0 .turner 1 .holding).state = .holding := by
  decide +kernel

/-- An ENTRY item. -/
def entryItem : EntryItem := { kind := .steepGauge, channel := some 1, piece := some 7#16, value := .gauge 5 }

/-- A book of `n` entries and a count of 6. -/
def bookOf (n : Nat) (missed : Option Missed) : State :=
  { rig with book := { rig.book with
      entries := (List.range n).map bookEntry, count := 6#24, numbered := true, missed := missed } }

/-- A frame with a book count and entries. -/
def countFrame (count : Seq) (l : List EntryItem) : TurnFrame := { turnFrame 5 with count := count, entries := l }

theorem witness_Book_frames :
    decodeTurn (encodeTurn (countFrame 6#24 [])) = some (countFrame 6#24 [])
      ∧ decodeTurn (encodeTurn (countFrame 6#24 [entryItem])) = some (countFrame 6#24 [entryItem])
      ∧ decodeTurn (encodeTurn (countFrame 7#24 [entryItem])) = some (countFrame 7#24 [entryItem])
      ∧ decodeTurn (encodeTurn (countFrame 5#24 [entryItem])) = some (countFrame 5#24 [entryItem])
      ∧ (turnFrame 5).sender ≠ rig.cfg.address := by decide +kernel
theorem witness_Book :
    (∀ n ∈ [2, 127, 128], (bookOf n none).hearing = true ∧ (bookOf n none).book.entries.length = n
        ∧ (bookOf n none).book.numbered = true)
    ∧ (7#24 - 6#24).toNat = 1 ∧ 65535 < (5#24 - 6#24).toNat
    ∧ (bookOf 128 (some ⟨3#24, 9⟩)).book.missed = some ⟨3#24, 9⟩ := by decide +kernel
theorem witness_OwnBook :
    let f := { turnFrame 3 with count := 6#24, entries := [entryItem] }
    let s : State := { bookOf 2 none with line := { rig.line with sending := some (.turn f false true) } }
    s.line.sending = some (.turn f false true) ∧ f.count = s.book.count ∧ s.book.numbered = true := by decide

/-- An opening frame with a settings digest. -/
def openingOf (digest : Word16) : TurnFrame := { turnFrame 5 with opening := true, digest := digest }

theorem witness_Dissent_frames :
    decodeTurn (encodeTurn (openingOf 0#16)) = some (openingOf 0#16)
      ∧ decodeTurn (encodeTurn (openingOf 1#16)) = some (openingOf 1#16) ∧ (openingOf 1#16).opening = true := by
  decide +kernel
theorem witness_Dissent :
    ((rigLine fun l => { l with dissenting := true }).line.state = .member
      ∧ (rigLine fun l => { l with dissenting := true }).line.dissenting = true)
    ∧ (let s : State := { rig with book := { rig.book with numbered := true } }
     s.hearing = true ∧ s.line.overridden = false ∧ s.line.state = .member ∧ s.line.dissenting = false
      ∧ s.cfg.settingsDigest = 0#16 ∧ (openingOf 1#16).claims = [] ∧ (openingOf 1#16).entries = []
      ∧ (openingOf 1#16).count = s.book.count ∧ s.book.numbered = true ∧ s.peers.length = 24
      ∧ ∀ p ∈ s.peers, p.missed ≤ 1)
    ∧ (let s := rigLine fun l => { l with state := .listening }
       s.hearing = true ∧ s.line.state ≠ .member) := by decide

/-! ## Witnesses: what an arrival judges, read-backs, losses -/

/-- Readings of MA and MB; MC and the logic input are good and active. -/
def readings (ma mb : Nat) : RawArrival := ⟨ma, mb, 500, 7, true⟩

/-- Channel `c` after an arrival of readings. -/
def arrived (s : State) (c : Fin 6) (ma mb : Nat) : Channel := (after (.measurementArrival c (readings ma mb)) s).ch c

theorem witness_FillAndDrain :
    (let s := rigCh 0 (running .wet (some .filling))
     s.live = true ∧ (s.ch 0).state = .running ∧ (s.ch 0).started = true ∧ (s.ch 0).current = some (record .wet)
      ∧ (s.ch 0).kind = .steep ∧ (s.ch 0).step = some .filling ∧ (record .wet).fillLevel = some 100
      ∧ (s.ch 0).asksDue = [] ∧ (arrived s 0 900 205).mb.value = some 100 ∧ (arrived s 0 900 203).mb.value = some 99
      ∧ (arrived s 0 900 205).ma.faulted = false ∧ (arrived s 0 900 205).mb.faulted = false
      ∧ s.postedOf 0 [.water] = [] ∧ (record .wet).blowerOn.isSome = true)
    ∧ (let s : State := { rigCh 0 (running .wet (some .filling)) with
        own := [claim 0 0 .water 3 .held]
        claims := [{ entry 3 0 0 .water 3 .holding with posted := true, sheddable := true }] }
       s.postedOf 0 [.water] ≠ [] ∧ ∀ o ∈ s.claimsOf 0, o.resource = .water)
    ∧ (let s := rigCh 0 (running .air (some .draining))
       (s.ch 0).current = some (record .air) ∧ (s.ch 0).step = some .draining
        ∧ (arrived s 0 900 21).mb.value = some 10 ∧ (arrived s 0 900 23).mb.value = some 11) := by decide +kernel
theorem witness_CastEndLevel :
    (let s : State := { rigCh 0 castingAt with own := [claim 0 0 .castway 1 .held, claim 0 1 .power 5 .held] }
     (s.ch 0).piece = some piece ∧ (s.ch 0).xfer.partner = some ⟨5, 1⟩ ∧ (s.ch 0).step = some .casting
      ∧ s.hasHeld 0 .power = true ∧ s.hasHeld 0 .castway = true ∧ (arrived s 0 900 21).mb.value = some 10
      ∧ (arrived s 0 900 23).mb.value = some 11)
    ∧ (let s : State := { rigCh 1 fun h => { castingAt h with current := some (record .loadout), step := some .loading } with
        own := [claim 1 0 .loader 1 .held, claim 1 1 .power 5 .held] }
       (s.ch 1).kind = .box ∧ (s.ch 1).current = some (record .loadout) ∧ s.hasHeld 1 .power = true
        ∧ s.hasHeld 1 .loader = true ∧ (arrived s 1 900 21).mb.value = some 10) := by decide +kernel
theorem witness_SteadyRun :
    (∀ n ∈ [0, 1, 8, 9],
      let s := rigCh 0 fun h => { running .gauge (some .steadying) h with steady := { first := 305, count := n, sum := 305 * n } }
      (s.ch 0).steady.count = n ∧ (s.ch 0).step = some .steadying ∧ (arrived s 0 900 615).mb.value = some 300
        ∧ (arrived s 0 900 613).mb.value = some 299 ∧ (arrived s 0 900 615).mb.replaced = false
        ∧ (arrived s 0 900 0).mb.value = none ∧ s.book.waiting = [] ∧ s.canTake 1 = true)
    ∧ (record .gauge).kind = .gauge ∧ (record .couch).kind = .couch := by decide +kernel

/-- A box in a GROW at 15.0 °C with a fan gain. -/
def growing (gain : Nat) : State :=
  rigCh 1 fun h => { running .grow (some .growing) h with
    current := some { record .grow with fanGain := some gain }, rampStart := some 150, setpoint := some 150 }

theorem witness_FanLaw :
    (let s := growing 255
     s.live = true ∧ (s.ch 1).kind = .box ∧ (s.ch 1).drivesBy = some { record .grow with fanGain := some 255 }
      ∧ (arrived s 1 900 300).ma.value = some 88 ∧ (arrived s 1 2000 300).ma.value = some 195
      ∧ (arrived s 1 900 300).setpoint = some 150 ∧ (arrived s 1 900 300).ma.faulted = false
      ∧ 100 * 10 + (255 : Int) * (88 - 150) < 0 ∧ (10000 : Int) < 100 * 10 + 255 * (195 - 150))
    ∧ (0 ≤ 100 * 10 + (10 : Int) * (195 - 150) ∧ 100 * 10 + (10 : Int) * (195 - 150) ≤ 10000)
    ∧ (let s := rigCh 1 fun h => { h with state := .starved, completed := some (record .grow), lastEnd := some 150 }
       (s.ch 1).drivesBy = some (record .grow) ∧ (s.ch 1).lastEnd = some 150
        ∧ (arrived s 1 900 300).ma.value = some 88) := by decide +kernel

/-- A kiln with its POWER HELD, in a CURE at 15.0 °C or STARVED after it. -/
def curing (done : Bool) : State :=
  { rigCh 2 fun h => { running .cure none h with
      state := if done then .starved else .running, started := !done
      current := if done then none else some (record .cure), completed := if done then some (record .cure) else none
      rampStart := some 150, setpoint := some 150, lastEnd := some 150, firing := 20, flame := 1 } with
    own := [claim 2 0 .power 10 .held] }

theorem witness_BurnerLaw :
    ∀ done, let s := curing done
      s.live = true ∧ (s.ch 2).kind = .kiln ∧ burns (record .cure).kind = true ∧ s.fanCondition 2 = true
        ∧ (s.ch 2).inPhase .dry = false ∧ (s.ch 2).flame < 2
        ∧ (if done = true then (s.ch 2).state = .starved ∧ (s.ch 2).completed = some (record .cure)
            else (s.ch 2).state = .running ∧ (s.ch 2).started = true ∧ (s.ch 2).current = some (record .cure))
        ∧ (if done = true then (s.ch 2).lastEnd = some 150 else (arrived s 2 900 300).setpoint = some 150)
        ∧ (arrived s 2 900 300).ma.value = some 88 ∧ (arrived s 2 2000 300).ma.value = some 195
        ∧ (arrived s 2 1588 300).ma.value = some 155 ∧ (arrived s 2 900 300).ma.faulted = false
        ∧ (arrived s 2 900 300).mc.faulted = false := by decide +kernel
theorem test_burner : (arrived (curing true) 2 900 300).firing = 25 ∧ (arrived (curing true) 2 2000 300).firing = 15
    ∧ (arrived (curing true) 2 1588 300).firing = 20 := by decide +kernel

/-- The read-back of an own frame that carries what is given. -/
abbrev readsBack (s : State) (f : TurnFrame) : Prop :=
  s.line.sending = some (.turn f false true) ∧ ∀ p ∈ s.peers, p.missed ≤ 1

/-- It is so in the words of the statements. -/
theorem readsBack_of {s : State} {f : TurnFrame} (h : readsBack s f) : s.ReadsBack f true := h

/-- A station that sends a frame. -/
def withFrame (s : State) (f : TurnFrame) : State := { s with line := { s.line with sending := some (.turn f false true) } }

/-- An own frame with the CASTEND COMPLETE of channel 0. -/
def castFrame (d : Pair) : TurnFrame := { turnFrame 3 with castends := [⟨0, d, .complete piece⟩] }

theorem witness_CastRead :
    (∀ f ∈ [castingAt, fun h => { castingAt h with next := some (record .air) },
        fun h => { castingAt h with state := .paused, pause := some .panel, resume := some .running },
        fun h => { castingAt h with state := .halted },
        fun h => { castingAt h with state := .paused, pause := some .cleared, started := false, current := none }],
      let s := withFrame (rigCh 0 f) (castFrame ⟨5, 1⟩)
      readsBack s (castFrame ⟨5, 1⟩) ∧ (castFrame ⟨5, 1⟩).entries = [] ∧ isVessel (s.ch 0).kind = true
        ∧ (s.ch 0).piece = some piece ∧ (s.ch 0).due = none ∧ s.panel.events = [] ∧ s.panel.overflow = 0)
    ∧ (let s := withFrame ((rigCh 0 castingAt).modCh 1 fun h => { awaiting .ready h with
        xfer := { state := .awaiting, partner := some ⟨3, 0⟩, piece := some piece.id, copy := some piece } }) (castFrame ⟨3, 1⟩)
       readsBack s (castFrame ⟨3, 1⟩) ∧ (s.ch 1).kind = .box ∧ (s.ch 1).xfer.state = .awaiting
        ∧ (s.ch 1).xfer.partner = some ⟨3, 0⟩ ∧ (s.ch 1).xfer.piece = some piece.id)
    ∧ ({ rig.cfg with homeTurner := false } : Settings).homeTurner = false := by decide

/-- An entry of a kind for channel `c`'s piece. -/
def captured (c : Nat) (k : EntryKind) (v : EntryValue) : EntryItem :=
  { kind := k, channel := some c, piece := some piece.id, value := v }

/-- A station that has sent the entry, its capture or not, with channel `c` as given. -/
def entering (e : EntryItem) (capture : Bool) (c : Fin 6) (f : Channel → Channel) : State :=
  withFrame { rigCh c f with book := { rig.book with numbered := true, pend := [⟨e, capture⟩] } }
    { turnFrame 3 with entries := [e] }

theorem witness_EntryRead :
    (∀ x ∈ [(EntryKind.steepGauge, EntryValue.gauge 5), (.couchGauge, .gauge 5), (.kilnSample, .sample 1 40),
        (.duty, .gauge 5), (.discard, .gauge 5)], ∀ capture, ∀ st ∈ [ChState.running, .paused, .starved],
      let e := captured 0 x.1 x.2
      let s := entering e capture 0 fun h => { running .gauge (some .captured) h with state := st }
      readsBack s { turnFrame 3 with entries := [e] } ∧ s.book.pend = [⟨e, capture⟩] ∧ s.book.numbered = true
        ∧ (turnFrame 3).count = s.book.count ∧ isVessel (s.ch 0).kind = true ∧ (s.ch 0).piece = some piece
        ∧ e.piece = some piece.id ∧ (s.ch 0).inPhase .gauge = true ∧ (s.ch 0).step = some .captured
        ∧ (s.ch 0).due = none ∧ s.book.waiting = [] ∧ s.panel.events = [])
    ∧ (let s := entering (captured 0 .duty (.gauge 5)) true 0 fun h => { h with piece := some { piece with duty := some 3 } }
       (s.ch 0).piece = some { piece with duty := some 3 } ∧ (s.ch 0).step ≠ some .captured)
    ∧ ((rig.ch 0).piece.map (·.id) ≠ (captured 0 .discard (.gauge 5)).piece)
    ∧ readsBack (withFrame rig { turnFrame 3 with entries := [rig.startItem] }) { turnFrame 3 with entries := [rig.startItem] }
    ∧ rig.startItem.kind = .start := by decide

/-- A base and its top-up as a merging frame carries them. -/
def merging (b u : LocalState) (drop : Bool) : State :=
  withFrame { rig with
    cfg := { rig.cfg with homeTurner := false }
    own := { claim 0 0 .power 5 b with sent := .base 1 }
      :: (if drop then [] else [{ claim 0 1 .power 3 u with sent := .merged, base := some 0 }]) } (turnFrame 3)

theorem witness_Merge :
    ∀ b ∈ [LocalState.held, .waiting], ∀ u ∈ [LocalState.held, .asked], ∀ drop,
      let s := merging b u drop
      readsBack s (turnFrame 3) ∧ s.cfg.homeTurner = false ∧ OwnBounded s.own
        ∧ s.own.map (·.sent) = .base 1 :: (if drop then [] else [.merged]) := by
  unfold OwnBounded
  decide
theorem test_merge_sums :
    (after .ownTurnReadBack (merging .held .held false)).own.map (fun o => (o.slot, o.amount)) = [(0, 8)] := by decide +kernel

/-- A merge item of slots 0 and 1. -/
def mergeItem : ClaimItem :=
  { channel := 0, slot := 0, hold := true, resource := .power, amount := 8, priority := 3, age := 9, sheddable := false,
    shed := false, detail := none, merged := some 1 }

/-- A station whose table holds a base and its top-up of a station. -/
def mergeTable (station : Nat) (b u : ClaimState) (power : Nat) : State :=
  { rig with
    cfg := { rig.cfg with homeTurner := false, power := power }
    claims := [entry station 0 0 .power 5 b, entry station 0 1 .power 3 u] }

theorem witness_MergeItem_heard :
    heardWith (mergeTable 5 .holding .holding 30) { turnFrame 5 with claims := [mergeItem] } [] [] [] [] := by
  decide +kernel
theorem witness_MergeItem :
    (∀ b ∈ [ClaimState.holding, .waiting], ∀ u ∈ [ClaimState.holding, .waiting],
      let s := withFrame (mergeTable 3 b u 30) { turnFrame 3 with claims := [mergeItem] }
      readsBack s { turnFrame 3 with claims := [mergeItem] } ∧ s.cfg.homeTurner = false ∧ mergeItem.merged = some 1
        ∧ entry 3 0 0 .power 5 b ∈ s.claims ∧ entry 3 0 1 .power 3 u ∈ s.claims
        ∧ lawful s.cfg false (s.claims.take 1) (entryOf 3 mergeItem .waiting false) = true
        ∧ lawful { s.cfg with power := 7 } false (s.claims.take 1) (entryOf 3 mergeItem .waiting false) = false)
    ∧ Ordered (mergeTable 3 .holding .waiting 30).claims := by
  refine ⟨by decide, ?_⟩
  simp [Ordered, mergeTable, entry, ClaimEntry.key, claimKey]

/-- A station whose frame takes a claim of channel `c`. -/
def taking (c : Fin 6) (r : Resource) (f : Channel → Channel) : State :=
  withFrame { rigCh c f with own := [{ claim c 0 r 5 .waiting with sent := .take }] } (turnFrame 3)

theorem witness_Granted :
    ∀ x ∈ [(PhaseKind.wet, Step.filling, Resource.water), (.air, .resting, .power), (.cast, .casting, .castway)],
      let s := taking 0 x.2.2 fun h => { running x.1 (some x.2.1) h with wait := { claim := true, line := true } }
      readsBack s (turnFrame 3) ∧ OwnBounded s.own ∧ s.own = [{ claim 0 0 x.2.2 5 .waiting with sent := .take }]
        ∧ isVessel (s.ch 0).kind = true ∧ (s.ch 0).started = true ∧ (s.ch 0).current = some (record x.1) := by
  unfold OwnBounded
  decide
theorem witness_Granted_turn :
    let s := taking 1 .turner (running .turn (some .asking))
    readsBack s (turnFrame 3) ∧ (s.ch 1).current = some (record .turn) ∧ (record .turn).kind = .turn := by decide
theorem test_granted_clears :
    ((after .ownTurnReadBack (taking 0 .water fun h => { running .wet (some .filling) h with
      wait := { claim := true, line := true } })).ch 0).wait = {} := by decide +kernel

/-- The turner at a position, its POWER taken by the frame that is read back. -/
def moveTaken (st : TurnerState) (position : Option Nat) : State :=
  { taking 3 .power id with
    turner := { Turner.start with state := st, position := position, order := some ⟨⟨5, 1⟩, 4, 9#16⟩ } }

theorem witness_TurnerGranted :
    (∀ st ∈ [TurnerState.powerWait, .travelling], ∀ p ∈ [none, some 4, some 1],
      let s := moveTaken st p
      readsBack s (turnFrame 3) ∧ s.turnerCh = some 3 ∧ s.turner.order = some ⟨⟨5, 1⟩, 4, 9#16⟩ ∧ s.claims = []
        ∧ (turnFrame 3).claims = [] ∧ s.turner.position = p ∧ s.turner.state = st)
    ∧ (1 : Nat) ≠ 4 := by decide
theorem test_turner_travels :
    (after .ownTurnReadBack (moveTaken .powerWait (some 1))).turner.timer = seconds 15 := by decide +kernel

/-- A station about to lose station 5, with channel `c` as given. -/
def losing (c : Fin 6) (f : Channel → Channel) : State :=
  { rigCh c f with peers := modifyAt (fun _ => { present := true, missed := 2 }) 4 rig.peers }

theorem witness_LossAtUnit :
    (∀ st ∈ [ChState.ready, .idle, .halted, .paused],
      let s := losing 1 (awaiting st)
      s.line.state.hears = true ∧ (s.peer 5).present = true ∧ 2 ≤ (s.peer 5).missed ∧ isVessel (s.ch 1).kind = true
        ∧ (s.ch 1).xfer.partner.map (·.station) = some 5 ∧ (s.ch 1).xfer.copy = some piece ∧ (s.ch 1).state = st)
    ∧ (∀ started, ∀ st ∈ [ChState.running, .halted],
      let s := losing 0 fun h => { castingAt h with
        state := st, xfer := { state := .accepted, partner := some ⟨5, 1⟩, piece := some piece.id, driveStarted := started } }
      (s.ch 0).xfer.state = .accepted ∧ (s.ch 0).xfer.driveStarted = started ∧ (s.ch 0).state = st
        ∧ ∀ d : Fin 6, d ≠ 0 → (s.ch d).xfer.partner.map (·.station) ≠ some 5)
    ∧ ((losing 0 offering).ch 0).xfer.state = .offering := by decide
theorem witness_PinReset_kinds :
    (let s : State := { rig with loader := { rig.loader with supply := true } }
     s.loader.held = false ∧ s.loader.supply = true)
    ∧ (after .pinReset rig).loader.held = true := by decide +kernel
theorem test_serial_passed_over :
    let s := (rigCh 4 fun h => { h with piece := some { piece with id := 0x1800#16 } }).modCh 0 fun h =>
      { h with state := .ready, current := some (record .wet) }
    ((after (.release 0) s).ch 0).piece.map (·.id) = some 0x1801#16 ∧ (after (.release 0) s).book.serial = 2 := by
  decide +kernel
theorem test_gaps_fill :
    let t := after (.takeBook 1#24) (fullBook 70000)
    t.book.entries.length = 128 ∧ t.book.missed = none
      ∧ (t.book.entries.drop 126).map (fun e => (e.sequence, e.span)) = [(128#24, 65535), (65663#24, 4465)] := by
  decide +kernel
theorem test_order_bytes : orderBytes ⟨⟨5, 2⟩, 4, 9#16⟩ = [5, 2, 4, 0, 9] := by decide

/-! ## What a few commands do -/

theorem test_power_up : after (.powerUpReset false) rig = State.reset := by decide +kernel
theorem test_crystal_ready_leaves_clocking :
    (after .crystalReady (after (.configLoadGood image) State.reset)).line.state = .listening := by decide +kernel
theorem test_bad_load : (after .configLoadBad State.reset).line.state = .unconfigured := by decide +kernel
theorem test_cold_opening :
    (after .coldOpeningReadBack (after .coldWaitExpiry
      (rigLine fun l => { l with state := .listening, coldWait := some 0 }))).line.state = .member := by
  decide +kernel
/-- A filling steep draws with its WATER held, and not without. -/
theorem test_fill_valve :
    let s := rigCh 0 (running .wet (some .filling))
    s.outputs 0 = ⟨0, 0, 0, 0⟩
      ∧ ({ s with own := [claim 0 0 .water 3 .held] } : State).outputs 0 = ⟨1, 0, 0, 0⟩ := by decide
/-- With a rating of 30 kW and 12 kW held the fan runs at no more than 40 % (R50's example). -/
theorem test_fan_cap : fanCap 30 12 = 40 := by decide
/-- A half rounds up: 1 mm at 0.050 gu/mm is 0.05 gu, and so 0.1 gu (R149). -/
theorem test_gauge_half : gaugeOf 1 50 0 = 1 := by decide
theorem test_gauge_below : gaugeOf 1 49 0 = 0 := by decide
/-- A take of what the allowance leaves is lawful, and of one more is not (R40). -/
theorem test_lawful :
    lawful rig.cfg true claimed.claims (entry 5 1 0 .power 30 .waiting) = true
      ∧ lawful rig.cfg true claimed.claims (entry 5 1 0 .power 31 .waiting) = false
      ∧ lawful rig.cfg true claimed.claims (entry 5 1 0 .water 1 .waiting) = false := by decide
/-- A list that names nothing of a sender releases what it held (R34). -/
theorem test_release :
    (applyList rig.cfg true 5 [] claimed.claims).table = [entry 3 0 0 .water 6 .holding] := by decide
/-- The base of a merge counts its top-up, and the sum stays (R42, log entry 15). -/
theorem test_merge :
    let t := [entry 5 0 0 .power 6 .holding, entry 5 0 1 .power 4 .holding]
    let i : ClaimItem := {
      channel := 0, slot := 0, hold := true, resource := .power, amount := 10, priority := 3, age := 0,
      sheddable := false, shed := false, detail := none, merged := some 1 }
    (applyList rig.cfg true 5 [i] t).table = [entry 5 0 0 .power 10 .holding] := by decide
theorem test_hold : ((after (.hold 0) (rigCh 0 (running .wet (some .filling)))).ch 0).state = .paused := by decide +kernel
theorem test_release_wet_serial :
    ((after (.release 0) (rigCh 0 fun h => { h with state := .ready, current := some (record .wet) })).ch 0).piece
      = some { id := 0x1800#16, lot := 7, stage := .steep } := by decide +kernel
theorem test_turn_done : (after .turnerTurnDone (turning .turning)).turner.position = some 4 := by decide +kernel
/-- A claim HELD and one asked again in a slot dropped before, the entries of both posted. -/
def postedBoth : State :=
  { rigLine fun l => { l with isolation := some 2000 } with
    own := [claim 1 0 .power 5 .held, claim 1 1 .power 3 .asked]
    claims := [{ entry 3 1 0 .power 5 .holding with posted := true },
      { entry 3 1 1 .power 3 .holding with posted := true }] }

/-- Isolation clears the posted flag of the HELD claim's entry alone (R33, R30). -/
theorem test_isolation_posted : (after .isolationTimerExpiry postedBoth).claims.map (·.posted) = [false, true] := by
  decide +kernel

/-- A kiln in PAUSED(STEP) with its base HELD again after a restart and its top-up still asked. -/
def restartedKiln : State :=
  { rigCh 2 fun h => { pausedFor .step none h with
      piece := some gaugedPiece, completedHere := true, current := some (record .peat), wait := { claim := true } } with
    own := [claim 2 0 .power 3 .held, { claim 2 1 .power 2 .asked with base := some 0, restartAsk := true }] }

/-- RELEASE from STEP empties the wait set, and the top-up beside a HELD base sets no CLAIM_WAIT (R54, R116); from
OFFER_UNANSWERED it completes a due CAST and offers no more (R55, R138); TURN_WAIT does not outlive the TURN (R99). -/
theorem test_release_paused :
    startCheck (restartedKiln.ch 2) (record .peat) false = none
      ∧ ((after (.release 2) restartedKiln).ch 2).wait = {}
      ∧ (after (.release 2) restartedKiln).own.map (·.restartAsk) = [false, false]
      ∧ ((after (.release 0) (rigCh 0 dueInOffer)).ch 0).state = .idle
      ∧ ((after (.release 0) (rigCh 0 dueInOffer)).ch 0).records.map (·.reason) = [.cast]
      ∧ ((after (.release 1) (rigCh 1 dueTurn)).ch 1).state = .starved
      ∧ ((after (.release 1) (rigCh 1 dueTurn)).ch 1).wait = {} := by decide +kernel
/-- A HALTED box whose phase is at 60 s of a ramp of 2 minutes from 100 to 150, just after a PIN reset (R75, R67). -/
def haltedRamp : Channel :=
  { running .grow (some .growing) (rig.ch 1) with
    state := .halted, current := some { record .grow with ramp := 2 }, timer := seconds 60, rampStart := some 100 }

theorem test_halted_setpoint :
    (setpointAtArrival haltedRamp).setpoint = some 125
      ∧ (setpointAtArrival { haltedRamp with setpoint := some 110, timer := 0 }).setpoint = some 110 := by decide
theorem test_discard_accepted :
    let s := (rigCh 0 fun h => { castingAt h with
      xfer := { state := .accepted, partner := some ⟨5, 1⟩, piece := some piece.id, acceptedOnce := true } }).discardPiece 0
    (s.ch 0).xfer.state = .none ∧ s.castends.map (·.item) = [⟨0, ⟨5, 1⟩, .cancelled piece.id⟩] := by decide +kernel
theorem test_take_book : (after (.takeBook 4#24) booked).book.entries = [bookEntry 5] := by decide +kernel
theorem test_idle_tick : (step rig) = .next rig.tick := by rfl

end Sys2Proof.Tests
end

/-! ## Proofs: the Panel Port (chapter 10)

The event queue with its overflow count (R184), what each reset leaves of the Panel Port (R188), and the fault record
with its READ_FAULT (R186, R187). First what each operation does, then the two statements assembled from it. -/

namespace Sys2Proof.Machine

/-! ### Where an event goes (R184) -/

/-- `raise` written with its top where it stops, as the rules of a saturating count read. -/
theorem raise_of_le {top n : Nat} (h : n ≤ top) : raise top n = if n < top then n + 1 else top := by
  unfold raise
  split
  · rfl
  · next hge => exact le_antisymm h (not_lt.mp hge)

theorem Panel.queue_stores {p : Panel} (round : Word16) (e : Event) (hnone : p.overflow = 0)
    (hplace : p.events.length < 16) : p.queue round e = { p with events := p.events ++ [e] } := by
  rw [Panel.queue, if_pos hnone, if_pos hplace]

theorem Panel.queue_stores_behind_overrun {p : Panel} (round : Word16) (e : Event) (hlost : 1 ≤ p.overflow)
    (htwo : p.events.length ≤ 14) :
    p.queue round e = { p with
      events := p.events ++ [⟨.overrun, none, none, round, [0, 0, 0, p.overflow]⟩, e], overflow := 0 } := by
  rw [Panel.queue, if_neg (Nat.pos_iff_ne_zero.mp hlost), if_pos (Nat.add_le_add_right htwo 2)]

/-- Too few places free: all are taken, or the last one is kept free for what an OVERRUN entry precedes. -/
theorem Panel.queue_counts {p : Panel} (round : Word16) (e : Event) (hfew : 15 ≤ p.events.length)
    (hfull : p.overflow = 0 → 16 ≤ p.events.length) :
    p.queue round e = { p with overflow := raise 255 p.overflow } := by
  by_cases hnone : p.overflow = 0
  · rw [Panel.queue, if_pos hnone, if_neg (hfull hnone).not_gt, hnone]
    rfl
  · rw [Panel.queue, if_neg hnone, if_neg (by omega)]

theorem State.eventFlag_iff (s : State) : s.eventFlag = true ↔ s.panel.events ≠ [] := by
  simp [State.eventFlag]

/-! ### The Panel Port after a reset (R188) -/

@[simp] theorem State.poweredUp_panel (s : State) (held : Bool) : (s.poweredUp held).panel = Panel.start := rfl

@[simp] theorem State.pinTaken_panel (s : State) : s.pinTaken.panel = Panel.start := rfl

/-- Whichever reset RESET's low level brings, the Panel Port starts anew. -/
theorem State.takePin_panel {s : State} (hheld : s.loader.held = false) : s.takePin.panel = Panel.start := by
  rw [State.takePin, if_neg (ne_true_of_eq_false hheld)]
  split
  · exact s.poweredUp_panel true
  · exact s.pinTaken_panel

theorem exec_powerUpReset_panel {low : Bool} {s t : State} (h : exec (.powerUpReset low) s = .next t) :
    t.panel = Panel.start := by
  cases h
  exact s.poweredUp_panel low

theorem exec_pinReset_panel {s t : State} (hheld : s.loader.held = false) (h : exec .pinReset s = .next t) :
    t.panel = Panel.start := by
  cases h
  exact State.takePin_panel hheld

theorem Panel.start_queue_empty : Panel.start.events = [] ∧ Panel.start.overflow = 0 := ⟨rfl, rfl⟩

/-- Settles O54, by the four cases of an event to be queued and by what each reset leaves of the Panel Port. -/
theorem eventQueueOverflowRule : Obligations.EventQueueOverflowRule := by
  refine ⟨fun p round e _ htop => ⟨?stores, ?full, ?overrun, ?onePlace⟩, State.eventFlag_iff, ?powerUp, ?pin⟩
  case stores => exact Panel.queue_stores round e
  case full =>
    intro hfull
    rw [Panel.queue_counts round e (by omega) (fun _ => hfull.ge), raise_of_le htop]
  case overrun => exact Panel.queue_stores_behind_overrun round e
  case onePlace =>
    intro hlost hone
    rw [Panel.queue_counts round e hone.ge (by omega), raise_of_le htop]
  case powerUp =>
    intro low s t h
    rw [exec_powerUpReset_panel h]
    exact Panel.start_queue_empty
  case pin =>
    intro s t hheld h
    rw [exec_pinReset_panel hheld h]
    exact Panel.start_queue_empty

/-! ### Requests, the reply and the fault record (R178, R182, R186, R187) -/

theorem State.request_of_not_busy {s : State} (hfree : s.busy = false) (f : State → State) :
    s.request f = .next (f s) := by
  rw [State.request, if_neg (ne_true_of_eq_false hfree)]

@[simp] theorem State.okData_panel (s : State) (code : Byte) (data : List Nat) :
    (s.okData code data).panel = { s.panel with reply := ⟨code, .ok, toBytes data⟩ } := rfl

@[simp] theorem State.faultRead_panel (s : State) :
    s.faultRead.panel = { s.panel with record := none, fault := false } := rfl

@[simp] theorem State.clearFlags_panel (s : State) (m : Mask) :
    (s.clearFlags m).panel = { s.panel with
      lineState := s.panel.lineState && !m.lineState, xtal := s.panel.xtal && !m.xtal,
      bookFull := s.panel.bookFull && !m.bookFull, fault := s.panel.fault && !m.fault } := rfl

@[simp] theorem State.recordFault_panel (s : State) (kind : FaultKind) (station channel : Option Nat) :
    (s.recordFault kind station channel).panel = { s.panel with
      record := some { kind := kind, station := station, channel := channel, round := s.line.round,
                       more := s.panel.record.isSome }
      fault := true } := rfl

@[simp] theorem State.recordFault_busy (s : State) (kind : FaultKind) (station channel : Option Nat) :
    (s.recordFault kind station channel).busy = s.busy := by
  simp only [State.busy, State.recordFault_frame]

/-- The state READ_FAULT leaves: record and flag cleared, the reply the record that stood. -/
theorem exec_readFault {s : State} (hfree : s.busy = false) :
    exec .readFault s = .next (s.faultRead.okData 16#8 (faultObject s.panel.record)) := by
  change execReadFault s = _
  rw [execReadFault, State.request_of_not_busy hfree]

theorem exec_clearChanges {s : State} (mask : Byte) (hfree : s.busy = false) :
    exec (.clearChanges mask) s = .next ((s.clearFlags (maskOf mask)).okData 13#8
      (flagBytes (s.clearFlags (maskOf mask)).changeFlags)) := by
  change execClearChanges mask s = _
  rw [execClearChanges, State.request_of_not_busy hfree]

/-- The empty record begins with kind none and ends with MORE clear. -/
theorem faultObject_none : faultObject none = 0 :: (zeros 6 ++ [0]) := rfl

/-- Settles O55, by the state READ_FAULT and CLEAR_CHANGES leave and by what a recording writes. -/
theorem readFaultReturnsAndEmpties : Obligations.ReadFaultReturnsAndEmpties := by
  refine ⟨fun s hfree => ?answers, fun s hfree hempty => ?empty, fun s k a c hfree => ?before,
    fun s k a c hfree => ?after, fun s mask hfree hmark => ?clear⟩
  case answers => exact exec_readFault hfree
  case empty =>
    refine ⟨_, zeros 6, exec_readFault hfree, ?_⟩
    rw [State.okData_panel, hempty, faultObject_none]
  case before =>
    have hfree' : (s.recordFault k a c).busy = false := by rw [State.recordFault_busy, hfree]
    exact ⟨_, exec_readFault hfree', by simp, by simp, by simp⟩
  case after => exact ⟨_, exec_readFault hfree, by simp, by simp⟩
  case clear =>
    have hfault : (maskOf mask).fault = true := hmark
    exact ⟨_, exec_clearChanges mask hfree, by simp [hfault], by simp⟩

end Sys2Proof.Machine

/-! ## Proofs: how the station steps (the dispatch of the commands)

Every meaning answers a next state, and a request is taken or leaves the station as it is (R178). What a command keeps is
shown row by row, with one rule for each way in which a meaning is put together. -/

namespace Sys2Proof.Machine

/-! ### Outcomes -/

/-- The outcome is a next state with the property. -/
def Lands (P : State → Prop) (o : Out) : Prop := ∃ t, o = .next t ∧ P t

theorem lands_next {P : State → Prop} {t : State} (h : P t) : Lands P (.next t) := ⟨t, rfl, h⟩

theorem lands_ite {P : State → Prop} {s t : State} {p : Prop} [Decidable p] (hs : P s) (h : p → P t) :
    Lands P (.next (if p then t else s)) := by
  refine lands_next ?_
  split
  next hp => exact h hp
  next => exact hs

theorem State.request_lands {P : State → Prop} {s : State} {f : State → State} (hs : P s)
    (h : s.busy = false → P (f s)) : Lands P (s.request f) := by
  refine lands_next ?_
  split
  next => exact hs
  next hfree => exact h (by simpa using hfree)

/-- A channel request answers with a reply alone, or does what its kind of channel gives. -/
theorem State.channelRequest_lands {P : State → Prop} {s : State} {code : Byte} {n : Nat} {turner : State → State}
    {f : Fin 6 → State → State} (hs : P s) (hanswer : ∀ r d, P (s.answer code r d)) (ht : P (turner s))
    (hf : ∀ c, s.busy = false → P (f c s)) : Lands P (s.channelRequest code n turner f) := by
  refine State.request_lands hs fun hfree => ?_
  split
  next => exact hanswer _ _
  next c _ =>
    split
    · exact hanswer _ _
    · exact ht
    all_goals exact hf c hfree

theorem State.vesselRequest_lands {P : State → Prop} {s : State} {code : Byte} {n : Nat}
    {f : Fin 6 → State → State} (hs : P s) (hanswer : ∀ r d, P (s.answer code r d))
    (hf : ∀ c, s.busy = false → P (f c s)) : Lands P (s.vesselRequest code n f) :=
  State.channelRequest_lands hs hanswer (hanswer _ _) hf

theorem State.readChannel_lands {P : State → Prop} {s : State} {n : Nat} {f : Fin 6 → State → List Nat} (hs : P s)
    (hanswer : ∀ r d, P (s.answer readCode r d)) : Lands P (s.readChannel n f) := by
  refine State.request_lands hs fun _ => ?_
  split
  all_goals exact hanswer _ _

theorem State.readIndex_lands {P : State → Prop} {s : State} {ok : Bool} {f : State → List Nat} (hs : P s)
    (hanswer : ∀ r d, P (s.answer readCode r d)) : Lands P (s.readIndex ok f) := by
  refine State.request_lands hs fun _ => ?_
  split
  all_goals exact hanswer _ _

/-! ### Every row answers a next state -/

/-- The queue of waiting commands is that of `s`. -/
def SameQueue (s t : State) : Prop := t.pending = s.pending

theorem exec_lands_sameQueue (i : Instr) (s : State) : Lands (SameQueue s) (exec i s) := by
  have hs : SameQueue s s := rfl
  have hanswer (code : Byte) (r : Result) (d : List Nat) : SameQueue s (s.answer code r d) := rfl
  cases i with
  | powerUpReset _ => exact lands_next rfl
  | pinReset | resetEnd | configLoadBad | stabilizationRestart | crystalReady | crystalLost
  | coldWaitExpiry | openingInstantReached | turnSlotReached | joinWindowOpens | muteTimerExpiry =>
    exact lands_next (by simp [SameQueue])
  | configLoadGood _ | phaseDurationReached _ | blowerOnEdge _ | blowerOffEdge _ | airRestEdge _
  | sprayIntervalEdge _ => exact lands_next (by simp [SameQueue])
  | joinColdWaitExpiry | joinDelayExpiry | muteEntry | garbledFrame | joinWindowCloses | joiningEntry | muteEnd
  | isolationTimerExpiry | travelEnd | turnerTurnDone | lineFrameStart =>
    exact lands_ite hs fun _ => by simp [SameQueue]
  | peerLost _ | orphanAcceptLimit _ | offerUnanswered _ | breakthrough _ | flameFail _ | powerLimitedTopUp _
  | turnerOverloadFault _ | gatePulseEnd _ => exact lands_ite hs fun _ => by simp [SameQueue]
  | measurementArrival _ _ | sensorFault _ _ | levelSteady _ _ | moistureMade _ _ =>
    exact lands_ite hs fun _ => by simp [SameQueue]
  | ownFrameAborted _ | ownTurnReadBack | ownJoinReadBack | coldOpeningReadBack =>
    exact lands_next (by split <;> simp [SameQueue])
  | validTurnFrameHeard _ | validJoinFrameHeard _ =>
    exact lands_ite hs fun _ => by split <;> simp [SameQueue]
  | standTimeReached _ | fillLimitReached _ | settleEnd _ | turnLimitReached _ | blendWindowBegins _ =>
    exact lands_next (by split <;> [split; skip] <;> simp [SameQueue])
  | hold _ | release _ | channelReset _ | withdrawOffer _ =>
    exact State.vesselRequest_lands hs (hanswer _) fun _ _ => by simp [SameQueue]
  | clearHalt _ =>
    exact State.channelRequest_lands hs (hanswer _) (by simp [SameQueue]) fun _ _ => by simp [SameQueue]
  | loadPhase _ _ =>
    unfold exec execLoadPhase
    exact State.vesselRequest_lands hs (hanswer _) fun _ _ => by split <;> simp [SameQueue]
  | setStep _ _ =>
    unfold exec execSetStep
    exact State.vesselRequest_lands hs (hanswer _) fun _ _ => by simp [SameQueue]
  | discard _ _ =>
    unfold exec execDiscard
    exact State.vesselRequest_lands hs (hanswer _) fun _ _ => by simp [SameQueue]
  | handGauge _ _ _ _ =>
    unfold exec execHandGauge
    exact State.vesselRequest_lands hs (hanswer _) fun _ _ => by split <;> simp [SameQueue]
  | readChannelStatus _ => unfold exec execReadChannelStatus; exact State.readChannel_lands hs (hanswer _)
  | readPhaseRecord _ _ => unfold exec execReadPhaseRecord; exact State.readChannel_lands hs (hanswer _)
  | readPieceRecord _ => unfold exec execReadPieceRecord; exact State.readChannel_lands hs (hanswer _)
  | readCompletionRecord _ _ =>
    show Lands _ (execReadCompletionRecord _ _ s)
    unfold execReadCompletionRecord
    split
    · exact State.readChannel_lands hs (hanswer _)
    · exact State.request_lands hs fun _ => hanswer _ _ _
  | readClaimTableEntry _ => unfold exec execReadClaimTableEntry; exact State.readIndex_lands hs (hanswer _)
  | readBookEntry _ => unfold exec execReadBookEntry; exact State.readIndex_lands hs (hanswer _)
  | takeBook _ => unfold exec execTakeBook; exact State.request_lands hs fun _ => by simp [SameQueue]
  | setRestartHold _ => unfold exec execSetRestartHold; exact State.request_lands hs fun _ => rfl
  | readStationStatus _ =>
    unfold exec execReadStationStatus; exact State.request_lands hs fun _ => by simp [SameQueue]
  | readPeerTable => unfold exec execReadPeerTable; exact State.request_lands hs fun _ => hanswer _ _ _
  | readLineCounters => unfold exec execReadLineCounters; exact State.request_lands hs fun _ => rfl
  | readPieceCounters => unfold exec execReadPieceCounters; exact State.request_lands hs fun _ => hanswer _ _ _
  | clearChanges _ => unfold exec execClearChanges; exact State.request_lands hs fun _ => rfl
  | setAttentionMask _ => unfold exec execSetAttentionMask; exact State.request_lands hs fun _ => rfl
  | popEvent => unfold exec execPopEvent; exact State.request_lands hs fun _ => rfl
  | readFault => unfold exec execReadFault; exact State.request_lands hs fun _ => rfl
  | badRequest _ => unfold exec execBadRequest; exact State.request_lands hs fun _ => by split <;> rfl

/-- Settles O3, by one case for each row of the table. -/
theorem everyCommandGoesOn : Obligations.EveryCommandGoesOn := exec_lands_sameQueue

/-! ### One step -/

/-- Settles O1: a command is waiting. -/
theorem stepRunsFrontCommand : Obligations.StepRunsFrontCommand := fun _ _ _ => rfl

theorem step_of_pending_nil {s : State} (h : s.pending = []) : step s = s.idle := by
  rw [step, h]

/-- Settles O2, by whether the list of due events holds one. -/
theorem idleStepTakesDueEventOrTick : Obligations.IdleStepTakesDueEventOrTick := by
  intro s hnone
  refine ⟨fun i l hdue => ?due, fun hdue => ?tick⟩ <;> rw [step_of_pending_nil hnone, State.idle, hdue]

/-- What every command and the tick keep, and the queue does not matter to, every step keeps. -/
theorem step_keeps {P : State → Prop} (hqueue : ∀ s l, P s → P { s with pending := l })
    (hexec : ∀ i s, P s → Lands P (exec i s)) (htick : ∀ s, P s → P s.tick) {s t : State} (hs : P s)
    (h : step s = .next t) : P t := by
  have hlands : Lands P (step s) := by
    unfold step
    split
    next i rest _ => exact hexec i _ (hqueue s rest hs)
    next =>
      unfold State.idle
      split
      next i _ _ => exact hexec i s hs
      next => exact lands_next (htick s hs)
  obtain ⟨u, hu, hP⟩ := hlands
  rw [h] at hu
  exact (Host.Outcome.next.inj hu) ▸ hP

end Sys2Proof.Machine

/-! ## Proofs: the Claim Table within its allowances (chapter 2)

The table is safe on its own (`TableSafe`), whatever becomes of its channels: a list applied, an expiry, a voiding keep it
so. A command that finds the station in a reset or its load finds it in CLOCKING and changes nothing of the line. -/

namespace Sys2Proof.Machine

/-! ### The table of the station -/

/-- The station's own Claim Table is safe. -/
def State.TableOk (s : State) : Prop := TableSafe s.cfg s.claims

theorem State.TableOk.same {s t : State} (h : s.TableOk) (he : t.cfg = s.cfg ∧ t.claims = s.claims) : t.TableOk := by
  unfold State.TableOk
  rw [he.1, he.2]
  exact h

theorem State.TableOk.of_nil {s : State} (h : s.claims = []) : s.TableOk := by
  unfold State.TableOk
  rw [h]
  exact ⟨List.Pairwise.nil, Nat.zero_le _, fun _ => Nat.zero_le _⟩

namespace State.TableOk

theorem voidHoldings {s : State} (h : s.TableOk) : s.voidHoldings.TableOk := by
  unfold State.TableOk
  rw [State.voidHoldings_claims]
  simp only [State.voidHoldings_frame]
  exact TableSafe.map h _ fun e => by split <;> exact ⟨rfl, rfl, rfl, rfl⟩

theorem setClaims {s : State} {t : List ClaimEntry} (h : TableSafe s.cfg t) (l : List TurnerReport) :
    (s.setClaims t l).TableOk := by
  unfold State.setClaims
  exact (show State.TableOk { s with claims := posted s.cfg t } from posted_safe h).same (by simp)

theorem applyClaims {s : State} (h : s.TableOk) (sender : Nat) (items : List ClaimItem) (ok : Bool) :
    (s.applyClaims sender items ok).TableOk :=
  setClaims (by simpa using applyList_safe h ok sender items) _

theorem expireClaims {s : State} (h : s.TableOk) (station : Nat) : (s.expireClaims station).TableOk :=
  setClaims (TableSafe.filter h _) _

theorem clearClaims (s : State) : s.clearClaims.TableOk := of_nil (by simp [State.clearClaims])

theorem takeSender {s : State} (h : s.TableOk) (x : Option Nat) : (s.takeSender x).TableOk := h.same (by simp)

theorem depart (s : State) : s.depart.TableOk := by
  unfold State.depart
  exact (clearClaims s.ownAbsent).voidHoldings.same (by simp)

theorem departIfMember {s : State} (h : s.TableOk) : s.departIfMember.TableOk := by
  unfold State.departIfMember
  split
  · exact depart s
  · exact h

theorem enterMute {s : State} (h : s.TableOk) : s.enterMute.TableOk := h.departIfMember.same (by simp [State.enterMute])

theorem emptyTable (s : State) : s.emptyTable.TableOk := by
  unfold State.emptyTable
  split
  · exact depart s
  · exact clearClaims s

theorem enterClocking (s : State) : s.enterClocking.TableOk := (emptyTable s).same (by simp [State.enterClocking])

theorem lose {s : State} (h : s.TableOk) (a : Nat) : (s.lose a).TableOk :=
  (h.expireClaims a).same (by simp [State.lose])

theorem losePeer {s : State} (h : s.TableOk) (a : Nat) : (s.losePeer a).TableOk := by
  unfold State.losePeer
  exact State.TableOk.lose (h.same (by simp)) a

theorem charge {s : State} (h : s.TableOk) (a : Nat) : (s.charge a).TableOk := by
  unfold State.charge
  dsimp only
  split
  · exact h
  · split
    · exact State.TableOk.losePeer (h.same (by simp)) a
    · exact h.same (by simp)

theorem chargeAll {s : State} (h : s.TableOk) (l : List Nat) : (s.chargeAll l).TableOk := by
  unfold State.chargeAll
  induction l generalizing s with
  | nil => exact h
  | cons a r ih => exact ih (h.charge a)

theorem judgeDissent {s : State} (h : s.TableOk) (opener : Nat) (digest : Word16) :
    (s.judgeDissent opener digest).TableOk := by
  unfold State.judgeDissent
  split
  · split
    · exact h.same (by simp)
    · split
      · exact h
      · exact h.voidHoldings.same (by simp)
  · exact h

theorem heardOpening {s : State} (h : s.TableOk) (f : TurnFrame) : (s.heardOpening f).TableOk := by
  unfold State.heardOpening
  dsimp only
  have hjudged := State.TableOk.judgeDissent (s := s.modLine fun l => { l with round := f.round })
    (h.same (by simp)) f.sender f.digest
  split
  · exact hjudged.same (by simp)
  · exact hjudged.same (by simp)

theorem isolate {s : State} (h : s.TableOk) : s.isolate.TableOk := by
  unfold State.isolate
  exact h.voidHoldings.same (by simp)

theorem abortCounted {s : State} (h : s.TableOk) : s.abortCounted.TableOk := by
  unfold State.abortCounted
  split
  · exact State.TableOk.enterMute (h.same (by simp))
  · exact h.same (by simp)

theorem aborted {s : State} (h : s.TableOk) (own : OwnFrame) (other : Bool) : (s.aborted own other).TableOk := by
  have hends : (s.abortEnds own other).TableOk := h.same (by simp)
  unfold State.aborted
  split
  · exact hends
  · exact hends.abortCounted
  · exact hends.abortCounted

theorem abortsTwice {s : State} (h : s.TableOk) : s.abortsTwice.TableOk := by
  unfold State.abortsTwice
  refine State.TableOk.enterMute (h.same ?_)
  split <;> simp

theorem ownContent {s : State} (h : s.TableOk) (f : TurnFrame) (ok : Bool) : (s.ownContent f ok).TableOk := by
  unfold State.ownContent
  dsimp only
  have hcharged : ((s.hearHeader f).chargeAll (s.chargedBy f.sender f.opening)).TableOk :=
    State.TableOk.chargeAll (h.same (by simp)) _
  exact (hcharged.applyClaims f.sender f.claims ok).same (by simp)

theorem turnRead {s : State} (h : s.TableOk) (f : TurnFrame) (ok : Bool) : (s.turnRead f ok).TableOk := by
  unfold State.turnRead
  dsimp only
  refine State.TableOk.takeSender (State.TableOk.ownContent (h.same ?_) f ok) _
  split <;> simp

theorem coldRead {s : State} (h : s.TableOk) (f : TurnFrame) (ok : Bool) : (s.coldRead f ok).TableOk := by
  unfold State.coldRead
  exact State.TableOk.takeSender (State.TableOk.ownContent (h.same (by simp)) f ok) _

theorem duplicate {s : State} (h : s.TableOk) : s.duplicate.TableOk := h.enterMute.same (by simp [State.duplicate])

theorem hearRound {s : State} (h : s.TableOk) (f : TurnFrame) (late : Bool) : (s.hearRound f late).TableOk := by
  unfold State.hearRound
  dsimp only
  split
  · split
    · exact (h.heardOpening f).same (by simp)
    · exact (h.heardOpening f).same (by simp)
  · split
    · exact h.same (by simp)
    · exact h.same (by simp)

theorem hearContent {s : State} (h : s.TableOk) (f : TurnFrame) : (s.hearContent f).TableOk := by
  unfold State.hearContent
  dsimp only
  have hcharged : (((s.hearHeader f).heardOther).chargeAll (s.chargedBy f.sender f.opening)).TableOk :=
    State.TableOk.chargeAll (h.same (by simp)) _
  have happlied := hcharged.applyClaims f.sender f.claims
    (((s.hearHeader f).heardOther).chargeAll (s.chargedBy f.sender f.opening)).turnerOk
  exact happlied.same (by simp)

theorem hearTurn {s : State} (h : s.TableOk) (f : TurnFrame) : (s.hearTurn f).TableOk := by
  have hend : s.frameEnd.restartCold.TableOk := h.same (by simp)
  unfold State.hearTurn
  dsimp only
  split
  · exact hend.duplicate.takeSender _
  · exact ((hend.hearRound f _).hearContent f).takeSender _

theorem windowAtEnd {s : State} (h : s.TableOk) : s.windowAtEnd.TableOk := h.same (by simp)

theorem startCold {s : State} (h : s.TableOk) : s.startCold.TableOk := h.same (by simp)

theorem hearJoin {s : State} (h : s.TableOk) (f : JoinFrame) : (s.hearJoin f).TableOk := by
  have hend : s.frameEnd.restartCold.TableOk := h.same (by simp)
  unfold State.hearJoin
  dsimp only
  refine State.TableOk.windowAtEnd ?_
  split
  · exact hend.same (by simp)
  · split
    · exact hend.duplicate
    · exact hend.same (by simp)

theorem hearGarbled {s : State} (h : s.TableOk) : s.hearGarbled.TableOk := by
  unfold State.hearGarbled
  extract_lets b charged s1 s2 s3 last s4
  have hends : s1.TableOk := h.same (by simp [s1])
  have hopened : s2.TableOk := by
    refine hends.same ?_
    simp only [s2]
    split
    · split <;> simp
    · simp
    · simp
  have hcharged : s3.TableOk := State.TableOk.chargeAll (hopened.same (by simp)) charged
  have hplaced : s4.TableOk := by
    refine hcharged.same ?_
    simp only [s4]
    split <;> simp
  split
  · exact hplaced.startCold
  · exact hplaced

theorem openWindow {s : State} (h : s.TableOk) : s.openWindow.TableOk := h.same (by simp)

theorem windowBySilence {s : State} (h : s.TableOk) : s.windowBySilence.TableOk := by
  unfold State.windowBySilence
  split
  · split
    · exact (h.chargeAll _).openWindow
    · exact h
  · exact h

theorem ite {s t : State} {p : Prop} [Decidable p] (h : s.TableOk) (ht : t.TableOk) : (if p then t else s).TableOk := by
  split
  · exact ht
  · exact h

end State.TableOk

/-! ### A step of a safe station -/

namespace State.ClaimsSafe

theorem table {s : State} (h : s.ClaimsSafe) : s.TableOk := by
  obtain ⟨hordered, hlength, hwithin, _⟩ := h
  exact ⟨hordered, hlength, hwithin⟩

theorem shut {s : State} (h : s.ClaimsSafe) : s.Shut := h.2.2.2

theorem mk {s : State} (h : s.TableOk) (hshut : s.Shut) : s.ClaimsSafe := by
  obtain ⟨hordered, hlength, hwithin⟩ := h
  exact ⟨hordered, hlength, hwithin, hshut⟩

theorem of_not_busy {s : State} (h : s.TableOk) (hfree : s.busy = false) : s.ClaimsSafe :=
  mk h fun hbusy => absurd (hfree.symm.trans hbusy) Bool.false_ne_true

theorem of_nil {s : State} (h : s.claims = []) (hline : s.line.state = .clocking) (hsending : s.line.sending = none)
    (hloaded : s.loader.loaded = false) : s.ClaimsSafe :=
  mk (.of_nil h) fun _ => ⟨h, hline, hsending, hloaded⟩

/-- A command on the line leaves a station in CLOCKING alone, and keeps the table of any other. -/
theorem onLine {s t : State} (h : s.ClaimsSafe) (htable : t.TableOk) (hloader : t.loader = s.loader)
    (hclocking : s.line.state = .clocking → s.line.sending = none → t.claims = s.claims ∧ t.line = s.line) :
    t.ClaimsSafe := by
  refine mk htable fun hbusy => ?_
  obtain ⟨hnone, hline, hsending, hloaded⟩ := h.shut (by simpa [State.busy, hloader] using hbusy)
  obtain ⟨hclaims, hsame⟩ := hclocking hline hsending
  rw [hclaims, hsame, hloader]
  exact ⟨hnone, hline, hsending, hloaded⟩

/-- A command that is not on the line keeps all that the table is judged by. -/
theorem quiet {s t : State} (h : s.ClaimsSafe)
    (he : t.cfg = s.cfg ∧ t.claims = s.claims ∧ t.line = s.line ∧ t.loader = s.loader) : t.ClaimsSafe := by
  obtain ⟨hcfg, hclaims, hline, hloader⟩ := he
  exact h.onLine (h.table.same ⟨hcfg, hclaims⟩) hloader fun _ _ => ⟨hclaims, hline⟩

/-- A request that finds no reset and no load keeps the table. -/
theorem requested {s t : State} (h : s.ClaimsSafe) (hfree : s.busy = false)
    (he : t.cfg = s.cfg ∧ t.claims = s.claims ∧ t.loader.held = s.loader.held ∧ t.loader.loading = s.loader.loading) :
    t.ClaimsSafe := by
  obtain ⟨hcfg, hclaims, hheld, hloading⟩ := he
  refine of_not_busy (h.table.same ⟨hcfg, hclaims⟩) ?_
  rw [State.busy, hheld, hloading]
  exact hfree

theorem takePin {s : State} (h : s.ClaimsSafe) : s.takePin.ClaimsSafe := by
  unfold State.takePin
  split
  · exact h
  · split
    · exact of_nil rfl rfl rfl rfl
    · exact of_nil rfl rfl rfl rfl

theorem endReset {s : State} (h : s.ClaimsSafe) : s.endReset.ClaimsSafe := by
  unfold State.endReset
  split
  next hheld =>
    obtain ⟨hnone, hline, hsending, hloaded⟩ := h.shut (by simp [State.busy, hheld])
    exact of_nil hnone hline hsending hloaded
  next => exact h

theorem endLoad {s : State} (h : s.ClaimsSafe) (image : List Byte) : (s.endLoad image).ClaimsSafe := by
  unfold State.endLoad
  split
  next hload =>
    obtain ⟨hloading, hheld⟩ : s.loader.loading = true ∧ s.loader.held = false := by simpa using hload
    obtain ⟨hnone, _, _, _⟩ := h.shut (by simp [State.busy, hloading])
    split
    · refine of_not_busy (.of_nil (by simpa using hnone)) ?_
      simp [State.goodLoad, State.busy, hheld, State.loadImage]
    · refine of_not_busy (.of_nil (by simpa using hnone)) ?_
      cases hkind : s.loader.kind <;> simp [State.badLoad, State.busy, hheld, hkind]
  next => exact h

theorem endBadLoad {s : State} (h : s.ClaimsSafe) : s.endBadLoad.ClaimsSafe := by
  unfold State.endBadLoad
  split
  next hload =>
    obtain ⟨hloading, hheld⟩ : s.loader.loading = true ∧ s.loader.held = false := by simpa using hload
    obtain ⟨hnone, _, _, _⟩ := h.shut (by simp [State.busy, hloading])
    refine of_not_busy (.of_nil (by simpa using hnone)) ?_
    cases hkind : s.loader.kind <;> simp [State.badLoad, State.busy, hheld, hkind]
  next => exact h

theorem crystalIsReady {s : State} (h : s.ClaimsSafe) : s.crystalIsReady.ClaimsSafe := by
  refine mk (h.table.same (by simp)) fun hbusy => ?_
  obtain ⟨hnone, hline, hsending, hloaded⟩ := h.shut (by simpa [State.busy] using hbusy)
  have hsame : s.crystalIsReady.line = s.line := by
    unfold State.crystalIsReady
    split
    · simp [State.leaveClocking, hloaded]
    · rfl
  simp [hsame, hnone, hline, hsending, hloaded]

theorem crystalIsLost {s : State} (h : s.ClaimsSafe) : s.crystalIsLost.ClaimsSafe := by
  unfold State.crystalIsLost
  split
  · dsimp only
    split
    next hhears =>
      refine h.onLine (.enterClocking _) (by simp) fun hline _ => ?_
      simp [hline, LineState.hears] at hhears
    next => exact h.quiet (by simp)
  · exact h

theorem tick {s : State} (h : s.ClaimsSafe) : s.tick.ClaimsSafe := by
  unfold State.tick
  extract_lets _ s1 s2
  have hwait : s1.cfg = s.cfg ∧ s1.claims = s.claims ∧ s1.loader = s.loader ∧ s1.line = s.line := by
    simp only [s1]
    split <;> simp
  obtain ⟨hcfg, hclaims, hloader, hline⟩ := hwait
  have hlineTimes : s2.cfg = s.cfg ∧ s2.claims = s.claims ∧ s2.loader = s.loader
      ∧ (s.line.state = .clocking → s2.line = s.line) := by
    simp only [s2]
    split
    next hruns =>
      refine ⟨by simpa using hcfg, by simpa using hclaims, by simpa using hloader, fun hclocking => ?_⟩
      simp [hclocking, LineState.hears] at hruns
    next => simp [hcfg, hclaims, hloader, hline]
  obtain ⟨hcfg2, hclaims2, hloader2, hline2⟩ := hlineTimes
  have htable : s2.TableOk := h.table.same ⟨hcfg2, hclaims2⟩
  split
  · exact h.onLine (htable.same (by simp)) (by simpa using hloader2) fun hclocking _ => by
      simp [hclaims2, hline2 hclocking]
  · exact h.onLine htable hloader2 fun hclocking _ => ⟨hclaims2, hline2 hclocking⟩

end State.ClaimsSafe

/-- What a command on the line does under a condition that CLOCKING refuses. -/
theorem State.ClaimsSafe.lands_if {s t : State} {p : Prop} [Decidable p] (h : s.ClaimsSafe)
    (hclocking : s.line.state = .clocking → s.line.sending = none → ¬ p) (htable : t.TableOk) (hloader : t.loader = s.loader) :
    Lands State.ClaimsSafe (.next (if p then t else s)) :=
  lands_ite h fun hp => h.onLine htable hloader fun hline hsending => absurd hp (hclocking hline hsending)

/-- What ends an own frame finds none in CLOCKING. -/
theorem State.ClaimsSafe.lands_sent {s t : State} (h : s.ClaimsSafe) (hnone : s.line.sending = none → t = s)
    (htable : t.TableOk) (hloader : t.loader = s.loader) : Lands State.ClaimsSafe (.next t) :=
  lands_next (h.onLine htable hloader fun _ hsending => by rw [hnone hsending]; exact ⟨rfl, rfl⟩)

theorem exec_lands_claimsSafe (i : Instr) (s : State) (h : s.ClaimsSafe) : Lands State.ClaimsSafe (exec i s) := by
  have hanswer (code : Byte) (r : Result) (d : List Nat) : (s.answer code r d).ClaimsSafe := h.quiet (by simp)
  have ht : s.TableOk := h.table
  cases i with
  | powerUpReset _ => exact lands_next (.of_nil rfl rfl rfl rfl)
  | pinReset => exact lands_next h.takePin
  | resetEnd => exact lands_next h.endReset
  | configLoadGood image => exact lands_next (h.endLoad image)
  | configLoadBad => exact lands_next h.endBadLoad
  | stabilizationRestart => exact lands_next (h.quiet (by simp))
  | crystalReady => exact lands_next h.crystalIsReady
  | crystalLost => exact lands_next h.crystalIsLost
  | coldWaitExpiry => exact h.lands_if (fun hline _ => by simp [hline]) (ht.same (by split <;> simp)) (by split <;> simp)
  | muteTimerExpiry =>
    refine lands_next (h.onLine (ht.same (by simp)) (by simp) fun hline _ => ?_)
    simp [State.muteDown, hline]
  | joinColdWaitExpiry => exact h.lands_if (fun hline _ => by simp [hline]) (ht.same (by simp)) (by simp)
  | joinDelayExpiry =>
    exact h.lands_if (fun hline _ => by simp [hline, State.mayJoin]) (ht.same (by simp)) (by simp)
  | openingInstantReached =>
    exact lands_next (h.onLine (ht.same (by simp)) (by simp) fun hline _ => by
      unfold State.opens; split <;> simp [hline])
  | turnSlotReached =>
    exact lands_next (h.onLine (ht.same (by simp)) (by simp) fun hline _ => by
      unfold State.takesTurn; split <;> simp [hline])
  | joinWindowOpens =>
    exact lands_next (h.onLine ht.windowBySilence (by simp) fun hline _ => by
      unfold State.windowBySilence; split <;> simp [hline, LineState.hears])
  | joinWindowCloses =>
    exact h.lands_if (fun hline _ => by simp [hline, LineState.hears]) (ht.same (by simp)) (by simp)
  | lineFrameStart =>
    exact h.lands_if (fun hline _ => by simp [hline, LineState.hears]) (ht.same (by simp)) (by simp)
  | joiningEntry => exact h.lands_if (fun hline _ => by simp [hline]) (ht.same (by simp)) (by simp)
  | muteEnd => exact h.lands_if (fun hline _ => by simp [hline]) (ht.same (by simp)) (by simp)
  | muteEntry => exact h.lands_if (fun hline _ => by simp [hline]) ht.abortsTwice (by simp)
  | isolationTimerExpiry => exact h.lands_if (fun hline _ => by simp [hline]) ht.isolate (by simp)
  | peerLost a => exact h.lands_if (fun hline _ => by simp [hline, LineState.hears]) (ht.charge a) (by simp)
  | garbledFrame =>
    exact h.lands_if (fun hline _ => by simp [State.hearing, hline, LineState.hears]) ht.hearGarbled (by simp)
  | validTurnFrameHeard _ =>
    refine h.lands_if (fun hline _ => by simp [State.hearing, hline, LineState.hears]) ?_ (by split <;> simp)
    split
    next f _ => exact ht.hearTurn f
    next => exact ht.hearGarbled
  | validJoinFrameHeard _ =>
    refine h.lands_if (fun hline _ => by simp [State.hearing, hline, LineState.hears]) ?_ (by split <;> simp)
    split
    next f _ => exact ht.hearJoin f
    next => exact ht.hearGarbled
  | ownFrameAborted other =>
    refine h.lands_sent (fun hsending => by simp [hsending]) ?_ (by split <;> simp)
    split
    next own _ => exact ht.aborted own other
    next => exact ht
  | ownTurnReadBack =>
    refine h.lands_sent (fun hsending => by simp [hsending]) ?_ (by split <;> simp)
    split
    next f ok _ => exact ht.turnRead f ok
    next => exact ht
  | ownJoinReadBack =>
    exact h.lands_sent (fun hsending => by simp [hsending]) (ht.same (by split <;> simp)) (by split <;> simp)
  | coldOpeningReadBack =>
    refine h.lands_sent (fun hsending => by simp [hsending]) ?_ (by split <;> simp)
    split
    next f ok _ => exact ht.coldRead f ok
    next => exact ht
  | orphanAcceptLimit _ | offerUnanswered _ | breakthrough _ | flameFail _ | powerLimitedTopUp _
  | turnerOverloadFault _ | gatePulseEnd _ => exact lands_ite h fun _ => h.quiet (by simp)
  | measurementArrival _ _ | sensorFault _ _ | levelSteady _ _ | moistureMade _ _ | travelEnd | turnerTurnDone =>
    exact lands_ite h fun _ => h.quiet (by simp)
  | phaseDurationReached _ | blowerOnEdge _ | blowerOffEdge _ | airRestEdge _ | sprayIntervalEdge _ =>
    exact lands_next (h.quiet (by simp))
  | standTimeReached _ | fillLimitReached _ | settleEnd _ | turnLimitReached _ | blendWindowBegins _ =>
    exact lands_next (h.quiet (by split <;> [split; skip] <;> simp))
  | hold _ | release _ | channelReset _ | withdrawOffer _ =>
    exact State.vesselRequest_lands h (hanswer _) fun _ _ => h.quiet (by simp)
  | clearHalt _ =>
    exact State.channelRequest_lands h (hanswer _) (h.quiet (by simp)) fun _ _ => h.quiet (by simp)
  | loadPhase _ _ =>
    unfold exec execLoadPhase
    exact State.vesselRequest_lands h (hanswer _) fun _ _ => h.quiet (by split <;> simp)
  | setStep _ _ =>
    unfold exec execSetStep
    exact State.vesselRequest_lands h (hanswer _) fun _ _ => h.quiet (by simp)
  | discard _ _ =>
    unfold exec execDiscard
    exact State.vesselRequest_lands h (hanswer _) fun _ _ => h.quiet (by simp)
  | handGauge _ _ _ _ =>
    unfold exec execHandGauge
    exact State.vesselRequest_lands h (hanswer _) fun _ _ => h.quiet (by split <;> simp)
  | readChannelStatus _ => unfold exec execReadChannelStatus; exact State.readChannel_lands h (hanswer _)
  | readPhaseRecord _ _ => unfold exec execReadPhaseRecord; exact State.readChannel_lands h (hanswer _)
  | readPieceRecord _ => unfold exec execReadPieceRecord; exact State.readChannel_lands h (hanswer _)
  | readCompletionRecord _ _ =>
    show Lands _ (execReadCompletionRecord _ _ s)
    unfold execReadCompletionRecord
    split
    · exact State.readChannel_lands h (hanswer _)
    · exact State.request_lands h fun _ => hanswer _ _ _
  | readClaimTableEntry _ => unfold exec execReadClaimTableEntry; exact State.readIndex_lands h (hanswer _)
  | readBookEntry _ => unfold exec execReadBookEntry; exact State.readIndex_lands h (hanswer _)
  | readPeerTable => unfold exec execReadPeerTable; exact State.request_lands h fun _ => hanswer _ _ _
  | readPieceCounters => unfold exec execReadPieceCounters; exact State.request_lands h fun _ => hanswer _ _ _
  | setRestartHold _ =>
    unfold exec execSetRestartHold
    exact State.request_lands h fun hfree => h.requested hfree (by simp)
  | readLineCounters =>
    unfold exec execReadLineCounters
    exact State.request_lands h fun hfree => h.requested hfree (by simp)
  | takeBook _ => unfold exec execTakeBook; exact State.request_lands h fun _ => h.quiet (by simp)
  | readStationStatus _ => unfold exec execReadStationStatus; exact State.request_lands h fun _ => h.quiet (by simp)
  | clearChanges _ => unfold exec execClearChanges; exact State.request_lands h fun _ => h.quiet (by simp)
  | setAttentionMask _ => unfold exec execSetAttentionMask; exact State.request_lands h fun _ => h.quiet (by simp)
  | popEvent => unfold exec execPopEvent; exact State.request_lands h fun _ => h.quiet (by simp)
  | readFault => unfold exec execReadFault; exact State.request_lands h fun _ => h.quiet (by simp)
  | badRequest _ => unfold exec execBadRequest; exact State.request_lands h fun _ => h.quiet (by split <;> simp)

/-- Settles O5, by what each row keeps of the table. -/
theorem heldSumsStayWithinAllowances : Obligations.HeldSumsStayWithinAllowances := fun _ _ hs h =>
  step_keeps (fun _ _ h => h.quiet (by simp)) exec_lands_claimsSafe (fun _ h => h.tick) hs h

end Sys2Proof.Machine

/-! ## Proofs: the buffers within their sizes

Each list of the station is bounded by what places an item in it; what a command does to the lists follows from what its
operations do. One rule per operation, in the order of the model. -/

namespace Sys2Proof.Machine

-- One after the other: the hypothesis that `modCh` and `modTurner` find for themselves waits for all that stands before it.
set_option Elab.async false

/-! ### Lists that are written by one operation -/

theorem placeReply_length {r : ReplyItem} {l : List (Listed ReplyItem)} (h : l.length ≤ 8) :
    (placeReply r l).length ≤ 8 := by
  unfold placeReply
  split
  · simpa using h
  · split <;> simp <;> omega

theorem dropCancelled_length (l : List (Listed CastendItem)) : (dropCancelled l).length ≤ l.length := by
  induction l with
  | nil => exact le_refl _
  | cons x r ih =>
    unfold dropCancelled
    split
    · exact Nat.le_succ _
    · exact Nat.succ_le_succ ih

theorem placeCastend_length {c : CastendItem} {l : List (Listed CastendItem)} (h : l.length ≤ 6) :
    (placeCastend c l).length ≤ 6 := by
  unfold placeCastend
  split
  · simp; omega
  · dsimp only
    split
    · simp; omega
    · exact h

theorem placeTurnend_length {t : TurnendItem} {l : List (Listed TurnendItem)} (h : l.length ≤ 4) :
    (placeTurnend t l).length ≤ 4 := by
  unfold placeTurnend
  split <;> simp <;> omega

@[simp] theorem markFirst_length {α : Type} (n : Nat) (l : List (Listed α)) : (markFirst n l).length = l.length := by
  rw [← List.length_map (f := (·.item)), markFirst_items, List.length_map]

theorem unsent_length {α : Type} (l : List (Listed α)) : (unsent l).length ≤ l.length := List.length_filter_le _ _

theorem raise_le_max {n m : Nat} (h : m ≤ n) : raise n m ≤ n := by
  unfold raise
  split <;> omega

/-- An event leaves the queue within its sixteen places and its loss count within a byte. -/
theorem Panel.queue_bounded {p : Panel} (h : p.events.length ≤ 16) (ho : p.overflow ≤ 255) (round : Word16) (e : Event) :
    (p.queue round e).events.length ≤ 16 ∧ (p.queue round e).overflow ≤ 255 := by
  unfold Panel.queue
  split
  · split
    · exact ⟨by simp; omega, ho⟩
    · exact ⟨h, by simp⟩
  · split
    · exact ⟨by simp; omega, Nat.zero_le _⟩
    · exact ⟨h, raise_le_max ho⟩

/-! ### The Own Claim List -/

/-- Identities in order leave room for no more than eighteen claims. -/
theorem OwnBounded.of_ordered {l : List OwnClaim} (h : l.Pairwise fun a b => a.key < b.key) (hs : ∀ o ∈ l, o.slot < 3) :
    OwnBounded l := by
  refine ⟨?_, h, hs⟩
  have hnodup : (l.map OwnClaim.key).Nodup := (List.pairwise_map.2 h).imp Nat.ne_of_lt
  have hsub : l.map OwnClaim.key ⊆ List.range 18 := fun k hk => by
    obtain ⟨o, ho, rfl⟩ := List.mem_map.1 hk
    have hslot := hs o ho
    have hch := o.channel.isLt
    rw [List.mem_range, OwnClaim.key]
    omega
  simpa using hnodup.length_le_of_subset hsub

theorem OwnBounded.filter {l : List OwnClaim} (h : OwnBounded l) (p : OwnClaim → Bool) : OwnBounded (l.filter p) := by
  obtain ⟨_, hordered, hslots⟩ := h
  exact .of_ordered (hordered.filter p) fun o ho => hslots o (List.mem_of_mem_filter ho)

/-- A change in place keeps every identity. -/
theorem OwnBounded.map {l : List OwnClaim} (h : OwnBounded l) {f : OwnClaim → OwnClaim}
    (hf : ∀ o, (f o).channel = o.channel ∧ (f o).slot = o.slot) : OwnBounded (l.map f) := by
  obtain ⟨_, hordered, hslots⟩ := h
  have hkey (o : OwnClaim) : (f o).key = o.key := by
    obtain ⟨hchannel, hslot⟩ := hf o
    rw [OwnClaim.key, OwnClaim.key, hchannel, hslot]
  refine .of_ordered (List.pairwise_map.2 (by simpa only [hkey] using hordered)) fun o ho => ?_
  obtain ⟨a, ha, rfl⟩ := List.mem_map.1 ho
  rw [(hf a).2]
  exact hslots a ha

theorem OwnBounded.insert {l : List OwnClaim} (h : OwnBounded l) {o : OwnClaim} (ho : o.slot < 3) :
    OwnBounded (insertOwn o l) := by
  obtain ⟨_, hordered, hslots⟩ := h
  have hinsert := insertOwn_ordered ho hordered hslots
  exact .of_ordered hinsert.1 hinsert.2

theorem OwnBounded.nil : OwnBounded [] := .of_ordered .nil (by simp)

/-! ### The Gauge Book -/

theorem Book.append_bounded {b : Book} (h : b.Bounded) (item : EntryItem) (span : Nat) (round : Word16) (station : Nat) :
    (b.append item span round station).Bounded := by
  obtain ⟨hentries, hpend, hwaiting⟩ := h
  unfold Book.append
  split
  · exact ⟨by simp; omega, hpend, hwaiting⟩
  · exact ⟨hentries, hpend, hwaiting⟩

theorem joinList_bounded {l : List (Fin 6)} (h : l.Nodup) (c : Fin 6) :
    (joinList l c).length ≤ 6 ∧ (joinList l c).Nodup := by
  have hnodup : (joinList l c).Nodup := by
    unfold joinList
    split
    next => exact h
    next hnew => exact List.Nodup.append h (List.nodup_singleton c) (by simpa using hnew)
  exact ⟨by simpa using hnodup.length_le_card, hnodup⟩

theorem Book.remove_bounded {b : Book} (h : b.Bounded) (s : Seq) : (b.remove s).Bounded := by
  obtain ⟨hentries, hpend, hwaiting⟩ := h
  unfold Book.remove
  split
  · exact ⟨hentries, hpend, hwaiting⟩
  · split
    · exact ⟨hentries, hpend, hwaiting⟩
    · exact ⟨(List.length_filter_le _ _).trans hentries, hpend, hwaiting⟩

theorem fillGaps_bounded {b : Book} (h : b.Bounded) (round : Word16) (station n : Nat) :
    (fillGaps round station n b).Bounded := by
  induction n generalizing b with
  | zero => exact h
  | succ n ih =>
    obtain ⟨hentries, hpend, hwaiting⟩ := h
    unfold fillGaps
    split
    · exact ⟨hentries, hpend, hwaiting⟩
    · split
      · exact ih ⟨by simp; omega, hpend, hwaiting⟩
      · exact ⟨hentries, hpend, hwaiting⟩

/-! ### The state: one rule for each way to write a list -/

namespace State.Bounded

theorem same {s t : State} (h : s.Bounded) (he : t.replies = s.replies ∧ t.castends = s.castends
    ∧ t.turner.turnends = s.turner.turnends ∧ t.book = s.book ∧ t.panel.events = s.panel.events
    ∧ t.panel.overflow = s.panel.overflow ∧ t.own = s.own ∧ t.chans = s.chans) : t.Bounded := by
  obtain ⟨hreplies, hcastends, hturnends, hbook, hevents, hoverflow, hown, hchans⟩ := he
  unfold State.Bounded State.ch
  rw [hreplies, hcastends, hturnends, hbook, hevents, hoverflow, hown, hchans]
  exact h

theorem own {s : State} (h : s.Bounded) : OwnBounded s.own := by
  obtain ⟨_, _, _, _, _, _, hown, _⟩ := h
  exact hown

theorem book {s : State} (h : s.Bounded) : s.book.Bounded := by
  obtain ⟨_, _, _, hbook, _⟩ := h
  exact hbook

theorem withOwn {s t : State} (h : s.Bounded) (hown : OwnBounded t.own) (he : t.replies = s.replies
    ∧ t.castends = s.castends ∧ t.turner.turnends = s.turner.turnends ∧ t.book = s.book
    ∧ t.panel.events = s.panel.events ∧ t.panel.overflow = s.panel.overflow ∧ t.chans = s.chans) : t.Bounded := by
  obtain ⟨hreplies, hcastends, hturnends, hbook, hevents, hoverflow, _, hch⟩ := h
  obtain ⟨er, ec, et, eb, ee, eo, ech⟩ := he
  unfold State.Bounded State.ch
  rw [er, ec, et, eb, ee, eo, ech]
  exact ⟨hreplies, hcastends, hturnends, hbook, hevents, hoverflow, hown, hch⟩

theorem withBook {s : State} (h : s.Bounded) {b : Book} (hb : b.Bounded) : State.Bounded { s with book := b } := by
  obtain ⟨hreplies, hcastends, hturnends, _, hrest⟩ := h
  exact ⟨hreplies, hcastends, hturnends, hb, hrest⟩

/-- A change of the book that keeps its lists. -/
theorem countBook {s : State} (h : s.Bounded) {b : Book}
    (hb : b.entries = s.book.entries ∧ b.pend = s.book.pend ∧ b.waiting = s.book.waiting) :
    State.Bounded { s with book := b } := by
  obtain ⟨hentries, hpend, hwaiting⟩ := hb
  refine h.withBook ?_
  unfold Book.Bounded
  rw [hentries, hpend, hwaiting]
  exact h.book

theorem setCh {s : State} (h : s.Bounded) (c : Fin 6) {x : Channel} (hx : x.Bounded) : (s.setCh c x).Bounded := by
  obtain ⟨hreplies, hcastends, hturnends, hbook, hevents, hoverflow, hown, hch⟩ := h
  refine ⟨hreplies, hcastends, hturnends, hbook, hevents, hoverflow, hown, fun d => ?_⟩
  rw [State.ch_setCh]
  split
  · exact hx
  · exact hch d

theorem channel {s : State} (h : s.Bounded) (c : Fin 6) : (s.ch c).Bounded := by
  obtain ⟨_, _, _, _, _, _, _, hch⟩ := h
  exact hch c

/-- A change of a channel that keeps its records and its restart list. -/
theorem modCh {s : State} (h : s.Bounded) (c : Fin 6) {f : Channel → Channel}
    (hf : ∀ x, (f x).records = x.records ∧ (f x).restart = x.restart := by exact fun _ => ⟨rfl, rfl⟩) :
    (s.modCh c f).Bounded := by
  refine h.setCh c ?_
  obtain ⟨hrecords, hrestart⟩ := hf (s.ch c)
  unfold Channel.Bounded
  rw [hrecords, hrestart]
  exact h.channel c

theorem event {s : State} (h : s.Bounded) (kind : EventKind) (channel : Option (Fin 6)) (piece : Option Word16)
    (value : List Nat) : (s.event kind channel piece value).Bounded := by
  obtain ⟨hreplies, hcastends, hturnends, hbook, hevents, hoverflow, hown, hch⟩ := h
  obtain ⟨hqueue, hlost⟩ := Panel.queue_bounded hevents hoverflow s.line.round
    { kind := kind, channel := channel, piece := piece, round := s.line.round, value := value }
  exact ⟨hreplies, hcastends, hturnends, hbook, hqueue, hlost, hown, hch⟩

theorem chEvent {s : State} (h : s.Bounded) (c : Fin 6) (kind : EventKind) (value : List Nat) :
    (s.chEvent c kind value).Bounded := h.event _ _ _ _

theorem faultAt {s : State} (h : s.Bounded) (kind : FaultKind) (station channel : Option Nat) (round : Word16) :
    (s.faultAt kind station channel round).Bounded := h

theorem recordFault {s : State} (h : s.Bounded) (kind : FaultKind) (station channel : Option Nat) :
    (s.recordFault kind station channel).Bounded := h

theorem setLine {s : State} (h : s.Bounded) (st : LineState) : (s.setLine st).Bounded := by
  unfold State.setLine
  split <;> exact h

theorem ite {s t : State} {p : Prop} [Decidable p] (ht : p → t.Bounded) (hs : ¬ p → s.Bounded) :
    (if p then t else s).Bounded := by
  split
  next hp => exact ht hp
  next hp => exact hs hp

theorem foldl {α : Type} {f : State → α → State} (hf : ∀ s a, State.Bounded s → (f s a).Bounded) (l : List α) {s : State}
    (h : s.Bounded) : (l.foldl f s).Bounded := by
  induction l generalizing s with
  | nil => exact h
  | cons a r ih => exact ih (hf s a h)

/-! ### Own claims -/

theorem askAt {s : State} (h : s.Bounded) (c : Fin 6) {slot : Nat} (hslot : slot < 3) (a : Ask) :
    (s.askAt c slot a).Bounded := h.withOwn (h.own.insert hslot) (by simp)

theorem filterOwn {s : State} (h : s.Bounded) (p : OwnClaim → Bool) :
    State.Bounded { s with own := s.own.filter p } := h.withOwn (h.own.filter p) (by simp)

theorem mapOwn {s : State} (h : s.Bounded) {f : OwnClaim → OwnClaim}
    (hf : ∀ o, (f o).channel = o.channel ∧ (f o).slot = o.slot) :
    State.Bounded { s with own := s.own.map f } := h.withOwn (h.own.map hf) (by simp)

theorem followWaits {s : State} (h : s.Bounded) (c : Fin 6) : (s.followWaits c).Bounded := h.modCh c

theorem followFan {s : State} (h : s.Bounded) (c : Fin 6) : (s.followFan c).Bounded := ite (fun _ => h.modCh c) fun _ => h

theorem followCast {s : State} (h : s.Bounded) (c : Fin 6) : (s.followCast c).Bounded :=
  ite (fun _ => h.modCh c) fun _ => h

theorem follow {s : State} (h : s.Bounded) (c : Fin 6) : (s.follow c).Bounded :=
  ((h.followWaits c).followFan c).followCast c

theorem ask {s : State} (h : s.Bounded) (c : Fin 6) (a : Ask) : (s.ask c a).Bounded := by
  unfold State.ask
  split
  next n hfree =>
    have hslot : n ∈ [0, 1, 2] := List.mem_of_find?_eq_some hfree
    exact h.askAt c (by simp at hslot; omega) a
  next => exact h.modCh c

theorem repeatAsks {s : State} (h : s.Bounded) (c : Fin 6) : (s.repeatAsks c).Bounded :=
  ite (fun _ => h) fun _ => (h.modCh c).foldl (fun _ a hs => hs.ask c a) _

theorem dropClaim {s : State} (h : s.Bounded) (c : Fin 6) (slot : Nat) : (s.dropClaim c slot).Bounded :=
  (h.filterOwn _).follow c

theorem dropOn {s : State} (h : s.Bounded) (c : Fin 6) (r : Resource) : (s.dropOn c r).Bounded :=
  ((h.filterOwn _).modCh c).follow c

theorem dropAll {s : State} (h : s.Bounded) (c : Fin 6) : (s.dropAll c).Bounded := ((h.filterOwn _).modCh c).follow c

theorem modOwn {s : State} (h : s.Bounded) (c : Fin 6) (slot : Nat) {f : OwnClaim → OwnClaim}
    (hf : ∀ o, (f o).channel = o.channel ∧ (f o).slot = o.slot) : (s.modOwn c slot f).Bounded :=
  h.mapOwn fun o => by split <;> [exact hf o; exact ⟨rfl, rfl⟩]

theorem lowerClaim {s : State} (h : s.Bounded) (c : Fin 6) (slot amount : Nat) : (s.lowerClaim c slot amount).Bounded :=
  (h.modOwn c slot (f := fun o => { o with amount := max 1 (min o.amount amount) }) fun _ => ⟨rfl, rfl⟩).follow c

theorem countShed {s : State} (h : s.Bounded) (c : Fin 6) : (s.countShed c).Bounded :=
  h.modCh c fun _ => by split <;> exact ⟨rfl, rfl⟩

theorem shedOne {s : State} (h : s.Bounded) (c : Fin 6) {o : OwnClaim} (ho : o.slot < 3) : (s.shedOne c o).Bounded :=
  (((h.askAt c ho _).countShed c).chEvent c _ _).follow c

theorem shedPoint {s : State} (h : s.Bounded) (c : Fin 6) (rs : List Resource) : (s.shedPoint c rs).Bounded := by
  have hslots : ∀ o ∈ s.postedOf c rs, o.slot < 3 := fun o ho => by
    obtain ⟨_, _, hown⟩ := h.own
    exact hown o (List.mem_of_mem_filter (List.mem_of_mem_filter ho))
  unfold State.shedPoint
  generalize s.postedOf c rs = l at hslots
  induction l generalizing s with
  | nil => exact h
  | cons o r ih =>
    rw [List.forall_mem_cons] at hslots
    exact ih (h.shedOne c hslots.1) hslots.2

theorem tellVoided {s : State} (h : s.Bounded) (held : List OwnClaim) : (s.tellVoided held).Bounded := by
  refine h.foldl (fun t o ht => ?_) held
  refine (ht.modCh o.channel fun x => ?_).follow o.channel
  unfold voidedAt
  dsimp only
  repeat' split
  all_goals exact ⟨rfl, rfl⟩

theorem voidHoldings {s : State} (h : s.Bounded) : s.voidHoldings.Bounded := by
  refine State.Bounded.tellVoided (h.withOwn (h.own.map (f := voidClaim) fun o => ?_) (by simp)) _
  unfold voidClaim
  split <;> exact ⟨rfl, rfl⟩

theorem allAsked {s : State} (h : s.Bounded) : s.allAsked.Bounded := h.mapOwn fun _ => ⟨rfl, rfl⟩

/-! ### The Gauge Book and the Transfer Unit -/

theorem append {s : State} (h : s.Bounded) (item : EntryItem) (span : Nat) (round : Word16) (station : Nat) :
    (s.append item span round station).Bounded := by
  obtain ⟨hreplies, hcastends, hturnends, hbook, hrest⟩ := h
  exact ⟨hreplies, hcastends, hturnends, Book.append_bounded hbook item span round station, hrest⟩

theorem compareCount {s : State} (h : s.Bounded) (count : Seq) (b : Bool) (sender : Nat) (round : Word16) :
    (s.compareCount count b sender round).Bounded := by
  unfold State.compareCount
  dsimp only
  repeat' split
  · exact h
  · exact h.append _ _ _ _
  · exact h.faultAt _ _ _ _
  · exact h

theorem numberBook {s : State} (h : s.Bounded) (count : Seq) : (s.numberBook count).Bounded :=
  ite (fun _ => h) fun _ => h.countBook ⟨rfl, rfl, rfl⟩

theorem hearEntries {s : State} (h : s.Bounded) (count : Seq) (entries : List EntryItem) (sender : Nat) (round : Word16) :
    (s.hearEntries count entries sender round).Bounded :=
  ((h.numberBook count).compareCount _ _ _ _).foldl (fun _ e hs => hs.append e 1 round sender) _

theorem takeCaptures {s : State} (h : s.Bounded) {items : List EntryItem} (hroom : s.canTake items.length = true) :
    (s.takeCaptures items).Bounded := by
  obtain ⟨hentries, _, hwaiting⟩ := h.book
  have hsize : s.book.pend.length + items.length ≤ 4 := by
    simp only [State.canTake, Bool.and_eq_true, decide_eq_true_eq] at hroom
    exact hroom.1.2
  exact h.withBook ⟨hentries, by simpa using hsize, hwaiting⟩

theorem wait {s : State} (h : s.Bounded) {l : List (Fin 6)} (hl : l.length ≤ 6 ∧ l.Nodup) :
    State.Bounded { s with book := { s.book with waiting := l } } := by
  obtain ⟨hentries, hpend, _⟩ := h.book
  exact h.withBook ⟨hentries, hpend, hl⟩

theorem offerCaptures {s : State} (h : s.Bounded) (c : Fin 6) (items : List EntryItem) :
    (s.offerCaptures c items).Bounded := by
  unfold State.offerCaptures
  split
  next htake => exact h.takeCaptures (by simpa using (Bool.and_eq_true _ _ ▸ htake).2)
  next =>
    obtain ⟨_, _, _, hnodup⟩ := h.book
    exact State.Bounded.modCh (h.wait (joinList_bounded hnodup c)) c

theorem serveList {s : State} (h : s.Bounded) {l : List (Fin 6)} (hl : l.length ≤ 6 ∧ l.Nodup) :
    (serveList l s).Bounded := by
  induction l generalizing s with
  | nil => exact h.wait ⟨by simp, List.nodup_nil⟩
  | cons c r ih =>
    unfold Machine.serveList
    split
    next htake =>
      obtain ⟨hlength, hnodup⟩ := hl
      exact ih ((h.takeCaptures htake).modCh c) ⟨(Nat.le_succ _).trans hlength, hnodup.of_cons⟩
    next => exact h.wait hl

theorem serve {s : State} (h : s.Bounded) : s.serve.Bounded := by
  obtain ⟨_, _, hwaiting⟩ := h.book
  exact h.serveList hwaiting

theorem dropCaptures {s : State} (h : s.Bounded) (c : Fin 6) : (s.dropCaptures c).Bounded := by
  obtain ⟨hentries, hpend, hwaiting, hnodup⟩ := h.book
  exact (h.withBook (b := { s.book with
    waiting := s.book.waiting.filter fun d => d != c
    pend := s.book.pend.map fun p => if p.item.channel = some c.val then { p with capture := false } else p })
    ⟨hentries, by simpa using hpend, (List.length_filter_le _ _).trans hwaiting, hnodup.filter _⟩).modCh c

theorem countCreated {s : State} (h : s.Bounded) : s.countCreated.Bounded := h.countBook ⟨rfl, rfl, rfl⟩

theorem countReceived {s : State} (h : s.Bounded) : s.countReceived.Bounded := h.countBook ⟨rfl, rfl, rfl⟩

theorem countHanded {s : State} (h : s.Bounded) : s.countHanded.Bounded := h.countBook ⟨rfl, rfl, rfl⟩

theorem countFinished {s : State} (h : s.Bounded) : s.countFinished.Bounded := h.countBook ⟨rfl, rfl, rfl⟩

theorem countDiscarded {s : State} (h : s.Bounded) : s.countDiscarded.Bounded := h.countBook ⟨rfl, rfl, rfl⟩

theorem reply {s : State} (h : s.Bounded) (r : ReplyItem) : (s.reply r).Bounded := by
  obtain ⟨hreplies, hrest⟩ := h
  exact ⟨placeReply_length hreplies, hrest⟩

theorem castend {s : State} (h : s.Bounded) (c : CastendItem) : (s.castend c).Bounded := by
  obtain ⟨hreplies, hcastends, hrest⟩ := h
  exact ⟨hreplies, placeCastend_length hcastends, hrest⟩

theorem modXfer {s : State} (h : s.Bounded) (c : Fin 6) (f : Xfer → Xfer) : (s.modXfer c f).Bounded := h.modCh c

theorem endXfer {s : State} (h : s.Bounded) (c : Fin 6) : (s.endXfer c).Bounded := h.modXfer c _

theorem offerWait {s : State} (h : s.Bounded) (c : Fin 6) (b : Bool) : (s.offerWait c b).Bounded := h.modCh c

theorem cancelPartner {s : State} (h : s.Bounded) (c : Fin 6) : (s.cancelPartner c).Bounded := by
  unfold State.cancelPartner
  split
  · exact h.castend _
  · exact h

theorem endOffer {s : State} (h : s.Bounded) (c : Fin 6) : (s.endOffer c).Bounded :=
  State.Bounded.endXfer (ite (fun _ => (h.offerWait c false).cancelPartner c) fun _ => h.offerWait c false) c

theorem startOffer {s : State} (h : s.Bounded) (c : Fin 6) (r : PhaseRecord) : (s.startOffer c r).Bounded :=
  (h.modXfer c _).offerWait c true

theorem xferHalted {s : State} (h : s.Bounded) (c : Fin 6) : (s.xferHalted c).Bounded := by
  unfold State.xferHalted
  split
  · exact h.endOffer c
  · exact h.endOffer c
  all_goals exact h

theorem completeCast {s : State} (h : s.Bounded) (c : Fin 6) : (s.completeCast c).Bounded := by
  unfold State.completeCast
  dsimp only
  split
  · exact (h.modXfer c _).castend _
  · exact h.modXfer c _

/-! ### Phases -/

theorem halt {s : State} (h : s.Bounded) (c : Fin 6) (r : HaltReason) : (s.halt c r).Bounded :=
  ite (fun _ => ((((h.modCh c).dropAll c).chEvent c _ _).xferHalted c).dropCaptures c) fun _ => h

theorem pause {s : State} (h : s.Bounded) (c : Fin 6) (reason : PauseReason) (resume : Option Resume) :
    (s.pause c reason resume).Bounded := (h.modCh c).chEvent c _ _

theorem starve {s : State} (h : s.Bounded) (c : Fin 6) : (s.starve c).Bounded := (h.modCh c).chEvent c _ _

theorem lowerBy {s : State} (h : s.Bounded) (c : Fin 6) (e : Nat) (l : List OwnClaim) : (s.lowerBy c e l).Bounded := by
  induction l generalizing s e with
  | nil => exact h
  | cons o r ih =>
    unfold State.lowerBy
    split
    · exact h
    · split
      · exact h.lowerClaim c _ _
      · exact ih (h.dropClaim c o.slot) _

theorem retag {s : State} (h : s.Bounded) (c : Fin 6) (res : Resource) (r : PhaseRecord) : (s.retag c res r).Bounded :=
  h.mapOwn fun _ => by split <;> exact ⟨rfl, rfl⟩

theorem carry {s : State} (h : s.Bounded) (c : Fin 6) (r : PhaseRecord) (res : Resource) : (s.carry c r res).Bounded := by
  unfold State.carry
  split
  · exact h
  · split
    · exact h.ask c _
    · dsimp only
      split
      · exact (h.retag c res r).lowerBy c _ _
      · split
        · exact (h.retag c res r).ask c _
        · exact h.retag c res r

theorem carryClaims {s : State} (h : s.Bounded) (c : Fin 6) (r : PhaseRecord) : (s.carryClaims c r).Bounded :=
  (((h.modCh c).foldl (fun _ res hs => hs.dropOn c res) _).carry c r .power).carry c r .water

theorem createPiece {s : State} (h : s.Bounded) (c : Fin 6) (lot : Nat) : (s.createPiece c lot).Bounded :=
  ((h.countBook (b := { s.book with serial := (s.freeSerial 12 s.book.serial + 1) % 2048 })
    ⟨rfl, rfl, rfl⟩).countCreated.modCh c).chEvent c _ _

theorem startWaits {s : State} (h : s.Bounded) (c : Fin 6) : (s.startWaits c).Bounded := h.modCh c

theorem startAsks {s : State} (h : s.Bounded) (c : Fin 6) (r : PhaseRecord) : (s.startAsks c r).Bounded := by
  have hcarried := h.carryClaims c r
  unfold State.startAsks
  dsimp only
  split
  · exact hcarried.ask c _
  · exact hcarried.startOffer c r
  · exact hcarried.startOffer c r
  · exact hcarried

theorem startedChannel_kept (h : Channel) (r : PhaseRecord) (orphan : Bool) :
    (startedChannel h r orphan).records = h.records ∧ (startedChannel h r orphan).restart = h.restart := by
  unfold startedChannel startSetpoint
  split
  · exact ⟨rfl, rfl⟩
  · dsimp only
    split <;> exact ⟨rfl, rfl⟩

theorem kindStart_kept (h : Channel) (r : PhaseRecord) :
    (kindStart h r).records = h.records ∧ (kindStart h r).restart = h.restart := by
  unfold kindStart
  split <;> exact ⟨rfl, rfl⟩

theorem begin {s : State} (h : s.Bounded) (c : Fin 6) (afterFinal orphan : Bool) : (s.begin c afterFinal orphan).Bounded := by
  unfold State.begin
  split
  · exact h
  next r _ =>
    split
    · exact h.halt c _
    · have hstarted := h.modCh c (f := fun x => startedChannel x r orphan) fun x => startedChannel_kept x r orphan
      exact (((State.Bounded.modCh (ite (fun _ => hstarted.createPiece c _) fun _ => hstarted) c
        fun x => kindStart_kept x r).startAsks c r).startWaits c).follow c

theorem endPiece {s : State} (h : s.Bounded) (c : Fin 6) : (s.endPiece c).Bounded := by
  unfold State.endPiece
  split
  · exact h
  · exact (h.modCh c).countFinished.event _ _ _ _

theorem afterFinal {s : State} (h : s.Bounded) (c : Fin 6) (k : PhaseKind) : (s.afterFinal c k).Bounded := by
  have hended : State.Bounded (if k = .strip then (s.dropAll c).endPiece c else s.dropAll c) :=
    ite (fun _ => (h.dropAll c).endPiece c) fun _ => h.dropAll c
  exact ite (fun _ => hended.modCh c) fun _ => hended.begin c true false

theorem recorded {s : State} (h : s.Bounded) (c : Fin 6) (r : PhaseRecord) (reason : EndReason) (round : Word16) :
    (s.modCh c fun x => recordedChannel x r reason round).Bounded :=
  h.setCh c ⟨by simp [recordedChannel], (h.channel c).2⟩

theorem complete {s : State} (h : s.Bounded) (c : Fin 6) (reason : EndReason) : (s.complete c reason).Bounded := by
  unfold State.complete
  split
  · exact h
  next r _ =>
    have hmoved : State.Bounded (((s.modCh c fun x => recordedChannel x r reason s.line.round).chEvent c .phaseDone
        [reason.code, 0, 0, 0]).modCh c fun x => movedOn x r) := ((h.recorded c r reason _).chEvent c _ _).modCh c
    dsimp only
    split
    · exact hmoved.afterFinal c _
    · split
      · exact hmoved.starve c
      · split
        · exact hmoved.pause c _ _
        · exact hmoved.begin c _ _

theorem finish {s : State} (h : s.Bounded) (c : Fin 6) (reason : EndReason) : (s.finish c reason).Bounded := by
  unfold State.finish
  split
  · exact h.complete c reason
  · exact ite (fun _ => h.modCh c) fun _ => h
  all_goals exact h

theorem startPhase {s : State} (h : s.Bounded) (c : Fin 6) (orphan : Bool) : (s.startPhase c orphan).Bounded :=
  ite (fun _ => (h.begin c false orphan).complete c .cast) fun _ => h.begin c false orphan

end State.Bounded

end Sys2Proof.Machine

/-! ## Proofs: the buffers within their sizes, on the line and at the channels

The rules of the operations from Turner Control on, in the order of the model. -/

namespace Sys2Proof.Machine

-- One after the other: the hypothesis that `modCh` and `modTurner` find for themselves waits for all that stands before it.
set_option Elab.async false

namespace State.Bounded

/-! ### Turner Control and the Claim Table -/

theorem turnend {s : State} (h : s.Bounded) (box : Pair) (o : TurnOutcome) (round : Word16) :
    (s.turnend box o round).Bounded := by
  obtain ⟨hreplies, hcastends, hturnends, hrest⟩ := h
  exact ⟨hreplies, hcastends, placeTurnend_length hturnends, hrest⟩

theorem orderEnd {s : State} (h : s.Bounded) (o : Order) (out : TurnOutcome) : (s.orderEnd o out).Bounded :=
  h.turnend _ _ _

theorem turnDone {s : State} (h : s.Bounded) (o : TurnOutcome) : (s.turnDone o).Bounded := h.event _ _ _ _

/-- A change of Turner Control that keeps its turn ends. -/
theorem modTurner {s : State} (h : s.Bounded) {f : Turner → Turner}
    (hf : ∀ t, (f t).turnends = t.turnends := by exact fun _ => rfl) : (s.modTurner f).Bounded := by
  obtain ⟨hreplies, hcastends, hturnends, hrest⟩ := h
  refine ⟨hreplies, hcastends, ?_, hrest⟩
  show (f s.turner).turnends.length ≤ 4
  rw [hf]
  exact hturnends

theorem dropTurner {s : State} (h : s.Bounded) : s.dropTurner.Bounded := by
  unfold State.dropTurner
  split
  · exact h.dropAll _
  · exact h

theorem turnerHolds {s : State} (h : s.Bounded) (e : ClaimEntry) : (s.turnerHolds e).Bounded := by
  unfold State.turnerHolds
  split
  · exact h
  · split
    · exact h.modTurner.ask _ _
    · exact (ite (fun _ => h.turnend _ _ _) fun _ => h).turnDone _
    all_goals exact h

theorem startMove_turnends (cfg : Settings) (t : Turner) (o : Order) : (startMove cfg t o).turnends = t.turnends := by
  unfold startMove
  split <;> rfl

theorem turnerGranted {s : State} (h : s.Bounded) : s.turnerGranted.Bounded := by
  unfold State.turnerGranted
  split
  · exact h.modTurner fun t => startMove_turnends _ t _
  · exact h

theorem abandon {s : State} (h : s.Bounded) (o : Order) : (s.abandon o).Bounded :=
  ((ite (fun _ => h.dropTurner.orderEnd o .abandoned) fun _ => h.dropTurner).turnDone .abandoned).modTurner

theorem turnerStops {s : State} (h : s.Bounded) (station channel : Nat) : (s.turnerStops station channel).Bounded := by
  unfold State.turnerStops
  split
  · exact ite (fun _ => h.abandon _) fun _ => h
  · exact h

theorem report {s : State} (h : s.Bounded) (r : TurnerReport) : (s.report r).Bounded := by
  unfold State.report
  split
  · split
    · exact h.turnerStops _ _
    · exact h.turnerHolds _
  · exact h

theorem travelDone {s : State} (h : s.Bounded) : s.travelDone.Bounded := by
  unfold State.travelDone
  split
  · exact h.modTurner
  · exact h

theorem turningDone {s : State} (h : s.Bounded) : s.turningDone.Bounded := by
  unfold State.turningDone
  split
  · exact ((h.dropTurner.modTurner.orderEnd _ .ok).turnDone .ok).modTurner
  · exact h

theorem turnerFaults {s : State} (h : s.Bounded) : s.turnerFaults.Bounded := by
  unfold State.turnerFaults
  split
  · exact (((h.dropTurner.orderEnd _ .fault).modTurner).turnDone .fault).event _ _ _ _
  · exact h

theorem listFaults {s : State} (h : s.Bounded) (sender : Nat) (a : Applied) : (s.listFaults sender a).Bounded := by
  have hconflicts := h.foldl (f := fun t c => t.recordFault .claimConflict (some sender) (some c))
    (fun _ _ hs => hs.recordFault _ _ _) a.conflicts
  exact ite (fun _ => hconflicts) fun _ => hconflicts

theorem setClaims {s : State} (h : s.Bounded) (t : List ClaimEntry) (l : List TurnerReport) : (s.setClaims t l).Bounded :=
  State.Bounded.foldl (fun _ r hs => hs.report r) l (s := { s with claims := posted s.cfg t }) h

theorem applyClaims {s : State} (h : s.Bounded) (sender : Nat) (items : List ClaimItem) (ok : Bool) :
    (s.applyClaims sender items ok).Bounded := (h.listFaults _ _).setClaims _ _

theorem expireClaims {s : State} (h : s.Bounded) (station : Nat) : (s.expireClaims station).Bounded := h.setClaims _ _

theorem clearClaims {s : State} (h : s.Bounded) : s.clearClaims.Bounded :=
  State.Bounded.foldl (fun _ r hs => hs.report r) _ (s := { s with claims := [] }) h

/-! ### Transfer items -/

theorem judgeOffer {s : State} (h : s.Bounded) (sender : Nat) (o : OfferItem) : (s.judgeOffer sender o).Bounded := by
  unfold State.judgeOffer
  split
  · exact h
  · dsimp only
    split
    · exact h.reply _
    · split
      · exact h.reply _
      · split
        · exact h.reply _
        · exact (h.modXfer _ _).reply _

theorem askTransfer {s : State} (h : s.Bounded) (c : Fin 6) : (s.askTransfer c).Bounded := by
  unfold State.askTransfer
  split
  · exact h.modCh c |>.foldl (fun _ a hs => hs.ask c a) _
  · exact h

theorem accepted {s : State} (h : s.Bounded) (c : Fin 6) : (s.accepted c).Bounded := by
  have hended := (h.modXfer c fun x =>
    { x with state := .accepted, acceptedOnce := true, driveStarted := false }).offerWait c false
  exact ite (fun _ => hended) fun _ => hended.askTransfer c

theorem declined {s : State} (h : s.Bounded) (c : Fin 6) (d : DeclineReason) : (s.declined c d).Bounded := by
  have htold := ((h.modXfer c fun x => { x with state := .suspended }).offerWait c false).chEvent c .offerDeclined
    (declineEvent d)
  exact ite (fun _ => htold.modCh c) fun _ => htold.pause c _ _

theorem handleReply {s : State} (h : s.Bounded) (sender : Nat) (r : ReplyItem) : (s.handleReply sender r).Bounded := by
  unfold State.handleReply
  split
  · exact h
  · dsimp only
    split
    · exact h
    · split
      · split
        · exact h.accepted _
        · exact h.declined _ _
      · exact ite (fun _ => h.castend _) fun _ => h

theorem placePiece {s : State} (h : s.Bounded) (c : Fin 6) (content : Piece) (orphan : Bool) :
    (s.placePiece c content orphan).Bounded := (h.modCh c).countReceived.endXfer c

theorem settlePiece {s : State} (h : s.Bounded) (c : Fin 6) : (s.settlePiece c).Bounded := by
  unfold State.settlePiece
  split
  · exact h.starve c
  all_goals exact h

theorem arrive {s : State} (h : s.Bounded) (c : Fin 6) (source : Pair) (content : Piece) :
    (s.arrive c source content).Bounded := by
  have hplaced := (h.placePiece c content false).chEvent c .pieceIn [2, pairByte source, 0, 0]
  exact ite (fun _ => hplaced.startPhase c false) fun _ => hplaced.settlePiece c

theorem modPiece {s : State} (h : s.Bounded) (c : Fin 6) (f : Piece → Piece) : (s.modPiece c f).Bounded := h.modCh c

theorem handleCastend {s : State} (h : s.Bounded) (sender : Nat) (x : CastendItem) :
    (s.handleCastend sender x).Bounded := by
  unfold State.handleCastend
  split
  · exact h
  · dsimp only
    split
    · exact ite (fun _ => h.arrive _ _ _) fun _ => ite (fun _ => (h.modPiece _ _).chEvent _ _ _) fun _ => h
    · exact ite (fun _ => h.endXfer _) fun _ => ite (fun _ => h.chEvent _ _ _) fun _ => h

theorem makeOrphan {s : State} (h : s.Bounded) (c : Fin 6) (value : Nat) : (s.makeOrphan c value).Bounded := by
  unfold State.makeOrphan
  split
  · exact h
  next p _ =>
    have hplaced := (h.placePiece c p true).chEvent c .orphan [value, 0, 0, 0]
    exact ite (fun _ => hplaced.pause c _ _) fun _ => hplaced.settlePiece c

theorem castRead {s : State} (h : s.Bounded) (x : CastendItem) : (s.castRead x).Bounded := by
  unfold State.castRead
  split
  · split
    · have hended (kind : EventKind) (c : Fin 6) (p : Option Word16) (value : List Nat) :=
        (((h.modCh c (f := fun h => { h with piece := none, leftPiece := p, lastEnd := none })).countHanded.event kind
          (some c) p value).endXfer c).offerWait c false
      exact ite (fun _ => (hended _ _ _ _).finish _ _) fun _ => hended _ _ _ _
    · exact h
  · exact h

theorem lossAt {s : State} (h : s.Bounded) (station : Nat) (c : Fin 6) : (s.lossAt station c).Bounded := by
  unfold State.lossAt
  dsimp only
  split
  · split
    · exact h.makeOrphan c 1
    · split
      · exact h.modPiece c _
      · exact ite (fun _ => (h.cancelPartner c).endXfer c) fun _ =>
          (((h.modCh c).dropAll c).modXfer c _).pause c _ _
    all_goals exact h
  · exact h

theorem lose {s : State} (h : s.Bounded) (station : Nat) : (s.lose station).Bounded :=
  (h.expireClaims station).foldl (fun _ c hs => hs.lossAt station c) _

theorem turnEnds {s : State} (h : s.Bounded) (c : Fin 6) (reason : EndReason) : (s.turnEnds c reason).Bounded :=
  ((h.dropOn c .turner).modCh c).finish c reason

theorem handleTurnend {s : State} (h : s.Bounded) (t : TurnendItem) : (s.handleTurnend t).Bounded := by
  unfold State.handleTurnend
  split
  · exact h
  · exact ite (fun _ => h.turnEnds _ _) fun _ => h

theorem discardPiece {s : State} (h : s.Bounded) (c : Fin 6) : (s.discardPiece c).Bounded := by
  unfold State.discardPiece
  split
  · exact h
  · dsimp only
    have hdropped := (h.modCh c (f := fun h => { h with piece := none, discardPending := false })).countDiscarded.dropAll c
    refine State.Bounded.event (State.Bounded.modCh (State.Bounded.dropCaptures ?_ c) c) _ _ _ _
    split
    · exact hdropped.endOffer c
    · exact hdropped.endOffer c
    · exact hdropped
    · exact ite (fun _ => hdropped) fun _ => hdropped.endOffer c
    · exact hdropped
    · exact hdropped

/-! ### The Line Controller -/

theorem modLine {s : State} (h : s.Bounded) (f : Line → Line) : (s.modLine f).Bounded := h

theorem mark {s : State} (h : s.Bounded) (f : RoundRecord → RoundRecord) : (s.mark f).Bounded := h

theorem modPeer {s : State} (h : s.Bounded) (a : Nat) (f : Peer → Peer) : (s.modPeer a f).Bounded := h

theorem newcomer {s : State} (h : s.Bounded) (a : Nat) : (s.newcomer a).Bounded := h

theorem depart {s : State} (h : s.Bounded) : s.depart.Bounded :=
  (h.modPeer s.cfg.address _).clearClaims.voidHoldings.allAsked.modLine _

theorem enterListening {s : State} (h : s.Bounded) : s.enterListening.Bounded := (h.modLine _).setLine _

theorem enterJoining {s : State} (h : s.Bounded) : s.enterJoining.Bounded := (h.modLine _).setLine _

theorem windowAtEnd {s : State} (h : s.Bounded) : s.windowAtEnd.Bounded := h.same (by simp)

theorem takeSender {s : State} (h : s.Bounded) (x : Option Nat) : (s.takeSender x).Bounded := h.same (by simp)

theorem enterMute {s : State} (h : s.Bounded) : s.enterMute.Bounded := by
  have hdeparted : s.departIfMember.Bounded := ite (fun _ => h.depart) fun _ => h
  exact (hdeparted.modLine _).setLine _

theorem muteDown {s : State} (h : s.Bounded) : s.muteDown.Bounded :=
  ite (fun _ => ite (fun _ => h.enterListening) fun _ => h.modLine _) fun _ => h

theorem enterClocking {s : State} (h : s.Bounded) : s.enterClocking.Bounded := by
  have hempty : s.emptyTable.Bounded := ite (fun _ => h.depart) fun _ => h.clearClaims
  exact ((hempty.modLine _).mark _).setLine _

theorem followPeers {s : State} (h : s.Bounded) : s.followPeers.Bounded := h.same (by simp)

theorem becomeMember {s : State} (h : s.Bounded) : s.becomeMember.Bounded :=
  (((h.modPeer _ _).modLine _).setLine _).followPeers

theorem hearHeader {s : State} (h : s.Bounded) (f : TurnFrame) : (s.hearHeader f).Bounded := by
  have hpeer : (s.modPeer f.sender fun p => heardPeer p f.home f.available).Bounded := h
  exact (ite (fun _ => hpeer.recordFault _ _ _) fun _ => hpeer).followPeers

theorem losePeer {s : State} (h : s.Bounded) (a : Nat) : (s.losePeer a).Bounded :=
  (h.modPeer a _).followPeers.lose a

theorem charge {s : State} (h : s.Bounded) (a : Nat) : (s.charge a).Bounded :=
  ite (fun _ => h) fun _ => ite (fun _ => (h.modLine _).losePeer a) fun _ =>
    (h.modLine _).modPeer a _

theorem chargeAll {s : State} (h : s.Bounded) (l : List Nat) : (s.chargeAll l).Bounded :=
  h.foldl (fun _ a hs => hs.charge a) l

theorem heardOther {s : State} (h : s.Bounded) : s.heardOther.Bounded := h.same (by simp)

theorem offerUnanswered {s : State} (h : s.Bounded) (c : Fin 6) : (s.offerUnanswered c).Bounded :=
  ((h.modXfer c _).offerWait c false).pause c _ _

theorem offerRound {s : State} (h : s.Bounded) (c : Fin 6) : (s.offerRound c).Bounded :=
  ite (fun _ => ite (fun _ => h.offerUnanswered c) fun _ => h.modXfer c _) fun _ => h

theorem countRound {s : State} (h : s.Bounded) : s.countRound.Bounded := by
  have haged := h.mapOwn (f := fun o => { o with age := raise 4095 o.age }) fun _ => ⟨rfl, rfl⟩
  exact (haged.foldl (fun _ c hs => hs.offerRound c) channels).serve

theorem judgeDissent {s : State} (h : s.Bounded) (opener : Nat) (digest : Word16) : (s.judgeDissent opener digest).Bounded :=
  ite (fun _ => ite (fun _ => h.modLine _) fun _ => ite (fun _ => h) fun _ =>
    (h.voidHoldings.modLine _).recordFault _ _ _) fun _ => h

theorem openRound {s : State} (h : s.Bounded) : s.openRound.Bounded :=
  ((h.modLine _).modLine _).muteDown.countRound

theorem heardOpening {s : State} (h : s.Bounded) (f : TurnFrame) : (s.heardOpening f).Bounded := by
  have hopened := ((h.modLine fun l => { l with round := f.round }).judgeDissent f.sender f.digest).openRound
  exact ite (fun _ => hopened) fun _ => hopened.mark _

theorem countComplete {s : State} (h : s.Bounded) : s.countComplete.Bounded :=
  ite (fun _ => ite (fun _ => (h.modLine _).enterJoining) fun _ => h.modLine _) fun _ => h.modLine _

theorem isolate {s : State} (h : s.Bounded) : s.isolate.Bounded := (h.voidHoldings.modLine _).mark _

/-! ### Own frames -/

theorem startTurn {s : State} (h : s.Bounded) (opening cold : Bool) (round : Word16) :
    (s.startTurn opening cold round).Bounded := by
  obtain ⟨hreplies, hcastends, hturnends, hbook, hevents, hoverflow, hown, hch⟩ := h
  exact ⟨by simpa [State.startTurn] using hreplies, by simpa [State.startTurn] using hcastends,
    by simpa [State.startTurn] using hturnends, hbook, hevents, hoverflow,
    hown.map (f := fun o => { o with sent := s.sentMark (s.buildTurn opening round).claims o }) fun _ => ⟨rfl, rfl⟩, hch⟩

theorem startOpening {s : State} (h : s.Bounded) : s.startOpening.Bounded := by
  have hopened : s.ownOpening.Bounded := (h.modLine _).openRound
  unfold State.startOpening
  exact (hopened.startTurn _ _ _).modLine _

theorem startCold {s : State} (h : s.Bounded) : s.startCold.Bounded := (h.modLine _).startTurn _ _ _

theorem abortCounted {s : State} (h : s.Bounded) : s.abortCounted.Bounded :=
  ite (fun _ => (h.modLine _).enterMute) fun _ => h.modLine _

theorem aborted {s : State} (h : s.Bounded) (own : OwnFrame) (other : Bool) : (s.aborted own other).Bounded := by
  have hends : (s.abortEnds own other).Bounded := h.same (by simp)
  unfold State.aborted
  split
  · exact hends
  · exact hends.abortCounted
  · exact hends.abortCounted

theorem abortsTwice {s : State} (h : s.Bounded) : s.abortsTwice.Bounded := by
  refine State.Bounded.enterMute (h.same ?_)
  split <;> simp

theorem applyMerge {s : State} (h : s.Bounded) (c : Fin 6) : (s.applyMerge c).Bounded := by
  unfold State.applyMerge
  dsimp only
  split
  · split
    · exact (h.filterOwn _).mapOwn fun _ => by split <;> exact ⟨rfl, rfl⟩
    · exact h
  · exact h

theorem granted {s : State} (h : s.Bounded) (o : OwnClaim) : (s.granted o).Bounded := by
  have hturn : State.Bounded (if o.resource = .turner && (s.ch o.channel).inPhase .turn then
      s.modCh o.channel fun h => { h with step := some .held, turnRound := some s.line.round } else s) :=
    ite (fun _ => h.modCh _) fun _ => h
  exact (ite (fun _ => hturn.turnerGranted) fun _ => hturn).follow _

theorem updatedClaim_identity (found : Bool) (o : OwnClaim) :
    (updatedClaim found o).channel = o.channel ∧ (updatedClaim found o).slot = o.slot := by
  unfold updatedClaim
  split
  · exact ⟨rfl, rfl⟩
  · split <;> exact ⟨rfl, rfl⟩

theorem broughtUp_identity (s : State) (items : List ClaimItem) (o : OwnClaim) :
    (s.broughtUp items o).channel = o.channel ∧ (s.broughtUp items o).slot = o.slot := by
  unfold State.broughtUp
  extract_lets found o'
  have hshed : o'.channel = o.channel ∧ o'.slot = o.slot := by
    simp only [o']
    split <;> exact ⟨rfl, rfl⟩
  have hupdated := updatedClaim_identity found o'
  rw [hshed.1, hshed.2] at hupdated
  split
  · exact ⟨rfl, rfl⟩
  · exact ⟨rfl, rfl⟩
  · exact hupdated
  · exact hshed
  all_goals exact hupdated

theorem updateOwn {s : State} (h : s.Bounded) (items : List ClaimItem) : (s.updateOwn items).Bounded := by
  unfold State.updateOwn
  extract_lets s1 taken s2 s3
  have hmerged : s1.Bounded := h.foldl (fun _ c hs => hs.applyMerge c) channels
  have hupdated : s2.Bounded := hmerged.mapOwn (broughtUp_identity s1 items)
  have hgranted : s3.Bounded := hupdated.foldl (fun _ o hs => hs.granted o) taken
  exact hgranted.foldl (fun _ c hs => hs.follow c) channels

theorem captureRead {s : State} (h : s.Bounded) (c : Fin 6) : (s.captureRead c).Bounded :=
  ite (fun _ => h) fun _ => ite (fun _ => h.finish c _) fun _ => h

/-- What follows at the channel of an own entry that was appended. -/
theorem entryTold {s : State} (h : s.Bounded) (c : Fin 6) (e : EntryItem) (here : Bool) (value : List Nat) :
    State.Bounded (if here && e.kind = .discard
      then ((if here then s.modPiece c (entryPiece e) else s).event .gaugeTaken (some c) e.piece value).discardPiece c
      else (if here then s.modPiece c (entryPiece e) else s).event .gaugeTaken (some c) e.piece value) := by
  have htold := State.Bounded.event (ite (p := here = true) (fun _ => h.modPiece c (entryPiece e)) fun _ => h)
    .gaugeTaken (some c) e.piece value
  exact ite (fun _ => htold.discardPiece c) fun _ => htold

theorem ownEntry {s : State} (h : s.Bounded) (round : Word16) (e : EntryItem) : (s.ownEntry round e).Bounded := by
  have happended := h.append e 1 round s.cfg.address
  unfold State.ownEntry
  dsimp only
  split
  · exact happended.countBook ⟨rfl, rfl, rfl⟩
  · obtain ⟨hentries, hpend, hwaiting⟩ := happended.book
    have htaken := happended.withBook (b := { (s.append e 1 round s.cfg.address).book with
      pend := (s.append e 1 round s.cfg.address).book.pend.drop 1 })
      ⟨hentries, (List.length_drop ▸ Nat.sub_le _ _).trans hpend, hwaiting⟩
    split
    · exact htaken
    · exact ite (fun _ => (htaken.entryTold _ e _ _).captureRead _) fun _ => htaken.entryTold _ e _ _

theorem ownEntries {s : State} (h : s.Bounded) (f : TurnFrame) : (s.ownEntries f).Bounded :=
  ((h.numberBook f.count).compareCount _ _ _ _).foldl (fun _ e hs => hs.ownEntry f.round e) _

theorem transferItems {s : State} (h : s.Bounded) (f : TurnFrame) (own : Bool) : (s.transferItems f own).Bounded := by
  have hoffers := h.foldl (fun _ o hs => hs.judgeOffer f.sender o) f.offers
  have hreplies := hoffers.foldl (fun _ r hs => hs.handleReply f.sender r) f.replies
  have hcastends := hreplies.foldl (f := fun t x => (if own then t.castRead x else t).handleCastend f.sender x)
    (fun _ x hs => (ite (fun _ => hs.castRead x) fun _ => hs).handleCastend f.sender x) f.castends
  exact hcastends.foldl (fun _ e hs => hs.handleTurnend e) f.turnends

theorem removeCarried {s : State} (h : s.Bounded) : s.removeCarried.Bounded := by
  obtain ⟨hreplies, hcastends, hturnends, hrest⟩ := h
  exact ⟨(unsent_length _).trans hreplies, (unsent_length _).trans hcastends, (unsent_length _).trans hturnends, hrest⟩

theorem ownContent {s : State} (h : s.Bounded) (f : TurnFrame) (ok : Bool) : (s.ownContent f ok).Bounded := by
  have hcharged := (h.hearHeader f).chargeAll (s.chargedBy f.sender f.opening)
  have hclaims := (hcharged.applyClaims f.sender f.claims ok).updateOwn f.claims
  exact ((hclaims.removeCarried.transferItems f true).ownEntries f).serve

theorem turnRead {s : State} (h : s.Bounded) (f : TurnFrame) (ok : Bool) : (s.turnRead f ok).Bounded := by
  refine State.Bounded.takeSender (State.Bounded.ownContent (h.same ?_) f ok) _
  split <;> simp

theorem coldRead {s : State} (h : s.Bounded) (f : TurnFrame) (ok : Bool) : (s.coldRead f ok).Bounded := by
  have hmember := (State.Bounded.mark (s := s.ownEnd) h fun r => { r with notMember := true }).becomeMember
  have hopened := (hmember.modLine fun l => { l with round := 0#16, dissenting := false }).openRound
  exact (((hopened.modLine _).modLine _).ownContent f ok).takeSender _

theorem joinRead {s : State} (h : s.Bounded) : s.joinRead.Bounded :=
  (((State.Bounded.becomeMember (s := s.ownEnd) h).mark _).newcomer _).windowAtEnd

/-! ### Frames heard -/

theorem duplicate {s : State} (h : s.Bounded) : s.duplicate.Bounded := h.enterMute.recordFault _ _ _

theorem hearRound {s : State} (h : s.Bounded) (f : TurnFrame) (late : Bool) : (s.hearRound f late).Bounded := by
  have hcompared : (s.compareRound f.round).Bounded := h.same (by simp)
  have hopened : (s.heardOpening f).openingTime.Bounded := (h.heardOpening f).modLine _
  exact ite (fun _ => ite (fun _ => hopened.countComplete) fun _ => hopened) fun _ =>
    ite (fun _ => hcompared.modLine _) fun _ => hcompared

theorem hearContent {s : State} (h : s.Bounded) (f : TurnFrame) : (s.hearContent f).Bounded := by
  have hcharged := (h.hearHeader f).heardOther.chargeAll (s.chargedBy f.sender f.opening)
  exact ((hcharged.applyClaims f.sender f.claims _).transferItems f false).hearEntries _ _ _ _

theorem heardEnd {s : State} (h : s.Bounded) : s.frameEnd.restartCold.Bounded := h

theorem hearTurn {s : State} (h : s.Bounded) (f : TurnFrame) : (s.hearTurn f).Bounded :=
  ite (fun _ => h.heardEnd.duplicate.takeSender _) fun _ => ((h.heardEnd.hearRound f _).hearContent f).takeSender _

theorem hearJoin {s : State} (h : s.Bounded) (f : JoinFrame) : (s.hearJoin f).Bounded := by
  refine State.Bounded.windowAtEnd (ite (fun _ => ?_) fun _ => ite (fun _ => h.heardEnd.duplicate) fun _ => ?_)
  · exact ((h.heardEnd.modPeer _ _).recordFault _ _ _).heardOther
  · exact ((h.heardEnd.modPeer _ _).newcomer _).heardOther

theorem hearGarbled {s : State} (h : s.Bounded) : s.hearGarbled.Bounded := by
  unfold State.hearGarbled
  extract_lets b charged s1 s2 s3 last s4
  have hends : s1.Bounded := h
  have hopened : s2.Bounded := by
    simp only [s2]
    split
    · exact State.Bounded.modLine (ite (fun _ => hends) fun _ => (hends.modLine _).openRound) _
    · exact hends
    · exact hends
  have hfailed : s2.checkFailed.Bounded := (hopened.modLine _).mark _
  have hcharged : s3.Bounded := hfailed.chargeAll charged
  have hplaced : s4.Bounded := by
    refine hcharged.same ?_
    simp only [s4]
    split <;> simp
  exact ite (fun _ => hplaced.startCold) fun _ => hplaced

end State.Bounded

end Sys2Proof.Machine

/-! ## Proofs: the buffers within their sizes, under every command

The rules of arrivals, resets, timers and requests, and the dispatch: no command leaves a list too long. -/

namespace Sys2Proof.Machine

-- One after the other: the hypothesis that `modCh` and `modTurner` find for themselves waits for all that stands before it.
set_option Elab.async false

@[simp] theorem State.pinTaken_ch (s : State) (c : Fin 6) :
    s.pinTaken.ch c = pinChannel (s.ch c) (s.restartList c) (s.keepsList c) := by
  fin_cases c <;> rfl

namespace State.Bounded

/-! ### Arrivals -/

theorem sensorChange {s : State} (h : s.Bounded) (c : Fin 6) (i : Input) (was is : Bool) :
    (s.sensorChange c i was is).Bounded :=
  ite (fun _ => h.chEvent _ _ _) fun _ => ite (fun _ => h.chEvent _ _ _) fun _ => h

theorem sample {s : State} (h : s.Bounded) (c : Fin 6) (raw : RawArrival) : (s.sample c raw).Bounded :=
  (h.modCh c).foldl (fun _ i hs => hs.sensorChange c i _ _) inputs

theorem judgeInputs {s : State} (h : s.Bounded) (c : Fin 6) : (s.judgeInputs c).Bounded :=
  h.foldl (fun _ _ hs => ite (fun _ => hs.halt c _) fun _ => hs) inputs

theorem setpointAtArrival_kept (h : Channel) :
    (setpointAtArrival h).records = h.records ∧ (setpointAtArrival h).restart = h.restart := by
  have htaken : (takeRampStart h).records = h.records ∧ (takeRampStart h).restart = h.restart := by
    unfold takeRampStart
    split <;> exact ⟨rfl, rfl⟩
  unfold setpointAtArrival
  split
  · dsimp only
    split
    · exact htaken
    · exact htaken
  · exact ⟨rfl, rfl⟩

theorem accumulate {s : State} (h : s.Bounded) (c : Fin 6) : (s.accumulate c).Bounded :=
  ite (fun _ => h.modCh c) fun _ => h

theorem judgeLevel {s : State} (h : s.Bounded) (c : Fin 6) (level : Option Int) : (s.judgeLevel c level).Bounded :=
  ite (fun _ => (h.modCh c).offerCaptures c _) fun _ => h.modCh c

theorem fillEnd {s : State} (h : s.Bounded) (c : Fin 6) (r : PhaseRecord) : (s.fillEnd c r).Bounded := by
  have hdropped := (h.modCh c (f := fun h => { h with step := some .standing, standMark := some h.timer })).dropOn c .water
  exact ite (fun _ => (hdropped.modCh c).ask c _) fun _ => hdropped

theorem drainEnd {s : State} (h : s.Bounded) (c : Fin 6) : (s.drainEnd c).Bounded := h.modCh c

theorem castEnd {s : State} (h : s.Bounded) (c : Fin 6) : (s.castEnd c).Bounded :=
  ((h.modCh c).dropAll c).completeCast c

theorem fillShed {s : State} (h : s.Bounded) (c : Fin 6) : (s.fillShed c).Bounded :=
  ite (fun _ => h) fun _ => (h.shedPoint c _).modCh c

theorem steepRunning {s : State} (h : s.Bounded) (c : Fin 6) (r : PhaseRecord) : (s.steepRunning c r).Bounded := by
  unfold State.steepRunning
  dsimp only
  split
  · exact ite (fun _ => h.fillEnd c r) fun _ => h.fillShed c
  · exact ite (fun _ => h.drainEnd c) fun _ => h
  · exact h.judgeLevel c _
  · exact ite (fun _ => h.castEnd c) fun _ => h
  · exact h

theorem steepArrival {s : State} (h : s.Bounded) (c : Fin 6) : (s.steepArrival c).Bounded := by
  unfold State.steepArrival
  dsimp only
  split
  · exact ite (fun _ => h.steepRunning c _) fun _ => ite (fun _ => h.fillShed c) fun _ => h
  · exact h

theorem askTopUp {s : State} (h : s.Bounded) (c : Fin 6) : (s.askTopUp c).Bounded := by
  unfold State.askTopUp
  split
  next n a hfree _ =>
    have hslot : n ∈ [0, 1, 2] := List.mem_of_find?_eq_some hfree
    exact (h.askAt c (by simp at hslot; omega) a).modCh c
  next => exact h.modCh c

theorem judgeLimited {s : State} (h : s.Bounded) (c : Fin 6) : (s.judgeLimited c).Bounded :=
  ite (fun _ => h.modCh c) fun _ => ite (fun _ => h.askTopUp c) fun _ => h.modCh c

theorem fanLaw {s : State} (h : s.Bounded) (c : Fin 6) (r : PhaseRecord) : (s.fanLaw c r).Bounded :=
  ((h.shedPoint c _).modCh c).judgeLimited c

theorem boxArrival {s : State} (h : s.Bounded) (c : Fin 6) : (s.boxArrival c).Bounded := by
  unfold State.boxArrival
  dsimp only
  split
  · exact h
  · split
    · exact h.fanLaw c _
    · split
      · split
        · exact h.judgeLevel c _
        · exact ite (fun _ => h.castEnd c) fun _ => h
        · exact h
      · exact h

theorem burnerArrival {s : State} (h : s.Bounded) (c : Fin 6) : (s.burnerArrival c).Bounded := by
  unfold State.burnerArrival
  split
  · exact ite (fun _ => (h.modCh c).halt c _) fun _ => (h.modCh c).modCh c
  · exact h.modCh c

theorem judgeBreak {s : State} (h : s.Bounded) (c : Fin 6) (r : PhaseRecord) : (s.judgeBreak c r).Bounded := by
  unfold State.judgeBreak
  split
  · exact h
  · exact ite (fun _ => ite (fun _ => (h.modCh c).complete c _) fun _ => h.modCh c) fun _ => h.modCh c

theorem makeMoisture {s : State} (h : s.Bounded) (c : Fin 6) (values : List Int) : (s.makeMoisture c values).Bounded := by
  unfold State.makeMoisture
  split
  · exact h
  · exact ((h.countBook (b := { s.book with sample := nextSample s.book.sample }) ⟨rfl, rfl, rfl⟩).modCh c).offerCaptures c _

theorem addReading {s : State} (h : s.Bounded) (c : Fin 6) (v : Int) : (s.addReading c v).Bounded :=
  ite (fun _ => h.makeMoisture c _) fun _ => h.modCh c

theorem readMoisture {s : State} (h : s.Bounded) (c : Fin 6) : (s.readMoisture c).Bounded := by
  unfold State.readMoisture
  split
  · exact h.modCh c
  · exact h.addReading c _

theorem kilnArrival {s : State} (h : s.Bounded) (c : Fin 6) : (s.kilnArrival c).Bounded := by
  have hburned := h.burnerArrival c
  unfold State.kilnArrival
  dsimp only
  split
  · split
    · exact hburned.judgeBreak c _
    · exact ite (fun _ => hburned.readMoisture c) fun _ => hburned
    · exact hburned
  · exact hburned

theorem judgeOverload {s : State} (h : s.Bounded) (active : Bool) : (s.judgeOverload active).Bounded :=
  ite (fun _ => ite (fun _ => ite (fun _ => h.modTurner.turnerFaults) fun _ => h.modTurner) fun _ => h.modTurner)
    fun _ => h

theorem kindArrival {s : State} (h : s.Bounded) (c : Fin 6) (raw : RawArrival) : (s.kindArrival c raw).Bounded := by
  unfold State.kindArrival
  split
  · exact h.steepArrival c
  · exact h.boxArrival c
  · exact h.kilnArrival c
  · exact h.judgeOverload raw.active
  · exact h

theorem arrival {s : State} (h : s.Bounded) (c : Fin 6) (raw : RawArrival) : (s.arrival c raw).Bounded := by
  have hset := (h.sample c raw).modCh c (f := fun h => setpointAtArrival { h with clock := some 0 })
    fun x => setpointAtArrival_kept { x with clock := some 0 }
  exact (((hset.accumulate c).repeatAsks c).kindArrival c raw).judgeInputs c

/-! ### Resets and loads -/

theorem newChannel_bounded (k : Kind) : (newChannel k).Bounded := ⟨Nat.zero_le _, by simp [newChannel]⟩

theorem freshChannel_bounded : Channel.Bounded {} := ⟨Nat.zero_le _, by simp⟩

theorem poweredUp (s : State) (held : Bool) : (s.poweredUp held).Bounded := by
  refine ⟨Nat.zero_le _, Nat.zero_le _, Nat.zero_le _, ⟨Nat.zero_le _, Nat.zero_le _, Nat.zero_le _, List.nodup_nil⟩,
    Nat.zero_le _, Nat.zero_le _, .nil, fun c => ?_⟩
  show ((Six.all ({} : Channel)).get c).Bounded
  rw [Six.get_all]
  exact freshChannel_bounded

theorem restartList_slots {s : State} (h : s.Bounded) (c : Fin 6) : ∀ x ∈ (s.restartList c).getD [], x.slot < 3 := by
  obtain ⟨_, _, hown⟩ := h.own
  unfold State.restartList
  split
  · exact (h.channel c).2
  · split
    · intro x hx
      obtain ⟨o, ho, rfl⟩ := List.mem_map.1 hx
      exact hown o (List.mem_of_mem_filter ho)
    · simp

theorem pinTaken {s : State} (h : s.Bounded) : s.pinTaken.Bounded := by
  have hch := h.channel
  have hlists := h.restartList_slots
  obtain ⟨_, hcastends, _, hbook, _⟩ := h
  refine ⟨Nat.zero_le _, hcastends, Nat.zero_le _, hbook, Nat.zero_le _, Nat.zero_le _, .nil, fun c => ?_⟩
  rw [State.pinTaken_ch]
  exact ⟨(hch c).1, hlists c⟩

theorem takePin {s : State} (h : s.Bounded) : s.takePin.Bounded :=
  ite (fun _ => h) fun _ => ite (fun _ => poweredUp s true) fun _ => h.pinTaken

theorem mapCh {s : State} (h : s.Bounded) {f : Fin 6 → Channel → Channel} (hf : ∀ c x, x.Bounded → (f c x).Bounded) :
    (s.mapCh f).Bounded := by
  have hch := h.channel
  obtain ⟨hreplies, hcastends, hturnends, hbook, hevents, hoverflow, hown, _⟩ := h
  refine ⟨hreplies, hcastends, hturnends, hbook, hevents, hoverflow, hown, fun c => ?_⟩
  rw [State.mapCh_ch]
  exact hf c _ (hch c)

/-- A change of a channel that forgets its restart list, or more. -/
theorem forget {s : State} (h : s.Bounded) (c : Fin 6) {f : Channel → Channel} (hf : ∀ x, x.Bounded → (f x).Bounded) :
    (s.modCh c f).Bounded := h.setCh c (hf _ (h.channel c))

theorem noRestart {x y : Channel} (h : x.Bounded) (hrecords : y.records = x.records) (hrestart : y.restart = none) :
    y.Bounded := ⟨hrecords ▸ h.1, by simp [hrestart]⟩

theorem askRestart {s : State} (h : s.Bounded) (c : Fin 6) : (s.askRestart c).Bounded := by
  have hslots : ∀ x ∈ askedList (s.ch c), x.slot < 3 := by
    unfold askedList
    split
    · simp
    · exact (h.channel c).2
  have hasked (l : List Saved) (hl : ∀ x ∈ l, x.slot < 3) (t : State) (ht : t.Bounded) :
      (l.foldl (fun t x => t.askSaved c x) t).Bounded := by
    induction l generalizing t with
    | nil => exact ht
    | cons x r ih =>
      rw [List.forall_mem_cons] at hl
      exact ih hl.2 _ ((ht.askAt c hl.1 x.ask).modOwn c x.slot (f := fun o => { o with restartAsk := true })
        fun _ => ⟨rfl, rfl⟩)
  exact (hasked _ hslots s h).forget c fun _ hx => noRestart hx rfl rfl

theorem pauseRestart {s : State} (h : s.Bounded) (c : Fin 6) (resume : Resume) : (s.pauseRestart c resume).Bounded :=
  (h.modCh c).chEvent c _ _

theorem castRestart {s : State} (h : s.Bounded) (c : Fin 6) : (s.castRestart c).Bounded :=
  (h.modPiece c _).pauseRestart c _

theorem dropList {s : State} (h : s.Bounded) (c : Fin 6) : (s.dropList c).Bounded :=
  h.forget c fun _ hx => noRestart hx rfl rfl

theorem decide {s : State} (h : s.Bounded) (c : Fin 6) : (s.decide c).Bounded := by
  unfold State.decide
  dsimp only
  split
  · exact ite (fun _ => h.castRestart c) fun _ => ite (fun _ => h.pauseRestart c _) fun _ => h.askRestart c
  · exact ite (fun _ => h.pauseRestart c _) fun _ => h.askRestart c
  · exact ite (fun _ => h.castRestart c) fun _ => ite (fun _ => h) fun _ => h.askRestart c
  all_goals exact h.dropList c

theorem newStation {s : State} (h : s.Bounded) (image : List Byte) : (s.newStation image).Bounded := by
  obtain ⟨hreplies, _, hturnends, _, hrest⟩ :=
    h.mapCh (f := fun c _ => newChannel ((imageKinds image).get c)) fun _ _ _ => newChannel_bounded _
  exact ⟨hreplies, Nat.zero_le _, hturnends, ⟨Nat.zero_le _, Nat.zero_le _, Nat.zero_le _, List.nodup_nil⟩, hrest⟩

theorem recordRestart {s : State} (h : s.Bounded) : s.recordRestart.Bounded := h

theorem keptChannel_bounded {x : Channel} (h : x.Bounded) (k : Kind) : (keptChannel x k).Bounded := by
  unfold keptChannel
  split
  · exact h
  · exact newChannel_bounded k

theorem takeStates {s : State} (h : s.Bounded) (image : List Byte) (digest : Option Word16) :
    (s.takeStates image digest).Bounded := by
  unfold State.takeStates
  split
  · exact h.newStation image
  · refine ite (fun _ => ?_) fun _ => (h.newStation image).recordRestart.faultAt _ _ _ _
    exact (h.mapCh fun _ _ hx => keptChannel_bounded hx _).recordRestart.foldl (fun _ c hs => hs.decide c) _

theorem leaveClocking {s : State} (h : s.Bounded) : s.leaveClocking.Bounded :=
  ite (fun _ => h.enterListening) fun _ => h

theorem goodLoad {s : State} (h : s.Bounded) (image : List Byte) : (s.goodLoad image).Bounded := by
  have hloaded : (s.loadImage image).Bounded := h
  have hstates := hloaded.takeStates image s.loader.lastDigest
  have hclocks := hstates.mapCh (f := fun _ h => startClock h) fun _ _ hx => hx
  exact State.Bounded.leaveClocking (s := State.emptyReply _) hclocks

theorem badLoad {s : State} (h : s.Bounded) : s.badLoad.Bounded := by
  unfold State.badLoad
  extract_lets _ s1 s2
  have hline : s2.Bounded := State.Bounded.setLine (s := s1) h _
  split
  · exact hline
  · exact hline

theorem endLoad {s : State} (h : s.Bounded) (image : List Byte) : (s.endLoad image).Bounded :=
  ite (fun _ => ite (fun _ => h.goodLoad image) fun _ => h.badLoad) fun _ => h

theorem crystalIsReady {s : State} (h : s.Bounded) : s.crystalIsReady.Bounded :=
  ite (fun _ => State.Bounded.leaveClocking (s := State.setXtal _) h) fun _ => h

theorem crystalIsLost {s : State} (h : s.Bounded) : s.crystalIsLost.Bounded := by
  unfold State.crystalIsLost
  extract_lets _ s1 s2
  have hlost : s2.Bounded := h
  exact ite (fun _ => ite (fun _ => hlost.enterClocking) fun _ => hlost) fun _ => h

/-! ### The line's instants -/

theorem coldExpires {s : State} (h : s.Bounded) : s.coldExpires.Bounded :=
  ite (fun _ => ite (fun _ => h.startCold) fun _ => h.modLine _) fun _ => h

theorem opens {s : State} (h : s.Bounded) : s.opens.Bounded := by
  unfold State.opens
  split
  · exact ite (fun _ => State.Bounded.startOpening (s := s.atOpening _) h) fun _ => h
  · exact h

theorem takesTurn {s : State} (h : s.Bounded) : s.takesTurn.Bounded := by
  unfold State.takesTurn
  split
  · exact ite (fun _ => (h.modLine _).startTurn _ _ _) fun _ => h
  · exact h

theorem windowBySilence {s : State} (h : s.Bounded) : s.windowBySilence.Bounded := by
  unfold State.windowBySilence
  split
  · exact ite (fun _ => (h.chargeAll _).modLine _) fun _ => h
  · exact h

/-! ### Process timers -/

theorem timerAt {s : State} (h : s.Bounded) (c : Fin 6) (t : Nat) : (s.timerAt c t).Bounded := h.modCh c

theorem durationDone {s : State} (h : s.Bounded) (c : Fin 6) (r : PhaseRecord) : (s.durationDone c r).Bounded := by
  unfold State.durationDone
  split
  · exact ite (fun _ => h.castEnd c) fun _ => h
  · exact ite (fun _ => h.castEnd c) fun _ => h
  · exact h.finish c _
  · refine (h.modCh c fun x => ?_).finish c _
    unfold durationFlags
    split <;> exact ⟨rfl, rfl⟩

theorem durationReached {s : State} (h : s.Bounded) (c : Fin 6) : (s.durationReached c).Bounded := by
  unfold State.durationReached
  split
  · exact h
  · split
    · exact h
    · exact ite (fun _ => (h.timerAt c _).durationDone c _) fun _ => h

theorem beginBlend_kept (h : Channel) (t : Nat) :
    (beginBlend h t).records = h.records ∧ (beginBlend h t).restart = h.restart := by
  unfold beginBlend
  split <;> exact ⟨rfl, rfl⟩

theorem blowerOnEdge {s : State} (h : s.Bounded) (c : Fin 6) : (s.blowerOnEdge c).Bounded := by
  unfold State.blowerOnEdge
  split
  · exact ite (fun _ => h.modCh c) fun _ => h
  · exact h

theorem blowerOffEdge {s : State} (h : s.Bounded) (c : Fin 6) : (s.blowerOffEdge c).Bounded := by
  unfold State.blowerOffEdge
  split
  · exact ite (fun _ => (h.modCh c).shedPoint c _) fun _ => h
  · exact h

theorem restShed {s : State} (h : s.Bounded) (c : Fin 6) : (s.restShed c).Bounded :=
  ite (fun _ => h) fun _ => (h.shedPoint c _).modCh c

theorem airRestEdge {s : State} (h : s.Bounded) (c : Fin 6) : (s.airRestEdge c).Bounded := by
  unfold State.airRestEdge
  split
  · exact ite (fun _ => (h.modCh c).restShed c) fun _ => h
  · exact h

theorem sprayEdge {s : State} (h : s.Bounded) (c : Fin 6) : (s.sprayEdge c).Bounded := by
  unfold State.sprayEdge
  split
  · exact ite (fun _ => h.modCh c fun _ => by split <;> exact ⟨rfl, rfl⟩) fun _ => h
  · exact h

/-! ### Requests -/

theorem answer {s : State} (h : s.Bounded) (code : Byte) (result : Result) (data : List Nat) :
    (s.answer code result data).Bounded := h

theorem lateBlend_kept (h : Channel) (r : PhaseRecord) :
    (lateBlend h r).records = h.records ∧ (lateBlend h r).restart = h.restart := by
  unfold lateBlend
  split
  · split <;> exact ⟨rfl, rfl⟩
  · exact ⟨rfl, rfl⟩

theorem placeRecord_kept (h : Channel) (r : PhaseRecord) :
    (placeRecord h r).records = h.records ∧ (placeRecord h r).restart = h.restart := by
  unfold placeRecord
  split
  · exact ⟨rfl, rfl⟩
  · exact lateBlend_kept { h with next := some r } r

theorem loadAt {s : State} (h : s.Bounded) (r : PhaseRecord) (c : Fin 6) : (s.loadAt r c).Bounded := by
  unfold State.loadAt
  split
  · exact h.answer _ _ _
  · have hplaced := h.modCh c (f := fun h => placeRecord h r) fun x => placeRecord_kept x r
    exact (ite (fun _ => hplaced.startPhase c false) fun _ => hplaced).answer _ _ _

theorem holdAt {s : State} (h : s.Bounded) (c : Fin 6) : (s.holdAt c).Bounded := by
  unfold State.holdAt
  split
  · exact (h.pause c _ _).answer _ _ _
  · exact (h.pause c _ _).answer _ _ _
  all_goals exact h.answer _ _ _

theorem runAgain {s : State} (h : s.Bounded) (c : Fin 6) : (s.runAgain c).Bounded := (h.modCh c).follow c

theorem resumeRunning {s : State} (h : s.Bounded) (c : Fin 6) : (s.resumeRunning c).Bounded := by
  unfold State.resumeRunning
  split
  · exact (h.runAgain c).complete c _
  · exact h.runAgain c

theorem resumeStarved {s : State} (h : s.Bounded) (c : Fin 6) (orphan : Bool) : (s.resumeStarved c orphan).Bounded :=
  ite (fun _ => h.startPhase c orphan) fun _ => h.starve c

theorem releaseCleared {s : State} (h : s.Bounded) (c : Fin 6) : (s.releaseCleared c).Bounded :=
  ite (fun _ => h.resumeStarved c false) fun _ => ite (fun _ => h.modCh c) fun _ => h.modCh c

theorem offerAgain {s : State} (h : s.Bounded) (c : Fin 6) : (s.offerAgain c).Bounded :=
  (((h.modXfer c _).offerWait c true).modCh c).runAgain c

theorem releaseOffer {s : State} (h : s.Bounded) (c : Fin 6) : (s.releaseOffer c).Bounded :=
  ite (fun _ => h.resumeRunning c) fun _ => h.offerAgain c

theorem releaseRestart {s : State} (h : s.Bounded) (c : Fin 6) : (s.releaseRestart c).Bounded := by
  unfold State.releaseRestart
  extract_lets s1 s2
  have hasked : s1.Bounded := h.askRestart c
  have htransfer : s2.Bounded := ite (fun _ => hasked.askTransfer c) fun _ => hasked
  split
  · exact htransfer.resumeStarved c false
  · exact htransfer.resumeRunning c
  · exact htransfer.resumeRunning c

theorem releasePaused {s : State} (h : s.Bounded) (c : Fin 6) : (s.releasePaused c).Bounded := by
  unfold State.releasePaused
  split
  · exact ite (fun _ => h.resumeStarved c false) fun _ => h.resumeRunning c
  · exact h.resumeStarved c false
  · exact h.releaseCleared c
  · exact h.releaseRestart c
  · exact h.releaseOffer c
  · exact h.releaseOffer c
  · exact h.releaseOffer c
  · exact h.resumeStarved c true
  · exact h

theorem releaseAt {s : State} (h : s.Bounded) (c : Fin 6) : (s.releaseAt c).Bounded := by
  unfold State.releaseAt
  split
  · exact h.answer _ _ _
  · split
    · exact ite (fun _ => (h.startPhase c false).answer _ _ _) fun _ => h.answer _ _ _
    · exact (h.releasePaused c).answer _ _ _
    all_goals exact h.answer _ _ _

theorem clearTransfer {s : State} (h : s.Bounded) (c : Fin 6) : (s.clearTransfer c).Bounded :=
  ite (fun _ => ite (fun _ => (h.modPiece c _).completeCast c) fun _ => (h.cancelPartner c).endXfer c) fun _ => h

theorem clearHaltAt {s : State} (h : s.Bounded) (c : Fin 6) : (s.clearHaltAt c).Bounded :=
  ite (fun _ => (((h.clearTransfer c).modCh c).chEvent c _ _).answer _ _ _) fun _ => h.answer _ _ _

theorem clearTurner {s : State} (h : s.Bounded) : s.clearTurner.Bounded :=
  ite (fun _ => h.modTurner.answer _ _ _) fun _ => h.answer _ _ _

theorem channelResetAt {s : State} (h : s.Bounded) (c : Fin 6) : (s.channelResetAt c).Bounded := by
  have hreset : ((s.dropAll c).modCh c resetChannel).Bounded :=
    (h.dropAll c).forget c fun _ _ => ⟨Nat.zero_le _, by simp [resetChannel]⟩
  exact ite (fun _ => h.answer _ _ _) fun _ => ite (fun _ => h.answer _ _ _) fun _ => hreset.answer _ _ _

theorem withdraw {s : State} (h : s.Bounded) (c : Fin 6) : (s.withdraw c).Bounded :=
  ((h.endOffer c).forget c (f := withdrawnChannel) fun _ hx => noRestart hx rfl rfl).chEvent c _ _

theorem withdrawAt {s : State} (h : s.Bounded) (c : Fin 6) : (s.withdrawAt c).Bounded := by
  have hwithdrawn : State.Bounded (if (s.ch c).discardPending then s.refuse 7#8 .discardPending
      else (s.withdraw c).ok 7#8) := ite (fun _ => h.answer _ _ _) fun _ => (h.withdraw c).answer _ _ _
  unfold State.withdrawAt
  split
  · exact h.answer _ _ _
  · exact h.answer _ _ _
  · exact h.answer _ _ _
  · exact h.answer _ _ _
  · exact hwithdrawn
  · exact hwithdrawn

/-- An entry is placed by a request where fewer than four are pending. -/
theorem placeEntry {s : State} (h : s.Bounded) (item : EntryItem) (hroom : s.bookRefusal = none) :
    (s.placeEntry item).Bounded := by
  obtain ⟨hentries, _, hwaiting⟩ := h.book
  have hpend : s.book.pend.length < 4 := by
    unfold State.bookRefusal at hroom
    split at hroom
    next => cases hroom
    next hfree =>
      simp only [Bool.or_eq_true, decide_eq_true_eq, not_or] at hfree
      omega
  exact h.withBook ⟨hentries, by simp; omega, hwaiting⟩

theorem bookRefusal_of_discardRefusal {s : State} {c : Fin 6} {p : Piece} (h : s.discardRefusal c p = none)
    (hgauged : gauged p = true) : s.bookRefusal = none := by
  unfold State.discardRefusal at h
  grind

theorem bookRefusal_of_handRefusal {s : State} {c : Fin 6} {k : HandKind} {p : Piece} (h : s.handRefusal c k p = none) :
    s.bookRefusal = none := by
  unfold State.handRefusal at h
  grind

theorem discardAt {s : State} (h : s.Bounded) (c : Fin 6) : (s.discardAt c).Bounded := by
  unfold State.discardAt
  split
  · exact h.answer _ _ _
  · split
    · exact h.answer _ _ _
    next hnone =>
      exact ite (fun hgauged => ((h.placeEntry _ (bookRefusal_of_discardRefusal hnone hgauged)).modCh c).answer _ _ _)
        fun _ => (h.discardPiece c).answer _ _ _

theorem handGaugeAt {s : State} (h : s.Bounded) (k : HandKind) (g : Nat) (c : Fin 6) : (s.handGaugeAt k g c).Bounded := by
  unfold State.handGaugeAt
  split
  · exact h.answer _ _ _
  · split
    · exact h.answer _ _ _
    next hnone => exact (h.placeEntry _ (bookRefusal_of_handRefusal hnone)).answer _ _ _

theorem takeBook {s : State} (h : s.Bounded) (sequence : Seq) : (s.takeBook sequence).Bounded := by
  have htaken := h.withBook (fillGaps_bounded (Book.remove_bounded h.book sequence) s.line.round s.cfg.address bookSize)
  exact State.Bounded.serve htaken

theorem popped {s : State} (h : s.Bounded) : s.popped.Bounded := by
  obtain ⟨hreplies, hcastends, hturnends, hbook, hevents, hrest⟩ := h
  exact ⟨hreplies, hcastends, hturnends, hbook, (List.length_drop ▸ Nat.sub_le _ _).trans hevents, hrest⟩

/-! ### Time -/

theorem tick {s : State} (h : s.Bounded) : s.tick.Bounded := by
  unfold State.tick
  extract_lets _ s1 s2
  have hwait : s1.Bounded := ite (fun _ => h) fun _ => h
  have hline : s2.Bounded := ite (fun _ => hwait.modLine _) fun _ => hwait
  exact ite (fun _ => (hline.mapCh (f := fun c h => s.tickChannel c h) fun _ _ hx => hx).modTurner) fun _ => hline

end State.Bounded

/-! ### The dispatch -/

theorem exec_lands_bounded (i : Instr) (s : State) (h : s.Bounded) : Lands State.Bounded (exec i s) := by
  have hanswer (code : Byte) (r : Result) (d : List Nat) : (s.answer code r d).Bounded := h
  cases i with
  | powerUpReset held => exact lands_next (.poweredUp s held)
  | pinReset => exact lands_next h.takePin
  | resetEnd => exact lands_next (.ite (fun _ => h) fun _ => h)
  | configLoadGood image => exact lands_next (h.endLoad image)
  | configLoadBad => exact lands_next (.ite (fun _ => h.badLoad) fun _ => h)
  | stabilizationRestart => exact lands_next (.ite (fun _ => h) fun _ => h)
  | crystalReady => exact lands_next h.crystalIsReady
  | crystalLost => exact lands_next h.crystalIsLost
  | coldWaitExpiry => exact lands_next h.coldExpires
  | openingInstantReached => exact lands_next h.opens
  | turnSlotReached => exact lands_next h.takesTurn
  | joinWindowOpens => exact lands_next h.windowBySilence
  | muteTimerExpiry => exact lands_next h.muteDown
  | joinColdWaitExpiry | muteEnd => exact lands_ite h fun _ => h.enterListening
  | joiningEntry => exact lands_ite h fun _ => (h.modLine _).enterJoining
  | joinDelayExpiry => exact lands_ite h fun _ => (h.modLine _).modLine _
  | lineFrameStart | joinWindowCloses => exact lands_ite h fun _ => h.modLine _
  | muteEntry => exact lands_ite h fun _ => h.abortsTwice
  | isolationTimerExpiry => exact lands_ite h fun _ => h.isolate
  | peerLost a => exact lands_ite h fun _ => h.charge a
  | garbledFrame => exact lands_ite h fun _ => h.hearGarbled
  | validTurnFrameHeard _ =>
    refine lands_ite h fun _ => ?_
    split
    · exact h.hearTurn _
    · exact h.hearGarbled
  | validJoinFrameHeard _ =>
    refine lands_ite h fun _ => ?_
    split
    · exact h.hearJoin _
    · exact h.hearGarbled
  | ownFrameAborted other =>
    refine lands_next ?_
    split
    · exact h.aborted _ other
    · exact h
  | ownTurnReadBack =>
    refine lands_next ?_
    split
    · exact h.turnRead _ _
    · exact h
  | ownJoinReadBack =>
    refine lands_next ?_
    split
    · exact h.joinRead
    · exact h
  | coldOpeningReadBack =>
    refine lands_next ?_
    split
    · exact h.coldRead _ _
    · exact h
  | orphanAcceptLimit c => exact lands_ite h fun _ => h.makeOrphan c 2
  | offerUnanswered c => exact lands_ite h fun _ => h.offerUnanswered c
  | measurementArrival c raw => exact lands_ite h fun _ => h.arrival c raw
  | sensorFault c input =>
    exact lands_ite h fun _ => ((h.modCh c fun _ => by cases input <;> exact ⟨rfl, rfl⟩).chEvent c _ _).judgeInputs c
  | levelSteady c level => exact lands_ite h fun _ => h.judgeLevel c _
  | moistureMade c reading => exact lands_ite h fun _ => h.addReading c _
  | breakthrough c => exact lands_ite h fun _ => (h.modCh c).complete c _
  | flameFail c => exact lands_ite h fun _ => (h.modCh c).halt c _
  | powerLimitedTopUp c => exact lands_ite h fun _ => h.askTopUp c
  | turnerOverloadFault _ => exact lands_ite h fun _ => h.modTurner.turnerFaults
  | gatePulseEnd c => exact lands_ite h fun _ => h.modCh c
  | travelEnd => exact lands_ite h fun _ => h.travelDone
  | turnerTurnDone => exact lands_ite h fun _ => h.turningDone
  | phaseDurationReached c => exact lands_next (h.durationReached c)
  | blowerOnEdge c => exact lands_next (h.blowerOnEdge c)
  | blowerOffEdge c => exact lands_next (h.blowerOffEdge c)
  | airRestEdge c => exact lands_next (h.airRestEdge c)
  | sprayIntervalEdge c => exact lands_next (h.sprayEdge c)
  | standTimeReached c =>
    refine lands_next ?_
    split
    · exact .ite (fun _ => (h.timerAt c _).finish c _) fun _ => h
    · exact h
  | turnLimitReached c =>
    refine lands_next ?_
    split
    · exact .ite (fun _ => (h.timerAt c _).turnEnds c _) fun _ => h
    · exact h
  | fillLimitReached c | settleEnd c =>
    refine lands_next ?_
    split
    · exact .ite (fun _ => (h.timerAt c _).modCh c) fun _ => h
    · exact h
  | blendWindowBegins c =>
    refine lands_next ?_
    split
    · exact .ite (fun _ => (h.timerAt c _).modCh c fun x => State.Bounded.beginBlend_kept x _) fun _ => h
    · exact h
  | hold _ => exact State.vesselRequest_lands h (hanswer _) fun c _ => h.holdAt c
  | release _ => exact State.vesselRequest_lands h (hanswer _) fun c _ => h.releaseAt c
  | channelReset _ => exact State.vesselRequest_lands h (hanswer _) fun c _ => h.channelResetAt c
  | withdrawOffer _ => exact State.vesselRequest_lands h (hanswer _) fun c _ => h.withdrawAt c
  | clearHalt _ => exact State.channelRequest_lands h (hanswer _) h.clearTurner fun c _ => h.clearHaltAt c
  | loadPhase _ r =>
    unfold exec execLoadPhase
    exact State.vesselRequest_lands h (hanswer _) fun c _ => .ite (fun _ => h.loadAt r c) fun _ => h.answer _ _ _
  | setStep _ _ =>
    unfold exec execSetStep
    exact State.vesselRequest_lands h (hanswer _) fun c _ => (h.modCh c).answer _ _ _
  | discard _ low =>
    unfold exec execDiscard
    exact State.vesselRequest_lands h (hanswer _) fun c _ => State.Bounded.discardAt (s := s.sampleElock low) h c
  | handGauge _ k g low =>
    unfold exec execHandGauge
    exact State.vesselRequest_lands h (hanswer _) fun c _ =>
      .ite (fun _ => State.Bounded.handGaugeAt (s := s.sampleElock low) h k g c) fun _ => h.answer _ _ _
  | readChannelStatus _ => unfold exec execReadChannelStatus; exact State.readChannel_lands h (hanswer _)
  | readPhaseRecord _ _ => unfold exec execReadPhaseRecord; exact State.readChannel_lands h (hanswer _)
  | readPieceRecord _ => unfold exec execReadPieceRecord; exact State.readChannel_lands h (hanswer _)
  | readCompletionRecord _ _ =>
    show Lands _ (execReadCompletionRecord _ _ s)
    unfold execReadCompletionRecord
    split
    · exact State.readChannel_lands h (hanswer _)
    · exact State.request_lands h fun _ => hanswer _ _ _
  | readClaimTableEntry _ => unfold exec execReadClaimTableEntry; exact State.readIndex_lands h (hanswer _)
  | readBookEntry _ => unfold exec execReadBookEntry; exact State.readIndex_lands h (hanswer _)
  | readPeerTable => unfold exec execReadPeerTable; exact State.request_lands h fun _ => hanswer _ _ _
  | readPieceCounters => unfold exec execReadPieceCounters; exact State.request_lands h fun _ => hanswer _ _ _
  | setRestartHold _ => unfold exec execSetRestartHold; exact State.request_lands h fun _ => h
  | readLineCounters => unfold exec execReadLineCounters; exact State.request_lands h fun _ => h
  | takeBook sequence =>
    unfold exec execTakeBook
    exact State.request_lands h fun _ => (h.takeBook sequence).answer _ _ _
  | readStationStatus _ => unfold exec execReadStationStatus; exact State.request_lands h fun _ => h
  | clearChanges _ => unfold exec execClearChanges; exact State.request_lands h fun _ => h
  | setAttentionMask _ => unfold exec execSetAttentionMask; exact State.request_lands h fun _ => h
  | popEvent => unfold exec execPopEvent; exact State.request_lands h fun _ => h.popped.answer _ _ _
  | readFault => unfold exec execReadFault; exact State.request_lands h fun _ => h
  | badRequest _ => unfold exec execBadRequest; exact State.request_lands h fun _ => by split <;> exact h

/-- Settles O6, by what each row keeps of the lists. -/
theorem buffersStayBounded : Obligations.BuffersStayBounded := fun _ _ hs h =>
  step_keeps (fun _ _ h => h) exec_lands_bounded (fun _ h => h.tick) hs h

end Sys2Proof.Machine

/-! ## Proofs: time and resets (chapters 10 and 11)

What a tick moves, what the resets leave and what the end of a load takes. -/

namespace Sys2Proof.Machine

/-! ### A state is its fields -/

theorem State.eq_of_fields {s t : State} (h : t.tb = s.tb ∧ t.loader = s.loader ∧ t.cfg = s.cfg ∧ t.line = s.line
    ∧ t.peers = s.peers ∧ t.claims = s.claims ∧ t.own = s.own ∧ t.chans = s.chans ∧ t.turner = s.turner
    ∧ t.replies = s.replies ∧ t.castends = s.castends ∧ t.book = s.book ∧ t.panel = s.panel ∧ t.elock = s.elock
    ∧ t.free = s.free ∧ t.pending = s.pending) : t = s := by
  cases s
  cases t
  simpa using h

/-! ### A tick -/

@[simp] theorem State.tick_frame (s : State) :
    s.tick.loader = s.loader ∧ s.tick.cfg = s.cfg ∧ s.tick.peers = s.peers ∧ s.tick.claims = s.claims
    ∧ s.tick.own = s.own ∧ s.tick.replies = s.replies ∧ s.tick.castends = s.castends ∧ s.tick.book = s.book
    ∧ s.tick.panel = s.panel ∧ s.tick.elock = s.elock ∧ s.tick.free = s.free ∧ s.tick.pending = s.pending := by
  unfold State.tick
  dsimp only
  and_intros <;> split <;> split <;> split <;> rfl

theorem State.tick_tb (s : State) :
    s.tick.tb = { s.tb with stab :=
      if s.loader.held = false ∧ s.tb.ready = false then tickTime s.tb.stab else s.tb.stab } := by
  unfold State.tick
  extract_lets src s1 s2
  have hwait : s1.tb = { s.tb with stab :=
      if s.loader.held = false ∧ s.tb.ready = false then tickTime s.tb.stab else s.tb.stab } := by
    simp only [s1]
    cases s.loader.held
    · cases hready : s.tb.ready <;> simp [src]
    · rfl
  have hline : s2.tb = s1.tb := by
    simp only [s2]
    split <;> rfl
  split <;> exact hline.trans hwait

theorem State.tick_line (s : State) :
    s.tick.line = if s.tb.ready = true ∧ s.line.state.hears = true then tickLine s.line else s.line := by
  unfold State.tick
  dsimp only
  simp only [Bool.and_eq_true]
  by_cases hruns : s.tb.ready = true ∧ s.line.state.hears = true
  · rw [if_pos hruns, if_pos hruns]
    split <;> split <;> rfl
  · rw [if_neg hruns, if_neg hruns]
    split <;> split <;> rfl

theorem State.moves_of_not_live {s : State} (h : s.live = false) : s.moves = false := by simp [State.moves, h]

theorem State.tick_turner (s : State) :
    s.tick.turner = { s.turner with timer := if s.moves = true then s.turner.timer - 1 else s.turner.timer } := by
  unfold State.tick
  dsimp only
  cases hlive : s.live
  · rw [State.moves_of_not_live hlive, if_neg (by decide)]
    split <;> split <;> rfl
  · rw [if_pos rfl]
    split <;> split <;> rfl

/-- Settles O4, from what a tick does to each part of the state. -/
theorem tickMovesTimesAlone : Obligations.TickMovesTimesAlone := by
  intro s
  refine ⟨State.eq_of_fields ?state, ?line, fun c => ⟨?channel, ?stab, fun hruns => ?times, fun hstands => ?stands,
    ?turner, fun hlive d => ?idle, fun hlive d => ?process⟩⟩
  case state => simp [State.tick_tb, State.tick_turner]
  case line => rw [State.tick_line]; split <;> rfl
  case channel =>
    rw [State.tick_ch]
    split
    · cases hruns : s.limitRuns c <;> simp [State.tickChannel, hruns]
    · rfl
  case stab => rw [State.tick_tb]; rfl
  case times =>
    rw [State.tick_line, if_pos hruns]
    refine ⟨rfl, rfl, rfl, rfl, ?_, ?_⟩
    · cases hpart : s.line.roundPart <;> simp [tickLine, tickPart, hpart]
    · simp [tickLine]
  case stands => rw [State.tick_line, if_neg hstands]
  case turner => rw [State.tick_turner]
  case idle => rw [State.tick_ch, if_neg (by simp [hlive])]
  case process =>
    have hvessel : s.vessel d = isVessel (s.ch d).kind := by simp [State.vessel, hlive]
    rw [State.tick_ch, if_pos hlive]
    refine ⟨rfl, ?_, ?_, ?_, ?_, ?_⟩
    · simp [State.tickChannel, State.timerRuns, State.runs, WaitSet.freezes, hvessel, and_assoc, timerTop, seconds]
    · simp [State.tickChannel, hvessel, tickTime]
    · simp [State.tickChannel, hvessel, tickTime]
    · have hstarted : (s.ch d).inPhase .sample = true → (s.ch d).started = true := fun hphase => by
        by_contra hnot
        simp [Channel.inPhase, Channel.phase, hnot] at hphase
      simp only [State.tickChannel, State.gateOpen, State.runs, hvessel, Bool.and_eq_true, beq_iff_eq, and_assoc]
      congr 1
      simp only [eq_iff_iff]
      tauto
    · simp [State.tickChannel, State.limitRuns, hvessel, and_assoc]
      split <;> rfl

end Sys2Proof.Machine

/-! ## Proofs: resets, the load and the Timebase (chapter 11)

What POWER_UP and PIN leave, what a good and a bad load take, and the crystal. -/

namespace Sys2Proof.Machine

/-! ### Drives off -/

theorem State.live_of_busy {s : State} (h : s.busy = true) : s.live = false := by simp [State.live, h]

theorem State.outputs_of_forcedOff {s : State} {c : Fin 6} (h : s.forcedOff c = true) : s.outputs c = allOff := by
  unfold State.outputs
  rw [if_pos h]
  rfl

theorem State.allOff_of_not_live {s : State} (h : s.live = false) : s.AllOff := fun c =>
  State.outputs_of_forcedOff (by simp [State.forcedOff, h])

/-! ### The state after reset -/

theorem State.reset_allOff : State.reset.AllOff := State.allOff_of_not_live rfl

/-- Settles O7: every list is empty, and CLOCKING sends nothing. -/
theorem resetMeetsInvariants : Obligations.ResetMeetsInvariants := by
  refine ⟨.of_nil rfl rfl rfl rfl, ?_⟩
  have hstart : State.reset = State.reset.poweredUp false := rfl
  rw [hstart]
  exact .poweredUp _ _

/-- Settles O8, by evaluation of the reset state and of the two commands. -/
theorem powerUpResetGivesReset : Obligations.PowerUpResetGivesReset := by
  refine ⟨?reset, fun low s => ?poweredUp, fun s hheld => ?ended⟩
  case reset => exact ⟨rfl, rfl, rfl, rfl, rfl, rfl, rfl, rfl, rfl, rfl, rfl, rfl, rfl, rfl, rfl, rfl, rfl, rfl, rfl, rfl,
    rfl, rfl, rfl, rfl, rfl, rfl, rfl, rfl, rfl, rfl, rfl, State.reset_allOff⟩
  case poweredUp => cases low <;> rfl
  case ended =>
    show Host.Outcome.next s.endReset = _
    rw [State.endReset, if_pos hheld]
    rfl

/-! ### The PIN reset -/

theorem exec_pinReset (s : State) : exec .pinReset s = .next s.takePin := rfl

theorem State.takePin_of_pin {s : State} (hheld : s.loader.held = false) (hsupply : s.loader.supply = false) :
    s.takePin = s.pinTaken := by
  simp [State.takePin, hheld, hsupply]

/-- A vessel keeps its list where a list stands that an earlier reset saved (R189). -/
theorem State.keepsList_iff {s : State} {c : Fin 6} (hvessel : isVessel (s.ch c).kind = true) :
    s.keepsList c = true ↔ (s.ch c).restart.isSome = true ∧ (s.keepsLists = true
      ∨ (s.ch c).restartKept = true ∧ (s.ch c).state = .paused ∧ (s.ch c).pause = some .restart) := by
  simp [State.keepsList, hvessel, Channel.pausedRestart]

/-- Settles O9, by where the reset finds the station: running, with a new supply, or held. -/
theorem pinResetKeepsAndClears : Obligations.PinResetKeepsAndClears := by
  refine ⟨fun s hheld hsupply => ⟨s.pinTaken, ?_, rfl, rfl, rfl, rfl, rfl, rfl, rfl, rfl, rfl, rfl, rfl, rfl, rfl, rfl, rfl,
    State.allOff_of_not_live rfl, fun c => ?channel⟩, fun s hheld hsupply => ?supply, fun s hheld => ?held⟩
  · rw [exec_pinReset, State.takePin_of_pin hheld hsupply]
  case channel =>
    rw [State.pinTaken_ch]
    refine ⟨rfl, rfl, rfl, rfl, rfl, rfl, rfl, fun hvessel => ⟨fun l hl hstands => ?stays, fun hnew => ?saved⟩⟩
    case stays =>
      have hkept : s.keepsList c = true := (State.keepsList_iff hvessel).2 ⟨by rw [hl]; rfl, hstands⟩
      exact ⟨(State.restartList_of_kept hkept).trans hl, hkept⟩
    case saved =>
      have hkept : s.keepsList c = false := by
        refine Bool.eq_false_iff.2 fun hkept => ?_
        obtain ⟨hsome, hstands⟩ := (State.keepsList_iff hvessel).1 hkept
        rcases hnew with hnone | hnot
        · rw [hnone] at hsome
          exact Bool.false_ne_true hsome
        · exact hnot hstands
      exact ⟨State.restartList_of_new hkept hvessel, hkept⟩
  case supply =>
    rw [exec_pinReset, State.takePin, hheld, hsupply]
    rfl
  case held => rw [exec_pinReset, State.takePin, if_pos hheld]

/-! ### The bad load -/

theorem exec_configLoadBad {s : State} (hloading : s.loader.loading = true) (hheld : s.loader.held = false) :
    exec .configLoadBad s = .next s.badLoad := by
  show Host.Outcome.next s.endBadLoad = _
  simp [State.endBadLoad, hloading, hheld]

@[simp] theorem State.badLoad_loader (s : State) :
    s.badLoad.loader = { s.loader with loading := false, loaded := false, supply := false } := by
  unfold State.badLoad
  dsimp only
  split <;> simp

theorem State.setLine_line (s : State) (st : LineState) : (s.setLine st).line = { s.line with state := st } := by
  unfold State.setLine
  split
  next h => rw [← h]
  next => rfl

@[simp] theorem State.badLoad_line (s : State) : s.badLoad.line = { s.line with state := .unconfigured } := by
  unfold State.badLoad
  dsimp only
  split <;> simp [State.setLine_line]

/-- Settles O11, by the kind of the reset whose load ends. -/
theorem badLoadUnconfigures : Obligations.BadLoadUnconfigures := by
  intro s hloading hheld
  refine ⟨s.badLoad, exec_configLoadBad hloading hheld, State.eq_of_fields (by simp), by simp, fun c => ?_, ?_, ?_, ?_⟩
  · simp [State.kindOf]
  · exact State.allOff_of_not_live (by simp [State.live])
  · unfold State.badLoad
    dsimp only
    split <;> rfl
  · intro hpin
    unfold State.badLoad
    rw [hpin]
    exact ⟨rfl, rfl⟩

end Sys2Proof.Machine

/-! ## Proofs: events queued

Most operations touch the panel by the events they queue alone. `Panel.Queued p q` says so of two panels; what it keeps,
and the operations that keep it, in the order of the model. -/

namespace Sys2Proof.Machine

/-- The panel `q` is `p` with events queued. -/
inductive Panel.Queued (p : Panel) : Panel → Prop
  | refl : Panel.Queued p p
  | queue {q : Panel} (h : Panel.Queued p q) (round : Word16) (e : Event) : Panel.Queued p (q.queue round e)

namespace Panel.Queued

variable {p q : Panel}

theorem of_eq (h : q = p) : p.Queued q := h ▸ .refl

/-- Everything of the panel but the queue and its count of lost events stays. -/
theorem marks (h : p.Queued q) : q = { p with events := q.events, overflow := q.overflow } := by
  induction h with
  | refl => rfl
  | @queue q h round e ih =>
    unfold Panel.queue
    split
    · split <;> rw [ih]
    · split <;> rw [ih]

theorem record (h : p.Queued q) : q.record = p.record := by rw [h.marks]

theorem fault (h : p.Queued q) : q.fault = p.fault := by rw [h.marks]

theorem xtal (h : p.Queued q) : q.xtal = p.xtal := by rw [h.marks]

theorem bookFull (h : p.Queued q) : q.bookFull = p.bookFull := by rw [h.marks]

theorem reply (h : p.Queued q) : q.reply = p.reply := by rw [h.marks]

/-- The oldest event stays the oldest. -/
theorem head (h : p.Queued q) {e : Event} (he : p.events.head? = some e) : q.events.head? = some e := by
  induction h with
  | refl => exact he
  | queue h round e' ih =>
    unfold Panel.queue
    split
    · split
      · simp [ih]
      · exact ih
    · split
      · simp [ih]
      · exact ih

end Panel.Queued

/-- An event queued on an empty queue is its oldest. -/
theorem Panel.queue_head {p : Panel} (hevents : p.events = []) (hoverflow : p.overflow = 0) (round : Word16) (e : Event) :
    (p.queue round e).events.head? = some e := by
  simp [Panel.queue, hevents, hoverflow]

namespace State

variable {p : Panel} {s : State}

theorem event_queued (h : p.Queued s.panel) (kind : EventKind) (channel : Option (Fin 6)) (piece : Option Word16)
    (value : List Nat) : p.Queued (s.event kind channel piece value).panel := h.queue _ _

theorem chEvent_queued (h : p.Queued s.panel) (c : Fin 6) (kind : EventKind) (value : List Nat) :
    p.Queued (s.chEvent c kind value).panel := h.queue _ _

theorem ite_queued {t : State} {q : Prop} [Decidable q] (ht : p.Queued t.panel) (hs : p.Queued s.panel) :
    p.Queued (if q then t else s).panel := by
  split
  · exact ht
  · exact hs

theorem foldl_queued {α : Type} {f : State → α → State} (hf : ∀ s a, p.Queued s.panel → p.Queued (f s a).panel)
    (l : List α) (h : p.Queued s.panel) : p.Queued (l.foldl f s).panel := by
  induction l generalizing s with
  | nil => exact h
  | cons a r ih => exact ih (hf s a h)

/-! ### Phases -/

theorem halt_queued (h : p.Queued s.panel) (c : Fin 6) (r : HaltReason) : p.Queued (s.halt c r).panel := by
  refine ite_queued ?_ h
  simp only [dropCaptures_frame, xferHalted_frame]
  exact chEvent_queued (by simpa using h) ..

theorem pause_queued (h : p.Queued s.panel) (c : Fin 6) (reason : PauseReason) (resume : Option Resume) :
    p.Queued (s.pause c reason resume).panel := chEvent_queued (s := s.modCh c _) h ..

theorem starve_queued (h : p.Queued s.panel) (c : Fin 6) : p.Queued (s.starve c).panel :=
  chEvent_queued (s := s.modCh c _) h ..

theorem shedPoint_queued (h : p.Queued s.panel) (c : Fin 6) (rs : List Resource) : p.Queued (s.shedPoint c rs).panel := by
  refine foldl_queued (fun t o ht => ?_) _ h
  unfold State.shedOne
  simp only [follow_frame]
  exact chEvent_queued (by simpa using ht) ..

theorem createPiece_queued (h : p.Queued s.panel) (c : Fin 6) (lot : Nat) : p.Queued (s.createPiece c lot).panel := by
  unfold State.createPiece
  refine chEvent_queued ?_ ..
  exact h

theorem begin_queued (h : p.Queued s.panel) (c : Fin 6) (afterFinal orphan : Bool) :
    p.Queued (s.begin c afterFinal orphan).panel := by
  unfold State.begin
  split
  · exact h
  · split
    · exact halt_queued h ..
    · simp only [follow_frame, startWaits_frame, startAsks_frame, modCh_frame]
      exact ite_queued (createPiece_queued (s := s.modCh c _) h ..) h

theorem endPiece_queued (h : p.Queued s.panel) (c : Fin 6) : p.Queued (s.endPiece c).panel := by
  unfold State.endPiece
  split
  · exact h
  · exact event_queued (s := (s.modCh c _).countFinished) h ..

theorem afterFinal_queued (h : p.Queued s.panel) (c : Fin 6) (k : PhaseKind) : p.Queued (s.afterFinal c k).panel := by
  have hdropped : p.Queued (s.dropAll c).panel := by simpa using h
  have hended : p.Queued (if k = .strip then (s.dropAll c).endPiece c else s.dropAll c).panel :=
    ite_queued (endPiece_queued hdropped c) hdropped
  exact ite_queued hended (begin_queued hended ..)

theorem complete_queued (h : p.Queued s.panel) (c : Fin 6) (reason : EndReason) : p.Queued (s.complete c reason).panel := by
  unfold State.complete
  split
  · exact h
  next r _ =>
    extract_lets s1 s2
    have hmoved : p.Queued s2.panel := chEvent_queued (s := s1) h ..
    exact ite_queued (afterFinal_queued hmoved ..) (ite_queued (starve_queued hmoved c)
      (ite_queued (pause_queued hmoved ..) (begin_queued hmoved ..)))

theorem finish_queued (h : p.Queued s.panel) (c : Fin 6) (reason : EndReason) : p.Queued (s.finish c reason).panel := by
  unfold State.finish
  split
  · exact complete_queued h ..
  · exact ite_queued h h
  all_goals exact h

theorem startPhase_queued (h : p.Queued s.panel) (c : Fin 6) (orphan : Bool) : p.Queued (s.startPhase c orphan).panel :=
  ite_queued (complete_queued (begin_queued h ..) ..) (begin_queued h ..)

/-! ### Turner Control and the Claim Table -/

theorem turnerHolds_queued (h : p.Queued s.panel) (e : ClaimEntry) : p.Queued (s.turnerHolds e).panel := by
  unfold State.turnerHolds
  split
  · exact h
  · split
    · simpa using h
    · refine event_queued ?_ ..
      exact ite_queued h h
    all_goals exact h

theorem abandon_queued (h : p.Queued s.panel) (o : Order) : p.Queued (s.abandon o).panel := by
  have hdropped : p.Queued s.dropTurner.panel := by simpa using h
  exact event_queued (ite_queued (t := s.dropTurner.orderEnd o .abandoned) hdropped hdropped) ..

theorem turnerStops_queued (h : p.Queued s.panel) (station channel : Nat) :
    p.Queued (s.turnerStops station channel).panel := by
  unfold State.turnerStops
  split
  · exact ite_queued (abandon_queued h _) h
  · exact h

theorem report_queued (h : p.Queued s.panel) (r : TurnerReport) : p.Queued (s.report r).panel := by
  unfold State.report
  split
  · split
    · exact turnerStops_queued h ..
    · exact turnerHolds_queued h _
  · exact h

theorem setClaims_queued (h : p.Queued s.panel) (t : List ClaimEntry) (l : List TurnerReport) :
    p.Queued (s.setClaims t l).panel :=
  foldl_queued (s := { s with claims := posted s.cfg t }) (fun _ r hs => report_queued hs r) l h

theorem expireClaims_queued (h : p.Queued s.panel) (station : Nat) : p.Queued (s.expireClaims station).panel :=
  setClaims_queued h ..

theorem clearClaims_queued (h : p.Queued s.panel) : p.Queued s.clearClaims.panel :=
  foldl_queued (s := { s with claims := [] }) (fun _ r hs => report_queued hs r) _ h

theorem depart_queued (h : p.Queued s.panel) : p.Queued s.depart.panel := by
  unfold State.depart
  simp only [modLine_frame, allAsked_frame, voidHoldings_frame]
  exact clearClaims_queued (s := s.ownAbsent) h

/-! ### Transfers and losses -/

theorem settlePiece_queued (h : p.Queued s.panel) (c : Fin 6) : p.Queued (s.settlePiece c).panel := by
  unfold State.settlePiece
  split
  · exact starve_queued h c
  all_goals exact h

theorem declined_queued (h : p.Queued s.panel) (c : Fin 6) (d : DeclineReason) : p.Queued (s.declined c d).panel := by
  have htold := chEvent_queued (s := (s.modXfer c fun x => { x with state := .suspended }).offerWait c false) h c
    .offerDeclined (declineEvent d)
  exact ite_queued htold (pause_queued htold ..)

theorem handleReply_queued (h : p.Queued s.panel) (sender : Nat) (r : ReplyItem) :
    p.Queued (s.handleReply sender r).panel := by
  unfold State.handleReply
  split
  · exact h
  · dsimp only
    split
    · exact h
    · split
      · split
        · simpa using h
        · exact declined_queued h ..
      · exact ite_queued h h

theorem arrive_queued (h : p.Queued s.panel) (c : Fin 6) (source : Pair) (content : Piece) :
    p.Queued (s.arrive c source content).panel := by
  have hplaced := chEvent_queued (s := s.placePiece c content false) h c .pieceIn [2, pairByte source, 0, 0]
  exact ite_queued (startPhase_queued hplaced ..) (settlePiece_queued hplaced c)

theorem handleCastend_queued (h : p.Queued s.panel) (sender : Nat) (x : CastendItem) :
    p.Queued (s.handleCastend sender x).panel := by
  unfold State.handleCastend
  split
  · exact h
  · dsimp only
    split
    · exact ite_queued (arrive_queued h ..) (ite_queued (chEvent_queued (s := s.modPiece _ _) h ..) h)
    · exact ite_queued h (ite_queued (chEvent_queued h ..) h)

theorem makeOrphan_queued (h : p.Queued s.panel) (c : Fin 6) (value : Nat) : p.Queued (s.makeOrphan c value).panel := by
  unfold State.makeOrphan
  split
  · exact h
  next content _ =>
    have hplaced := chEvent_queued (s := s.placePiece c content true) h c .orphan [value, 0, 0, 0]
    exact ite_queued (pause_queued hplaced ..) (settlePiece_queued hplaced c)

theorem castRead_queued (h : p.Queued s.panel) (x : CastendItem) : p.Queued (s.castRead x).panel := by
  unfold State.castRead
  split
  · split
    · extract_lets s1 kind lead s2 s3
      have hended : p.Queued s3.panel := event_queued (s := s1) h ..
      exact ite_queued (finish_queued hended ..) hended
    · exact h
  · exact h

theorem lossAt_queued (h : p.Queued s.panel) (station : Nat) (c : Fin 6) : p.Queued (s.lossAt station c).panel := by
  unfold State.lossAt
  dsimp only
  split
  · split
    · exact makeOrphan_queued h ..
    · refine ite_queued h (ite_queued (by simpa using h) (pause_queued ?_ ..))
      simpa using h
    all_goals exact h
  · exact h

theorem lossAll_queued (h : p.Queued s.panel) (station : Nat) : p.Queued (s.lossAll station).panel :=
  foldl_queued (fun _ c hs => lossAt_queued hs station c) _ h

theorem turnEnds_queued (h : p.Queued s.panel) (c : Fin 6) (reason : EndReason) : p.Queued (s.turnEnds c reason).panel :=
  finish_queued (by simpa using h) ..

theorem handleTurnend_queued (h : p.Queued s.panel) (t : TurnendItem) : p.Queued (s.handleTurnend t).panel := by
  unfold State.handleTurnend
  split
  · exact h
  · exact ite_queued (turnEnds_queued h ..) h

theorem discardPiece_queued (h : p.Queued s.panel) (c : Fin 6) : p.Queued (s.discardPiece c).panel := by
  unfold State.discardPiece
  split
  · exact h
  · dsimp only
    refine event_queued ?_ ..
    simp only [modCh_frame, dropCaptures_frame]
    split
    · simpa using h
    · simpa using h
    · simpa using h
    · exact ite_queued (by simpa using h) (by simpa using h)
    · simpa using h
    · simpa using h

/-! ### Rounds, read-backs and restarts -/

theorem offerUnanswered_queued (h : p.Queued s.panel) (c : Fin 6) : p.Queued (s.offerUnanswered c).panel := by
  unfold State.offerUnanswered
  refine pause_queued ?_ ..
  exact h

theorem offerRound_queued (h : p.Queued s.panel) (c : Fin 6) : p.Queued (s.offerRound c).panel :=
  ite_queued (ite_queued (offerUnanswered_queued h c) h) h

theorem countRound_queued (h : p.Queued s.panel) : p.Queued s.countRound.panel := by
  unfold State.countRound
  extract_lets s1
  have haged : p.Queued s1.panel := h
  simp only [serve_frame]
  exact foldl_queued (f := fun t c => t.offerRound c) (fun _ c hs => offerRound_queued hs c) channels haged

theorem captureRead_queued (h : p.Queued s.panel) (c : Fin 6) : p.Queued (s.captureRead c).panel :=
  ite_queued h (ite_queued (finish_queued h ..) h)

theorem decide_queued (h : p.Queued s.panel) (c : Fin 6) : p.Queued (s.decide c).panel := by
  have hpaused (r : Resume) : p.Queued (s.pauseRestart c r).panel := chEvent_queued (s := s.modCh c _) h ..
  have hcast : p.Queued (s.castRestart c).panel := chEvent_queued (s := (s.modPiece c _).modCh c _) h ..
  have hasked : p.Queued (s.askRestart c).panel := by simpa using h
  unfold State.decide
  dsimp only
  split
  · exact ite_queued hcast (ite_queued (hpaused _) hasked)
  · exact ite_queued (hpaused _) hasked
  · exact ite_queued hcast (ite_queued h hasked)
  all_goals exact h

end State

end Sys2Proof.Machine

/-! ## Proofs: the end of a good load, and the crystal (chapter 11)

The restart decision changes its own channel alone, so a channel after the load is the decision taken at it. -/

namespace Sys2Proof.Machine

/-! ### Channel by channel -/

/-- Where an operation is done once at every channel, what holds before it at `c` gives what holds after all. -/
theorem foldl_channels {f : State → Fin 6 → State} {P Q : State → Prop} {c : Fin 6} {s : State}
    (hbefore : ∀ t d, d ≠ c → P t → P (f t d)) (hat : ∀ t, P t → Q (f t c)) (hafter : ∀ t d, d ≠ c → Q t → Q (f t d))
    (h : P s) : Q (channels.foldl f s) := by
  have hrest (l : List (Fin 6)) (hl : c ∉ l) (t : State) (ht : Q t) : Q (l.foldl f t) := by
    induction l generalizing t with
    | nil => exact ht
    | cons d r ih =>
      rw [List.mem_cons, not_or] at hl
      exact ih hl.2 _ (hafter t d (Ne.symm hl.1) ht)
  have hall (l : List (Fin 6)) (hl : l.Nodup) (hc : c ∈ l) (t : State) (ht : P t) : Q (l.foldl f t) := by
    induction l generalizing t with
    | nil => exact absurd hc List.not_mem_nil
    | cons d r ih =>
      rw [List.nodup_cons] at hl
      by_cases hd : d = c
      · subst hd
        exact hrest r hl.1 _ (hat t ht)
      · exact ih hl.2 ((List.mem_cons.1 hc).resolve_left (Ne.symm hd)) _ (hbefore t d hd ht)
  exact hall channels (by decide) (by fin_cases c <;> decide) s h

/-! ### The restart decision at its channel -/

theorem State.pauseRestart_ch_self (s : State) (c : Fin 6) (r : Resume) :
    (s.pauseRestart c r).ch c = { s.ch c with state := .paused, pause := some .restart, resume := some r } := by
  simp [State.pauseRestart]

theorem State.castRestart_ch_self (s : State) (c : Fin 6) :
    (s.castRestart c).ch c = { s.ch c with
      state := .paused, pause := some .restart, resume := some .running
      piece := (s.ch c).piece.map fun p => { p with castInterrupted := true } } := by
  simp [State.castRestart, State.pauseRestart_ch_self, State.modPiece]

theorem State.dropList_ch_self (s : State) (c : Fin 6) :
    (s.dropList c).ch c = { s.ch c with restart := none, restartKept := false } := by
  simp [State.dropList]

theorem State.askRestart_ch_self (s : State) (c : Fin 6) :
    (s.askRestart c).ch c = { s.ch c with
      restart := none, restartKept := false, wait := s.rebuiltWait c (askedList (s.ch c)) } := by
  simp [State.askRestart]

theorem State.decide_records (s : State) (c d : Fin 6) : ((s.decide c).ch d).records = (s.ch d).records := by
  by_cases hd : d = c
  · subst hd
    unfold State.decide
    dsimp only
    split
    · split
      · rw [State.castRestart_ch_self]
      · split
        · rw [State.pauseRestart_ch_self]
        · rw [State.askRestart_ch_self]
    · split
      · rw [State.pauseRestart_ch_self]
      · rw [State.askRestart_ch_self]
    · split
      · rw [State.castRestart_ch_self]
      · split
        · rfl
        · rw [State.askRestart_ch_self]
    all_goals rw [State.dropList_ch_self]
  · rw [State.decide_others s c d hd]

theorem State.foldl_decide_records (l : List (Fin 6)) (s : State) (d : Fin 6) :
    ((l.foldl (fun t c => t.decide c) s).ch d).records = (s.ch d).records := by
  induction l generalizing s with
  | nil => rfl
  | cons c r ih => exact (ih _).trans (State.decide_records s c d)

/-! ### A good load -/

theorem exec_configLoadGood {s : State} {image : List Byte} (hloading : s.loader.loading = true)
    (hheld : s.loader.held = false) (hgood : goodImage image = true) :
    exec (.configLoadGood image) s = .next (s.goodLoad image) := by
  show Host.Outcome.next (s.endLoad image) = _
  simp [State.endLoad, hloading, hheld, hgood]

theorem State.leaveClocking_line_state (s : State) : s.leaveClocking.line.state =
    if s.line.state = .clocking ∧ s.tb.ready = true ∧ s.loader.loaded = true then .listening else s.line.state := by
  unfold State.leaveClocking
  simp only [Bool.and_eq_true, decide_eq_true_eq, and_assoc]
  split
  · simp [State.enterListening, State.setLine_line]
  · rfl

theorem State.leaveClocking_panel (s : State) :
    s.leaveClocking.panel = { s.panel with lineState := s.leaveClocking.panel.lineState } := by
  unfold State.leaveClocking State.enterListening State.setLine
  split <;> [split; skip] <;> rfl

/-- The station after the image is taken and the states are decided, before the clocks start. -/
def State.stationOf (s : State) (image : List Byte) : State := (s.loadImage image).takeStates image s.loader.lastDigest

theorem State.goodLoad_eq (s : State) (image : List Byte) :
    s.goodLoad image = (((s.stationOf image).mapCh fun _ h => startClock h).emptyReply).leaveClocking := rfl

theorem State.goodLoad_ch (s : State) (image : List Byte) (c : Fin 6) :
    (s.goodLoad image).ch c = startClock ((s.stationOf image).ch c) := by
  rw [State.goodLoad_eq]
  simp

theorem State.goodLoad_panel (s : State) (image : List Byte) :
    (s.goodLoad image).panel = { (s.stationOf image).panel with
      reply := Reply.empty, lineState := (s.goodLoad image).panel.lineState } := by
  rw [State.goodLoad_eq, State.leaveClocking_panel]
  rfl

theorem keptChannel_kind (h : Channel) (k : Kind) : (keptChannel h k).kind = k := by
  unfold keptChannel
  split <;> rfl

theorem startClock_records (h : Channel) : (startClock h).records = h.records := rfl

/-- A load after POWER_UP, or of another image, begins the station afresh (R191 step 3). -/
def State.beginsAfresh (s : State) (image : List Byte) : Prop :=
  s.loader.kind = .powerUp ∨ s.loader.lastDigest ≠ some (imageDigest image)

/-- What a changed image begins afresh is the same whether or not faults are recorded after it. -/
theorem State.stationOf_afresh {s : State} {image : List Byte} (h : s.beginsAfresh image) :
    ∃ p, s.stationOf image = { (s.loadImage image).newStation image with panel := p } := by
  unfold State.stationOf State.takeStates
  split
  · exact ⟨_, rfl⟩
  next hpin =>
    rcases h with hpower | hchanged
    · exact absurd (hpower.symm.trans hpin) (by decide)
    · rw [if_neg hchanged]
      exact ⟨_, rfl⟩

/-- A load of the same image after a PIN reset decides on each channel (R191 step 4). -/
theorem State.stationOf_kept {s : State} {image : List Byte} (hpin : s.loader.kind = .pin)
    (hsame : s.loader.lastDigest = some (imageDigest image)) :
    s.stationOf image = channels.foldl (fun t c => t.decide c)
      (((s.loadImage image).mapCh fun c h => keptChannel h ((imageKinds image).get c)).recordRestart) := by
  have hkind : (s.loadImage image).loader.kind = .pin := hpin
  unfold State.stationOf State.takeStates
  rw [hkind, if_pos hsame]

theorem State.beginsAfresh_or_kept (s : State) (image : List Byte) :
    s.beginsAfresh image ∨ s.loader.kind = .pin ∧ s.loader.lastDigest = some (imageDigest image) := by
  unfold State.beginsAfresh
  cases hkind : s.loader.kind
  · exact .inl (.inl rfl)
  · by_cases hsame : s.loader.lastDigest = some (imageDigest image)
    · exact .inr ⟨rfl, hsame⟩
    · exact .inl (.inr hsame)

theorem State.newStation_ch (s : State) (image : List Byte) (c : Fin 6) :
    (s.newStation image).ch c = newChannel ((imageKinds image).get c) :=
  State.mapCh_ch s (fun c _ => newChannel ((imageKinds image).get c)) c

/-- Every channel has the kind that the image gives it. -/
theorem State.stationOf_kind (s : State) (image : List Byte) (c : Fin 6) :
    ((s.stationOf image).ch c).kind = (imageKinds image).get c := by
  rcases s.beginsAfresh_or_kept image with hafresh | ⟨hpin, hsame⟩
  · obtain ⟨p, hp⟩ := State.stationOf_afresh hafresh
    rw [hp]
    show (((s.loadImage image).newStation image).ch c).kind = _
    rw [State.newStation_ch]
    rfl
  · rw [State.stationOf_kept hpin hsame]
    simp [keptChannel_kind, State.recordRestart]

/-- RESTART, or CONFIG_CHANGED over it, is recorded at a load after a PIN reset (R190, R191). -/
theorem State.stationOf_record {s : State} (image : List Byte) (hpin : s.loader.kind = .pin) :
    (s.stationOf image).panel.fault = true ∧ (s.stationOf image).panel.record =
      some (if s.loader.lastDigest = some (imageDigest image) then
        { kind := .restart, station := some (imageSettings image).address, channel := none, round := 0#16,
          more := s.panel.record.isSome }
      else
        { kind := .configChanged, station := some (imageSettings image).address, channel := none, round := 0#16,
          more := true }) := by
  by_cases hsame : s.loader.lastDigest = some (imageDigest image)
  · rw [State.stationOf_kept hpin hsame, if_pos hsame]
    have hqueued := State.foldl_queued (f := fun t c => t.decide c) (fun _ c hs => State.decide_queued hs c) channels
      (Panel.Queued.refl (p := (((s.loadImage image).mapCh fun c h =>
        keptChannel h ((imageKinds image).get c)).recordRestart).panel))
    rw [hqueued.fault, hqueued.record]
    exact ⟨rfl, rfl⟩
  · have hkind : (s.loadImage image).loader.kind = .pin := hpin
    unfold State.stationOf State.takeStates
    rw [hkind, if_neg hsame, if_neg hsame]
    exact ⟨rfl, rfl⟩

/-- Settles O10, by whether the load begins the station afresh. -/
theorem goodLoadTakesImage : Obligations.GoodLoadTakesImage := by
  refine ⟨fun image s hloading hheld hgood => ⟨s.goodLoad image, exec_configLoadGood hloading hheld hgood, ?cfg, ?loader,
    ?reply, ?line, ?claims, ?peers, ?tb, fun c => ⟨?kind, ?clock⟩, fun hafresh => ?afresh⟩,
    fun image s hloading hheld hgood hpin => ⟨s.goodLoad image, exec_configLoadGood hloading hheld hgood, ?fault,
      fun hsame => ?same, fun hchanged => ?changed⟩⟩
  case cfg => simp [State.goodLoad, State.loadImage]
  case loader => simp [State.goodLoad, State.loadImage]
  case reply => rw [State.goodLoad_panel]; rfl
  case line =>
    rw [State.goodLoad_eq, State.leaveClocking_line_state]
    simp [State.stationOf, State.loadImage]
  case claims => simp
  case peers => simp
  case tb => simp
  case kind => rw [State.goodLoad_ch]; exact s.stationOf_kind image c
  case clock => rw [State.goodLoad_ch, startClock, s.stationOf_kind image c]
  case afresh =>
    obtain ⟨p, hp⟩ := State.stationOf_afresh (s := s) (image := image) hafresh
    refine ⟨?book, ?castends, ?checks, ?aborted, ?missed, fun c => ?channel⟩
    case channel =>
      rw [State.goodLoad_ch, hp]
      show startClock (((s.loadImage image).newStation image).ch c) = _
      rw [State.newStation_ch]
      rfl
    all_goals simp [State.goodLoad_eq, hp, State.newStation]
  case fault => rw [State.goodLoad_panel]; exact (State.stationOf_record image hpin).1
  case same =>
    have hkept := State.stationOf_kept hpin hsame
    refine ⟨?record, ?keptBook, ?keptCastends, ?keptChecks, ?keptAborted, ?keptMissed, fun c => ?keptChannel⟩
    case record =>
      rw [State.goodLoad_panel]
      exact (State.stationOf_record image hpin).2.trans (by rw [if_pos hsame])
    case keptChannel =>
      rw [State.goodLoad_ch, hkept]
      by_cases hvessel : isVessel ((imageKinds image).get c) = true
      · refine .inl ?_
        rw [startClock_records, State.foldl_decide_records]
        simp [State.recordRestart, keptChannel, hvessel, State.loadImage]
      · exact .inr (by simpa using hvessel)
    all_goals simp [State.goodLoad_eq, hkept, State.recordRestart, State.loadImage]
  case changed =>
    rw [State.goodLoad_panel]
    exact (State.stationOf_record image hpin).2.trans (by rw [if_neg hchanged])

end Sys2Proof.Machine

/-! ## Proofs: requests of the Panel Port (chapter 10)

How a request is taken, by the channel it names, and the READs, the flags and the queue. -/

namespace Sys2Proof.Machine

/-! ### How a request is taken (R178, R180, R198) -/

theorem State.request_of_busy {s : State} (hbusy : s.busy = true) (f : State → State) : s.request f = .next s := by
  rw [State.request, if_pos hbusy]

@[simp] theorem chOf_val (c : Fin 6) : chOf c.val = some c := by simp [chOf]

/-- A vessel takes a channel request by the vessel's own meaning of it. -/
theorem State.channelRequest_of_vessel {s : State} {c : Fin 6} (hfree : s.busy = false)
    (hvessel : isVessel (s.kindOf c) = true) (code : Byte) (turner : State → State) (f : Fin 6 → State → State) :
    s.channelRequest code c.val turner f = .next (f c s) := by
  rw [State.channelRequest, State.request_of_not_busy hfree]
  simp only [chOf_val]
  split
  · next hkind => simp [hkind, isVessel] at hvessel
  · next hkind => simp [hkind, isVessel] at hvessel
  · rfl
  · rfl
  · rfl

theorem State.vesselRequest_of_vessel {s : State} {c : Fin 6} (hfree : s.busy = false)
    (hvessel : isVessel (s.kindOf c) = true) (code : Byte) (f : Fin 6 → State → State) :
    s.vesselRequest code c.val f = .next (f c s) :=
  State.channelRequest_of_vessel hfree hvessel ..

/-- A READ of a channel that is in the model answers from it. -/
theorem State.readChannel_val {s : State} (hfree : s.busy = false) (c : Fin 6) (f : Fin 6 → State → List Nat) :
    s.readChannel c.val f = .next (s.okData readCode (f c s)) := by
  rw [State.readChannel, State.request_of_not_busy hfree, chOf_val]

theorem State.readIndex_within {s : State} (hfree : s.busy = false) {ok : Bool} (hok : ok = true)
    (f : State → List Nat) : s.readIndex ok f = .next (s.okData readCode (f s)) := by
  rw [State.readIndex, State.request_of_not_busy hfree, if_pos hok]

theorem State.kind_of_kindOf {s : State} {c : Fin 6} (h : s.kindOf c ≠ .unused) : s.kindOf c = (s.ch c).kind := by
  unfold State.kindOf at h ⊢
  split
  · next hun => exact absurd (if_pos hun) h
  · rfl

theorem State.kind_isVessel {s : State} {c : Fin 6} (h : isVessel (s.kindOf c) = true) :
    isVessel (s.ch c).kind = true := by
  rwa [← State.kind_of_kindOf (fun hun => by simp [hun, isVessel] at h)]

/-! ### SET_RESTART_HOLD (R192) -/

theorem exec_setRestartHold {s : State} (value : Bool) (hfree : s.busy = false) :
    exec (.setRestartHold value) s
      = .next (({ s with loader := { s.loader with hold := value } } : State).okData 11#8 (flagByte value)) := by
  show execSetRestartHold value s = _
  exact State.request_of_not_busy hfree _

theorem State.takePin_hold {s : State} (hsupply : s.loader.supply = false) : s.takePin.loader.hold = s.loader.hold := by
  by_cases hheld : s.loader.held = true
  · rw [State.takePin, if_pos hheld]
  · rw [State.takePin_of_pin (by simpa using hheld) hsupply]
    rfl

/-- Settles O48, by the states that the request, the resets and a bad load leave. -/
theorem restartHoldSet : Obligations.RestartHoldSet := by
  refine ⟨fun s b hfree => exec_setRestartHold b hfree, fun s t low h => ?powerUp, fun s t hsupply h => ?pin,
    fun s t h => ?bad⟩
  case powerUp => cases h; cases low <;> rfl
  case pin => cases h; exact State.takePin_hold hsupply
  case bad =>
    cases h
    show s.endBadLoad.loader.hold = _
    unfold State.endBadLoad
    split
    · rw [State.badLoad_loader]
    · rfl

/-! ### READ (R181) -/

/-- Settles O49, by what each READ answers from. -/
theorem readsAnswer : Obligations.ReadsAnswer := by
  refine ⟨fun s hfree => ⟨?peers, ?pieces, fun n hn => ⟨?claim, ?entry⟩, fun low => ?status⟩,
    fun s c hfree hused => ⟨?channel, ?current, ?next, ?piece, fun n hn => ?completion⟩⟩
  case peers =>
    show execReadPeerTable s = _
    exact State.request_of_not_busy hfree _
  case pieces =>
    show execReadPieceCounters s = _
    exact State.request_of_not_busy hfree _
  case claim =>
    show execReadClaimTableEntry n s = _
    exact State.readIndex_within hfree (decide_eq_true hn) _
  case entry =>
    show execReadBookEntry n s = _
    exact State.readIndex_within hfree (decide_eq_true hn) _
  case status =>
    show execReadStationStatus low s = _
    exact State.request_of_not_busy hfree _
  case channel =>
    show execReadChannelStatus c.val s = _
    refine (State.readChannel_val hfree c _).trans ?_
    rw [State.channelStatus, if_neg hused]
    rfl
  case current =>
    show execReadPhaseRecord c.val .current s = _
    refine (State.readChannel_val hfree c _).trans ?_
    rw [State.placeObject, if_neg hused]
    rfl
  case next =>
    show execReadPhaseRecord c.val .next s = _
    refine (State.readChannel_val hfree c _).trans ?_
    rw [State.placeObject, if_neg hused]
    rfl
  case piece =>
    show execReadPieceRecord c.val s = _
    refine (State.readChannel_val hfree c _).trans ?_
    rw [if_neg hused]
    rfl
  case completion =>
    show execReadCompletionRecord c.val n s = _
    rw [execReadCompletionRecord, if_pos hn, State.readChannel_val hfree, State.completionAt, if_neg hused]
    rfl

/-! ### Flags, the mask and ATTN (R182, R183) -/

@[simp] theorem State.okData_changeFlags (s : State) (code : Byte) (data : List Nat) :
    (s.okData code data).changeFlags = s.changeFlags := rfl

@[simp] theorem State.okData_attn (s : State) (code : Byte) (data : List Nat) : (s.okData code data).attn = s.attn := rfl

theorem State.clearFlags_peerFlag (s : State) (m : Mask) : (s.clearFlags m).peerFlag = (s.peerFlag && !m.peer) := by
  cases hm : m.peer <;> simp [State.peerFlag, State.clearFlags, hm]

theorem exec_setAttentionMask {s : State} (mask : Byte) (hfree : s.busy = false) :
    exec (.setAttentionMask mask) s = .next ((s.setMask (maskOf mask)).okData 14#8
      [maskByte (maskOf mask), bit (s.setMask (maskOf mask)).attn]) := by
  show execSetAttentionMask mask s = _
  exact State.request_of_not_busy hfree _

/-- Settles O52, by the states that CLEAR_CHANGES, SET_ATTENTION_MASK and the resets leave. -/
theorem changeFlagsAndAttention : Obligations.ChangeFlagsAndAttention := by
  refine ⟨fun s mask hfree => ?clear, fun s mask hfree => ?mask, fun s hfree => ?attn, fun s hbusy => ?busy,
    fun s t low h => ?powerUp, fun s t hheld h => ?pin⟩
  case clear =>
    exact ⟨_, exec_clearChanges mask hfree, rfl, rfl, rfl, rfl, s.clearFlags_peerFlag _, rfl, rfl, rfl, rfl⟩
  case mask => exact ⟨_, exec_setAttentionMask mask hfree, rfl, rfl, rfl, rfl⟩
  case attn => simp [State.attn, State.changeFlags, hfree, or_assoc]
  case busy => simp [State.attn, hbusy]
  case powerUp => rw [exec_powerUpReset_panel h]; rfl
  case pin => rw [exec_pinReset_panel hheld h]; rfl

/-! ### POP_EVENT (R185) -/

theorem exec_popEvent {s : State} (hfree : s.busy = false) :
    exec .popEvent s = .next (s.popped.okData 15#8 (eventObject s.panel.events.head?)) := by
  show execPopEvent s = _
  exact State.request_of_not_busy hfree _

theorem State.popped_cons {s : State} {e : Event} {l : List Event} (h : s.panel.events = e :: l) :
    s.popped = { s with panel := { s.panel with events := l } } := by
  rw [State.popped, h]
  rfl

theorem State.popped_nil {s : State} (h : s.panel.events = []) : s.popped = s := by
  have hdrop : s.panel.events.drop 1 = s.panel.events := by rw [h, List.drop_nil]
  rw [State.popped, hdrop]

/-- Settles O53, by whether the queue holds an event. -/
theorem popEventTakesOldest : Obligations.PopEventTakesOldest := by
  refine fun s hfree => ⟨fun e l hevents => ?oldest, fun hnone => ?empty, _, exec_popEvent hfree, rfl, ?flag⟩
  case oldest =>
    rw [exec_popEvent hfree, State.popped_cons hevents, hevents]
    rfl
  case empty =>
    rw [exec_popEvent hfree, State.popped_nil hnone, hnone]
    rfl
  case flag =>
    show (!(s.panel.events.drop 1).isEmpty) = _
    cases s.panel.events with
    | nil => rfl
    | cons e l => cases l <;> simp

end Sys2Proof.Machine

/-! ## Proofs: claims, drives and frames as such (chapters 2, 3 and 12)

The lawful take and the waiter order (R39, R40), what the gates leave of the drives (R49, R50, R173), and a JOIN frame
read back from its bytes. -/

namespace Sys2Proof.Machine

/-! ### Orders by keys compared one after the other (R39, R47) -/

theorem ClaimEntry.ahead_iff (a b : ClaimEntry) : a.ahead b = true ↔ b.priority < a.priority
    ∨ b.priority = a.priority ∧ (b.age < a.age ∨ b.age = a.age ∧ a.key < b.key) := by
  simp [ClaimEntry.ahead, firstLess]

theorem lawful_iff (cfg : Settings) (ok : Bool) (t : List ClaimEntry) (c : ClaimEntry) : lawful cfg ok t c = true ↔
    heldSum (t.filter fun e => e.key != c.key) c.resource + aheadSum t c + c.amount ≤ allowance cfg c.resource
      ∧ (c.resource = .turner → ok = true) := by
  have hgate : (c.resource != .turner || ok) = true ↔ (c.resource = .turner → ok = true) := by
    simp [Classical.or_iff_not_imp_left]
  unfold lawful removeClaim
  rw [Bool.and_eq_true, decide_eq_true_iff, hgate]

/-- Settles O56, by the keys of the waiter order. -/
theorem lawfulTakeRule : Obligations.LawfulTakeRule := by
  refine ⟨lawful_iff, fun a => ?irreflexive, fun a b c hab hbc => ?transitive, fun a b hkey => ?total⟩
  case irreflexive => exact Bool.eq_false_iff.mpr fun h => by have := (a.ahead_iff a).mp h; omega
  case transitive =>
    rw [ClaimEntry.ahead_iff] at hab hbc ⊢
    omega
  case total =>
    rw [ClaimEntry.ahead_iff, ClaimEntry.ahead_iff]
    omega

/-! ### Drives behind their gates (R49, R50, R173) -/

@[simp] theorem gated_false (n : Nat) : gated false n = 0 := rfl

/-- What an output reads once nothing forces it off. -/
theorem State.outputs_of_running {s : State} {c : Fin 6} (h : s.forcedOff c = false) :
    s.outputs c = match (s.ch c).kind with
      | .steep => ⟨gated (s.hasHeld c .water) (s.command c).d0, (s.command c).d1,
          gated (s.hasHeld c .power) (s.command c).d2,
          gated (s.hasHeld c .castway && s.hasHeld c .power) (s.command c).d3⟩
      | .box => ⟨min (s.command c).d0 (s.cap c), gated (s.hasHeld c .water) (s.command c).d1,
          gated (s.hasHeld c .loader && s.hasHeld c .power) (s.command c).d2, (s.command c).d3⟩
      | .kiln => { s.command c with d0 := min (s.command c).d0 (s.cap c) }
      | .turner => { s.command c with
          d0 := gated s.turnerGate (s.command c).d0, d1 := gated s.turnerGate (s.command c).d1 }
      | .unused => allOff := by
  unfold State.outputs
  rw [if_neg (ne_true_of_eq_false h)]
  cases (s.ch c).kind <;> rfl

theorem fanDraw_le_of_le_cap {p rating held : Nat} (h : p ≤ fanCap rating held) : fanDraw p rating ≤ held := by
  have hdraw : fanDraw p rating = (p * rating + 100 - 1) / 100 := rfl
  unfold fanCap at h
  split at h
  · next hzero =>
    rw [hdraw, hzero]
    omega
  · next hrating =>
    have hquot : p ≤ 100 * held / rating := le_trans h (min_le_right _ _)
    have hprod : p * rating ≤ 100 * held := (Nat.le_div_iff_mul_le (Nat.pos_of_ne_zero hrating)).mp hquot
    rw [hdraw]
    omega

theorem State.outputs_d0_le_cap {s : State} {c : Fin 6} (h : (s.ch c).kind = .box ∨ (s.ch c).kind = .kiln) :
    (s.outputs c).d0 ≤ s.cap c := by
  cases hoff : s.forcedOff c
  · rw [State.outputs_of_running hoff]
    rcases h with hkind | hkind <;> rw [hkind] <;> exact min_le_right _ _
  · rw [State.outputs_of_forcedOff hoff]
    exact Nat.zero_le _

/-- Settles O57, by whether the outputs are forced off. -/
theorem drivesWithinHoldings : Obligations.DrivesWithinHoldings := by
  intro s c
  refine ⟨State.outputs_of_forcedOff, ?_⟩
  have hfan : (s.ch c).kind = .box ∨ (s.ch c).kind = .kiln →
      fanDraw (s.outputs c).d0 (s.cfg.ratings.get c) ≤ s.heldAmount c .power :=
    fun h => fanDraw_le_of_le_cap (State.outputs_d0_le_cap h)
  cases hoff : s.forcedOff c
  case true => simp [State.outputs_of_forcedOff hoff, allOff, fanDraw, ceilDiv]
  case false =>
    refine ⟨fun hkind hw => ?_, fun hkind hp => ?_, fun hkind hc => ?_, fun hkind hw => ?_, fun hkind hheld => ?_,
      fun hkind hgate => ?_, hfan⟩
    case refine_5 => rcases hheld with hl | hp <;> simp [State.outputs_of_running hoff, *]
    all_goals simp [State.outputs_of_running hoff, *]

/-! ### A JOIN frame on the line (section 12.1) -/

/-- What a run of bytes with its check after it decodes from. -/
theorem checkAgrees_withCheck (l : List Byte) :
    checkAgrees (withCheck l) = true ∧ (withCheck l).take ((withCheck l).length - 2) = l := by
  have hlength : (withCheck l).length - 2 = l.length := by simp [withCheck, toBytes, bytes2]
  have htake : (withCheck l).take l.length = l := by simp [withCheck]
  have hdrop : (withCheck l).drop l.length = toBytes (bytes2 (crc l).toNat) := by simp [withCheck]
  refine ⟨?_, by rw [hlength, htake]⟩
  rw [checkAgrees, hlength, htake, hdrop]
  simp [withCheck, toBytes, bytes2]

theorem toNat_toBytes {l : List Nat} (h : ∀ n ∈ l, n < 256) : (toBytes l).map BitVec.toNat = l := by
  unfold toBytes
  rw [List.map_map]
  refine (List.map_congr_left fun n hn => ?_).trans (List.map_id l)
  simpa using Nat.mod_eq_of_lt (h n hn)

/-- A word read from the two bytes it is written as. -/
theorem ofNat_bytes2 (w : Word16) : BitVec.ofNat 16 (w.toNat / 256 % 256 * 256 + w.toNat % 256) = w := by
  have hw := w.isLt
  refine BitVec.eq_of_toNat_eq ?_
  rw [BitVec.toNat_ofNat]
  omega

/-- Settles O59, by reading each field from the bytes that it is written as. -/
theorem joinFrameRoundTrip : Obligations.JoinFrameRoundTrip := by
  intro f hone htop
  have hbytes : ∀ n ∈ [128, 9, f.sender] ++ bytes2 f.round.toNat ++ bytes2 f.digest.toNat, n < 256 := by
    simp only [bytes2, List.mem_append, List.mem_cons, List.not_mem_nil, or_false]
    omega
  obtain ⟨hagrees, htake⟩ := checkAgrees_withCheck
    (toBytes ([128, 9, f.sender] ++ bytes2 f.round.toNat ++ bytes2 f.digest.toNat))
  unfold decodeJoin encodeJoin
  rw [hagrees, htake, toNat_toBytes hbytes]
  simp [bytes2, hone, htop, ofNat_bytes2]

end Sys2Proof.Machine

/-! ## Proofs: operations on the own claims (chapter 2)

What the asking, lowering and dropping of claims leaves of its channel, and of the claims of the other channels. -/

namespace Sys2Proof.Machine

/-! ### The channel of the claims

What follows at a channel from its claims are the waits for a claim and for the line, the fire, the peat feed and the
drive-started mark (R54, R119, R137); refused asks aside, an operation on claims changes nothing else. -/

/-- The channel is as it was but for what follows from its claims. The inputs have laws of their own. -/
abbrev Channel.RunKept (h k : Channel) : Prop :=
  k.state = h.state ∧ k.pause = h.pause ∧ k.resume = h.resume ∧ k.halt = h.halt ∧ k.current = h.current
    ∧ k.started = h.started ∧ k.next = h.next ∧ k.timer = h.timer ∧ k.rampStart = h.rampStart
    ∧ k.rampDue = h.rampDue ∧ k.setpoint = h.setpoint ∧ k.lastEnd = h.lastEnd ∧ k.blend = h.blend ∧ k.due = h.due
    ∧ k.stats = h.stats ∧ k.shedsAside = h.shedsAside ∧ k.flags = h.flags ∧ k.records = h.records
    ∧ k.stepFlag = h.stepFlag ∧ k.piece = h.piece ∧ k.completedHere = h.completedHere ∧ k.completed = h.completed
    ∧ k.leftPiece = h.leftPiece ∧ k.discardPending = h.discardPending ∧ k.restart = h.restart
    ∧ k.restartKept = h.restartKept ∧ k.step = h.step ∧ k.standMark = h.standMark ∧ k.blower = h.blower
    ∧ k.blowerOn = h.blowerOn ∧ k.restEdges = h.restEdges ∧ k.steady = h.steady ∧ k.captures = h.captures
    ∧ k.spray = h.spray ∧ k.sprayOn = h.sprayOn ∧ k.limited = h.limited ∧ k.fanCommand = h.fanCommand
    ∧ k.turnRound = h.turnRound ∧ k.lastAirOn = h.lastAirOn ∧ k.flame = h.flame ∧ k.breakCount = h.breakCount
    ∧ k.gate = h.gate ∧ k.readings = h.readings ∧ k.mdValue = h.mdValue ∧ k.mdActive = h.mdActive
    ∧ k.wait.gauge = h.wait.gauge ∧ k.wait.offer = h.wait.offer ∧ k.wait.turn = h.wait.turn
    ∧ k.xfer.state = h.xfer.state ∧ k.xfer.partner = h.xfer.partner ∧ k.xfer.piece = h.xfer.piece
    ∧ k.xfer.loadout = h.xfer.loadout ∧ k.xfer.count = h.xfer.count ∧ k.xfer.acceptedOnce = h.xfer.acceptedOnce
    ∧ k.xfer.copy = h.xfer.copy ∧ k.xfer.limit = h.xfer.limit

theorem Channel.RunKept.refl (h : Channel) : h.RunKept h := by simp [Channel.RunKept]

theorem Channel.RunKept.trans {h k j : Channel} (hk : h.RunKept k) (hj : k.RunKept j) : h.RunKept j := by
  simp only [Channel.RunKept, hk, hj, and_self]

theorem foldl_runKept {α : Type} {f : State → α → State} (l : List α) (s : State) (d : Fin 6)
    (hf : ∀ (t : State) a, (t.ch d).RunKept ((f t a).ch d)) : (s.ch d).RunKept ((l.foldl f s).ch d) := by
  induction l generalizing s with
  | nil => exact .refl _
  | cons a r ih => exact (hf s a).trans (ih (f s a))

theorem State.modCh_runKept {s : State} {c d : Fin 6} {f : Channel → Channel} (hf : ∀ h : Channel, h.RunKept (f h)) :
    (s.ch d).RunKept ((s.modCh c f).ch d) := by
  rw [State.ch_modCh]
  split
  · next hd => rw [hd]; exact hf _
  · exact .refl _

@[simp] theorem State.followWaits_runKept (s : State) (c d : Fin 6) : (s.ch d).RunKept ((s.followWaits c).ch d) :=
  State.modCh_runKept (by simp [Channel.RunKept])

@[simp] theorem State.followFan_runKept (s : State) (c d : Fin 6) : (s.ch d).RunKept ((s.followFan c).ch d) := by
  unfold State.followFan
  split
  · exact State.modCh_runKept (by simp [Channel.RunKept])
  · exact .refl _

@[simp] theorem State.followCast_runKept (s : State) (c d : Fin 6) : (s.ch d).RunKept ((s.followCast c).ch d) := by
  unfold State.followCast
  split
  · exact State.modCh_runKept (by simp [Channel.RunKept])
  · exact .refl _

@[simp] theorem State.follow_runKept (s : State) (c d : Fin 6) : (s.ch d).RunKept ((s.follow c).ch d) :=
  ((s.followWaits_runKept c d).trans ((s.followWaits c).followFan_runKept c d)).trans
    (((s.followWaits c).followFan c).followCast_runKept c d)

@[simp] theorem State.ask_runKept (s : State) (c : Fin 6) (a : Ask) (d : Fin 6) : (s.ch d).RunKept ((s.ask c a).ch d) := by
  unfold State.ask
  split
  · exact .refl _
  · exact State.modCh_runKept (by simp [Channel.RunKept])

@[simp] theorem State.repeatAsks_runKept (s : State) (c d : Fin 6) : (s.ch d).RunKept ((s.repeatAsks c).ch d) := by
  unfold State.repeatAsks
  split
  · exact .refl _
  · exact (State.modCh_runKept (by simp [Channel.RunKept])).trans
      (foldl_runKept (f := fun t a => t.ask c a) _ _ d fun t a => t.ask_runKept c a d)

@[simp] theorem State.dropClaim_runKept (s : State) (c : Fin 6) (slot : Nat) (d : Fin 6) :
    (s.ch d).RunKept ((s.dropClaim c slot).ch d) := State.follow_runKept { s with own := _ } c d

@[simp] theorem State.dropOn_runKept (s : State) (c : Fin 6) (r : Resource) (d : Fin 6) :
    (s.ch d).RunKept ((s.dropOn c r).ch d) := by
  unfold State.dropOn
  refine Channel.RunKept.trans ?_ (State.follow_runKept _ c d)
  exact State.modCh_runKept (s := { s with own := s.own.filter fun o => !(o.channel == c && o.resource == r) })
    (by simp [Channel.RunKept])

@[simp] theorem State.dropAll_runKept (s : State) (c d : Fin 6) : (s.ch d).RunKept ((s.dropAll c).ch d) := by
  unfold State.dropAll
  refine Channel.RunKept.trans ?_ (State.follow_runKept _ c d)
  exact State.modCh_runKept (s := { s with own := s.own.filter fun o => o.channel != c }) (by simp [Channel.RunKept])

@[simp] theorem State.lowerClaim_runKept (s : State) (c : Fin 6) (slot amount : Nat) (d : Fin 6) :
    (s.ch d).RunKept ((s.lowerClaim c slot amount).ch d) := State.follow_runKept (s.modOwn c slot _) c d

@[simp] theorem State.lowerBy_runKept (s : State) (c : Fin 6) (e : Nat) (l : List OwnClaim) (d : Fin 6) :
    (s.ch d).RunKept ((s.lowerBy c e l).ch d) := by
  induction l generalizing s e with
  | nil => exact .refl _
  | cons o r ih =>
    unfold State.lowerBy
    split
    · exact .refl _
    · split
      · exact s.lowerClaim_runKept c o.slot _ d
      · exact (s.dropClaim_runKept c o.slot d).trans (ih _ _)

@[simp] theorem State.carry_runKept (s : State) (c : Fin 6) (r : PhaseRecord) (res : Resource) (d : Fin 6) :
    (s.ch d).RunKept ((s.carry c r res).ch d) := by
  unfold State.carry
  split
  · exact .refl _
  · split
    · exact s.ask_runKept c _ d
    · dsimp only
      split
      · exact (s.retag c res r).lowerBy_runKept c _ _ d
      · split
        · exact (s.retag c res r).ask_runKept c _ d
        · exact .refl _

@[simp] theorem State.carryClaims_runKept (s : State) (c : Fin 6) (r : PhaseRecord) (d : Fin 6) :
    (s.ch d).RunKept ((s.carryClaims c r).ch d) := by
  unfold State.carryClaims
  exact (((State.modCh_runKept (by simp [Channel.RunKept])).trans
    (foldl_runKept (f := fun t res => t.dropOn c res) _ _ d fun t res => t.dropOn_runKept c res d)).trans
    (State.carry_runKept _ c r .power d)).trans (State.carry_runKept _ c r .water d)

/-! ### A fire that is out stays out -/

theorem State.follow_fire_out {s : State} {c d : Fin 6} (hfire : (s.ch d).firing = 0) (hpeat : (s.ch d).peat = false) :
    ((s.follow c).ch d).firing = 0 ∧ ((s.follow c).ch d).peat = false := by
  have hwaits : ((s.followWaits c).ch d).firing = 0 ∧ ((s.followWaits c).ch d).peat = false := by
    unfold State.followWaits
    rw [State.ch_modCh]
    split
    · next hd => subst hd; exact ⟨hfire, hpeat⟩
    · exact ⟨hfire, hpeat⟩
  have hfan : (((s.followWaits c).followFan c).ch d).firing = 0 ∧ (((s.followWaits c).followFan c).ch d).peat = false := by
    unfold State.followFan
    split
    · rw [State.ch_modCh]
      split
      · exact ⟨rfl, rfl⟩
      · exact hwaits
    · exact hwaits
  unfold State.follow State.followCast
  split
  · rw [State.ch_modCh]
    split
    · next hd => subst hd; exact hfan
    · exact hfan
  · exact hfan

theorem State.dropAll_fire_out {s : State} {c d : Fin 6} (hfire : (s.ch d).firing = 0) (hpeat : (s.ch d).peat = false) :
    ((s.dropAll c).ch d).firing = 0 ∧ ((s.dropAll c).ch d).peat = false := by
  unfold State.dropAll
  refine State.follow_fire_out ?_ ?_
  all_goals
    rw [State.ch_modCh]
    split
    · next hd => subst hd; assumption
    · assumption

/-! ### The claims of the other channels -/

theorem State.OtherClaimsKept.of_own {s t : State} (h : t.own = s.own) (c : Fin 6) : s.OtherClaimsKept t c := by
  rw [State.OtherClaimsKept, h]

theorem State.OtherClaimsKept.trans {s t u : State} {c : Fin 6} (ht : s.OtherClaimsKept t c)
    (hu : t.OtherClaimsKept u c) : s.OtherClaimsKept u c := Eq.trans hu ht

theorem State.OtherClaimsKept.foldl {α : Type} {f : State → α → State} {c : Fin 6}
    (hf : ∀ (t : State) a, t.OtherClaimsKept (f t a) c) (l : List α) (s : State) : s.OtherClaimsKept (l.foldl f s) c := by
  induction l generalizing s with
  | nil => exact .of_own rfl c
  | cons a r ih => exact (hf s a).trans (ih _)

theorem insertOwn_filter_others {o : OwnClaim} {c : Fin 6} (ho : o.channel = c) (l : List OwnClaim) :
    ((insertOwn o l).filter fun x => x.channel != c) = l.filter fun x => x.channel != c := by
  induction l with
  | nil => simp [insertOwn, ho]
  | cons a r ih =>
    unfold insertOwn
    split
    · simp [ho]
    · split
      · next hsame => simp [ho, ← hsame.1]
      · simp only [List.filter_cons, ih]

/-- Of the claims that are left out of a list, only the channel's own may be. -/
theorem filter_others_of_drop {c : Fin 6} {p : OwnClaim → Bool} (hp : ∀ o, o.channel ≠ c → p o = true)
    (l : List OwnClaim) : ((l.filter p).filter fun x => x.channel != c) = l.filter fun x => x.channel != c := by
  rw [List.filter_filter]
  refine List.filter_congr fun o _ => ?_
  by_cases hc : o.channel = c
  · simp [hc]
  · simp [hp o hc]

/-- A change of claims of the channel alone, which stay its own. -/
theorem filter_others_of_map {c : Fin 6} {f : OwnClaim → OwnClaim} (hown : ∀ o, o.channel = c → (f o).channel = c)
    (hother : ∀ o, o.channel ≠ c → f o = o) (l : List OwnClaim) :
    ((l.map f).filter fun x => x.channel != c) = l.filter fun x => x.channel != c := by
  induction l with
  | nil => rfl
  | cons a r ih =>
    by_cases hc : a.channel = c
    · simp [hown a hc, hc, ih]
    · simp [hother a hc, hc, ih]

theorem State.follow_otherClaims (s : State) (c d : Fin 6) : s.OtherClaimsKept (s.follow c) d := .of_own (by simp) d

theorem State.modCh_otherClaims (s : State) (c : Fin 6) (f : Channel → Channel) (d : Fin 6) :
    s.OtherClaimsKept (s.modCh c f) d := .of_own rfl d

theorem State.askAt_otherClaims (s : State) (c : Fin 6) (slot : Nat) (a : Ask) : s.OtherClaimsKept (s.askAt c slot a) c :=
  insertOwn_filter_others (o := askedClaim c slot a) rfl s.own

theorem State.modOwn_otherClaims (s : State) (c : Fin 6) (slot : Nat) {f : OwnClaim → OwnClaim}
    (hf : ∀ o, (f o).channel = o.channel) : s.OtherClaimsKept (s.modOwn c slot f) c := by
  refine filter_others_of_map (fun o ho => ?_) (fun o ho => ?_) s.own
  · split
    · rw [hf, ho]
    · exact ho
  · simp [ho]

theorem State.ask_otherClaims (s : State) (c : Fin 6) (a : Ask) : s.OtherClaimsKept (s.ask c a) c := by
  unfold State.ask
  split
  · exact s.askAt_otherClaims c _ a
  · exact s.modCh_otherClaims c _ c

theorem State.repeatAsks_otherClaims (s : State) (c : Fin 6) : s.OtherClaimsKept (s.repeatAsks c) c := by
  unfold State.repeatAsks
  split
  · exact .of_own rfl c
  · exact (s.modCh_otherClaims c _ c).trans (.foldl (fun t a => t.ask_otherClaims c a) _ _)

theorem State.dropClaim_otherClaims (s : State) (c : Fin 6) (slot : Nat) : s.OtherClaimsKept (s.dropClaim c slot) c := by
  unfold State.dropClaim
  refine State.OtherClaimsKept.trans ?_ (State.follow_otherClaims _ c c)
  exact filter_others_of_drop (fun o ho => by simp [ho]) s.own

theorem State.dropOn_otherClaims (s : State) (c : Fin 6) (r : Resource) : s.OtherClaimsKept (s.dropOn c r) c := by
  unfold State.dropOn
  refine State.OtherClaimsKept.trans ?_ (State.follow_otherClaims _ c c)
  exact filter_others_of_drop (fun o ho => by simp [ho]) s.own

theorem State.dropAll_otherClaims (s : State) (c : Fin 6) : s.OtherClaimsKept (s.dropAll c) c := by
  unfold State.dropAll
  refine State.OtherClaimsKept.trans ?_ (State.follow_otherClaims _ c c)
  exact filter_others_of_drop (fun o ho => by simp [ho]) s.own

theorem State.lowerClaim_otherClaims (s : State) (c : Fin 6) (slot amount : Nat) :
    s.OtherClaimsKept (s.lowerClaim c slot amount) c := by
  unfold State.lowerClaim
  refine State.OtherClaimsKept.trans ?_ (State.follow_otherClaims _ c c)
  exact s.modOwn_otherClaims c slot (f := fun o => { o with amount := max 1 (min o.amount amount) }) fun _ => rfl

theorem State.lowerBy_otherClaims (s : State) (c : Fin 6) (e : Nat) (l : List OwnClaim) :
    s.OtherClaimsKept (s.lowerBy c e l) c := by
  induction l generalizing s e with
  | nil => exact .of_own rfl c
  | cons o r ih =>
    unfold State.lowerBy
    split
    · exact .of_own rfl c
    · split
      · exact s.lowerClaim_otherClaims c _ _
      · exact (s.dropClaim_otherClaims c o.slot).trans (ih _ _)

theorem State.retag_otherClaims (s : State) (c : Fin 6) (res : Resource) (r : PhaseRecord) :
    s.OtherClaimsKept (s.retag c res r) c := by
  refine filter_others_of_map (fun o ho => ?_) (fun o ho => ?_) s.own
  · split <;> exact ho
  · simp [ho]

theorem State.carry_otherClaims (s : State) (c : Fin 6) (r : PhaseRecord) (res : Resource) :
    s.OtherClaimsKept (s.carry c r res) c := by
  unfold State.carry
  split
  · exact .of_own rfl c
  · split
    · exact s.ask_otherClaims c _
    · dsimp only
      refine (s.retag_otherClaims c res r).trans ?_
      split
      · exact State.lowerBy_otherClaims _ c _ _
      · split
        · exact State.ask_otherClaims _ c _
        · exact .of_own rfl c

theorem State.carryClaims_otherClaims (s : State) (c : Fin 6) (r : PhaseRecord) :
    s.OtherClaimsKept (s.carryClaims c r) c := by
  unfold State.carryClaims
  exact (((s.modCh_otherClaims c _ c).trans (.foldl (fun t res => t.dropOn_otherClaims c res) _ _)).trans
    (State.carry_otherClaims _ c r .power)).trans (State.carry_otherClaims _ c r .water)

/-! ### A channel without claims -/

theorem State.NoClaims.of_own {s t : State} {c : Fin 6} (h : s.NoClaims c) (hown : t.own = s.own) : t.NoClaims c :=
  fun o ho => h o (hown ▸ ho)

theorem State.dropAll_noClaims (s : State) (c : Fin 6) : (s.dropAll c).NoClaims c := by
  have hfilter : (s.dropAll c).own = s.own.filter fun o => o.channel != c := by simp [State.dropAll]
  intro o ho
  rw [hfilter] at ho
  simpa using (List.mem_filter.mp ho).2

theorem State.NoClaims.claimsOf_nil {s : State} {c : Fin 6} (h : s.NoClaims c) : s.claimsOf c = [] :=
  List.filter_eq_nil_iff.mpr fun o ho => by simpa using h o ho

end Sys2Proof.Machine

/-! ## Proofs: the phase machinery at its channel (chapters 3 and 7)

What a halt, a pause, a start and a completion make of the channel, operation by operation. -/

namespace Sys2Proof.Machine

/-! ### The Transfer Unit -/

@[simp] theorem State.modXfer_ch_self (s : State) (c : Fin 6) (f : Xfer → Xfer) :
    (s.modXfer c f).ch c = { s.ch c with xfer := f (s.ch c).xfer } := by
  simp [State.modXfer]

@[simp] theorem State.endXfer_ch_self (s : State) (c : Fin 6) : (s.endXfer c).ch c = { s.ch c with xfer := {} } := by
  simp [State.endXfer]

@[simp] theorem State.offerWait_ch_self (s : State) (c : Fin 6) (b : Bool) :
    (s.offerWait c b).ch c = { s.ch c with wait := { (s.ch c).wait with offer := b } } := by
  simp [State.offerWait]

/-- The channel whose offer has ended (R141, R144, R147). -/
def offerEnded (h : Channel) : Channel := { h with wait := { h.wait with offer := false }, xfer := {} }

@[simp] theorem State.endOffer_ch_self (s : State) (c : Fin 6) : (s.endOffer c).ch c = offerEnded (s.ch c) := by
  unfold State.endOffer
  dsimp only
  split <;> simp [offerEnded]

@[simp] theorem State.startOffer_ch_self (s : State) (c : Fin 6) (r : PhaseRecord) :
    (s.startOffer c r).ch c = { s.ch c with
      xfer := { state := .offering, partner := r.dest, piece := (s.ch c).piece.map (·.id),
                loadout := r.kind == .loadout }
      wait := { (s.ch c).wait with offer := true } } := by
  simp [State.startOffer]

/-- A halt ends an offer that stands, and leaves any other unit (R144). -/
theorem State.xferHalted_ch_self (s : State) (c : Fin 6) :
    (s.xferHalted c).ch c = if (s.ch c).xfer.state = .offering ∨ (s.ch c).xfer.state = .suspended then
      offerEnded (s.ch c) else s.ch c := by
  unfold State.xferHalted
  cases (s.ch c).xfer.state <;> simp

@[simp] theorem State.completeCast_ch_self (s : State) (c : Fin 6) :
    (s.completeCast c).ch c = { s.ch c with xfer := { (s.ch c).xfer with state := .ended } } := by
  unfold State.completeCast
  dsimp only
  split <;> simp

theorem State.completeCast_castends {s : State} {c : Fin 6} {d : Pair} {p : Piece}
    (hpartner : (s.ch c).xfer.partner = some d) (hpiece : (s.ch c).piece = some p) :
    (s.completeCast c).castends = placeCastend ⟨c.val, d, .complete p⟩ s.castends := by
  unfold State.completeCast
  simp only [hpartner, hpiece, State.castend_castends, State.modXfer_frame]

@[simp] theorem State.dropCaptures_ch_self (s : State) (c : Fin 6) :
    (s.dropCaptures c).ch c = { s.ch c with captures := [], wait := { (s.ch c).wait with gauge := false } } := by
  simp [State.dropCaptures]

@[simp] theorem State.createPiece_ch_self (s : State) (c : Fin 6) (lot : Nat) :
    (s.createPiece c lot).ch c = { s.ch c with
      piece := some ⟨BitVec.ofNat 16 (s.cfg.address * 2048 + s.freeSerial 12 s.book.serial), lot, .steep, none, none,
        none, none, none, 0, false, false, false, false, false⟩
      completedHere := false, lastEnd := none } := by
  simp [State.createPiece]

/-! ### Halt and pause (R57, R60) -/

theorem State.halt_of_haltable {s : State} {c : Fin 6} (h : (s.ch c).state.haltable = true) (r : HaltReason) :
    s.halt c r = ((((s.modCh c fun h => haltedChannel h r).dropAll c).chEvent c .halted
      [r.code, r.detail, 0, 0]).xferHalted c).dropCaptures c := by
  rw [State.halt, if_pos h]

/-- What a halt leaves of its channel: the piece, the queue, the phase in progress and the records stand. -/
abbrev Channel.HaltedFrom (h k : Channel) (r : HaltReason) : Prop :=
  k.state = .halted ∧ k.halt = some r ∧ k.pause = none ∧ k.resume = none ∧ k.due = none ∧ k.firing = 0
    ∧ k.peat = false ∧ k.piece = h.piece ∧ k.current = h.current ∧ k.next = h.next ∧ k.started = h.started
    ∧ k.records = h.records ∧ k.lastEnd = h.lastEnd ∧ k.completedHere = h.completedHere ∧ k.timer = h.timer
    ∧ k.stats = h.stats ∧ k.flags = h.flags ∧ k.setpoint = h.setpoint ∧ k.step = h.step
    ∧ k.discardPending = h.discardPending ∧ k.wait.turn = false ∧ k.wait.offer = false ∧ k.wait.gauge = false

theorem State.halt_haltedFrom {s : State} {c : Fin 6} (h : (s.ch c).state.haltable = true) (r : HaltReason) :
    (s.ch c).HaltedFrom ((s.halt c r).ch c) r := by
  have hch := State.ch_modCh_self s c fun h => haltedChannel h r
  rw [State.halt_of_haltable h, State.dropCaptures_ch_self, State.xferHalted_ch_self]
  generalize (s.modCh c fun h => haltedChannel h r) = halted at hch ⊢
  have hfire := State.dropAll_fire_out (s := halted) (c := c) (d := c) (by rw [hch]; rfl) (by rw [hch]; rfl)
  split <;> simp_all [Channel.HaltedFrom, offerEnded, haltedChannel]

theorem State.halt_noClaims {s : State} {c : Fin 6} (h : (s.ch c).state.haltable = true) (r : HaltReason) :
    (s.halt c r).NoClaims c := by
  rw [State.halt_of_haltable h]
  refine (State.dropAll_noClaims (s.modCh c fun h => haltedChannel h r) c).of_own ?_
  simp

theorem State.halt_otherClaims (s : State) (c : Fin 6) (r : HaltReason) : s.OtherClaimsKept (s.halt c r) c := by
  by_cases h : (s.ch c).state.haltable = true
  · rw [State.halt_of_haltable h]
    refine State.OtherClaimsKept.trans (State.dropAll_otherClaims (s.modCh c fun h => haltedChannel h r) c) (.of_own ?_ c)
    simp
  · rw [State.halt, if_neg h]
    exact .of_own rfl c

theorem State.outputs_of_halted {s : State} {c : Fin 6} (h : (s.ch c).state = .halted) : s.outputs c = allOff :=
  State.outputs_of_forcedOff (by simp [State.forcedOff, h])

@[simp] theorem State.pause_ch_self (s : State) (c : Fin 6) (reason : PauseReason) (resume : Option Resume) :
    (s.pause c reason resume).ch c = pausedChannel (s.ch c) reason resume := by
  simp [State.pause]

@[simp] theorem State.starve_ch_self (s : State) (c : Fin 6) :
    (s.starve c).ch c = { s.ch c with state := .starved, pause := none, resume := none } := by
  simp [State.starve]

/-! ### Phase start (R53) -/

/-- The step in which a phase starts (R77, R92, R115). -/
def firstStep : PhaseKind → Option Step
  | .wet => some .filling
  | .air => some .draining
  | .gauge => some .steadying
  | .cast => some .offering
  | .couch => some .settling
  | .grow => some .growing
  | .turn => some .asking
  | .loadout => some .offering
  | .sample => some .gating
  | _ => none

/-- A cast or a load-out, the phases that offer their piece. -/
def offersPiece : PhaseKind → Bool
  | .cast => true
  | .loadout => true
  | _ => false

/-- What a start sets before the kind's own part of it; the setpoint and the piece are left out. -/
abbrev Channel.StartedFrom (h k : Channel) (orphan : Bool) : Prop :=
  k.kind = h.kind ∧ k.state = .running ∧ k.pause = none ∧ k.resume = none ∧ k.halt = h.halt ∧ k.started = true
    ∧ k.timer = 0 ∧ k.current = h.current ∧ k.next = h.next ∧ k.due = none ∧ k.completed = none
    ∧ k.records = h.records ∧ k.stats = { sheds := h.shedsAside } ∧ k.flags = { orphanStart := orphan }
    ∧ k.step = none ∧ k.discardPending = h.discardPending ∧ k.wait = {} ∧ k.stepFlag = h.stepFlag
    ∧ k.leftPiece = h.leftPiece ∧ k.standMark = none ∧ k.xfer = h.xfer ∧ k.peat = false

theorem startedChannel_startedFrom (h : Channel) (r : PhaseRecord) (orphan : Bool) :
    h.StartedFrom (startedChannel h r orphan) orphan := by
  unfold startedChannel startSetpoint
  split
  · simp [Channel.StartedFrom]
  · dsimp only
    split <;> simp [Channel.StartedFrom]

theorem startedChannel_piece (h : Channel) (r : PhaseRecord) (orphan : Bool) :
    (startedChannel h r orphan).piece = h.piece ∧ (startedChannel h r orphan).completedHere = h.completedHere := by
  unfold startedChannel startSetpoint
  split
  · exact ⟨rfl, rfl⟩
  · dsimp only
    split <;> exact ⟨rfl, rfl⟩

@[simp] theorem kindStart_fields (h : Channel) (r : PhaseRecord) : (kindStart h r).state = h.state
    ∧ (kindStart h r).pause = h.pause ∧ (kindStart h r).resume = h.resume ∧ (kindStart h r).halt = h.halt
    ∧ (kindStart h r).started = h.started ∧ (kindStart h r).timer = h.timer ∧ (kindStart h r).current = h.current
    ∧ (kindStart h r).next = h.next ∧ (kindStart h r).due = h.due ∧ (kindStart h r).completed = h.completed
    ∧ (kindStart h r).records = h.records ∧ (kindStart h r).stats = h.stats ∧ (kindStart h r).flags = h.flags
    ∧ (kindStart h r).discardPending = h.discardPending ∧ (kindStart h r).stepFlag = h.stepFlag
    ∧ (kindStart h r).leftPiece = h.leftPiece ∧ (kindStart h r).piece = h.piece
    ∧ (kindStart h r).completedHere = h.completedHere ∧ (kindStart h r).standMark = h.standMark
    ∧ (kindStart h r).wait.gauge = h.wait.gauge ∧ (kindStart h r).wait.offer = h.wait.offer
    ∧ (kindStart h r).xfer = h.xfer := by
  unfold kindStart
  split <;> simp

theorem kindStart_step {h : Channel} (hstep : h.step = none) (r : PhaseRecord) :
    (kindStart h r).step = firstStep r.kind := by
  unfold kindStart firstStep
  cases r.kind <;> simp [hstep]

theorem kindStart_turn {h : Channel} (hturn : h.wait.turn = false) (r : PhaseRecord) :
    (kindStart h r).wait.turn = (r.kind == .turn) := by
  unfold kindStart
  cases r.kind <;> simp [hturn]

/-- The channel whose unit offers the piece of a CAST or LOADOUT (R133). -/
def offerStarted (h : Channel) (r : PhaseRecord) : Channel :=
  { h with
    xfer := { state := .offering, partner := r.dest, piece := h.piece.map (·.id), loadout := r.kind == .loadout }
    wait := { h.wait with offer := true } }

/-- The claims asked at a start leave the channel but for what follows from them, and for the unit of a CAST. -/
theorem State.startAsks_ch_self (s : State) (c : Fin 6) (r : PhaseRecord) : ∃ k, (s.ch c).RunKept k
    ∧ (s.startAsks c r).ch c = if offersPiece r.kind = true then offerStarted k r else k := by
  have hclaims := s.carryClaims_runKept c r c
  unfold State.startAsks
  dsimp only
  split
  · next hkind => exact ⟨_, hclaims.trans (State.ask_runKept _ c _ c), by rw [hkind]; rfl⟩
  · next hkind => exact ⟨_, hclaims, by rw [hkind, State.startOffer_ch_self]; rfl⟩
  · next hkind => exact ⟨_, hclaims, by rw [hkind, State.startOffer_ch_self]; rfl⟩
  · next hturn hcast hload =>
    refine ⟨_, hclaims, (if_neg fun hoffers => ?_).symm⟩
    cases hkind : r.kind <;> simp_all [offersPiece]

theorem State.startAsks_otherClaims (s : State) (c : Fin 6) (r : PhaseRecord) :
    s.OtherClaimsKept (s.startAsks c r) c := by
  have hclaims := s.carryClaims_otherClaims c r
  unfold State.startAsks
  dsimp only
  split
  · exact hclaims.trans (State.ask_otherClaims _ c _)
  · exact hclaims.trans (.of_own (by simp) c)
  · exact hclaims.trans (.of_own (by simp) c)
  · exact hclaims

/-- The state in which a start that has passed its checks asks its claims: the channel started, its piece created. -/
def State.startedAt (s : State) (c : Fin 6) (r : PhaseRecord) (orphan : Bool) : State :=
  let s1 := s.modCh c fun h => startedChannel h r orphan
  let s2 := if (s1.ch c).piece.isNone then s1.createPiece c (r.lot.getD 0) else s1
  s2.modCh c fun h => kindStart h r

theorem State.begin_of_check {s : State} {c : Fin 6} {r : PhaseRecord} {afterFinal orphan : Bool}
    (hcurrent : (s.ch c).current = some r) (hcheck : startCheck (s.ch c) r afterFinal = none) :
    s.begin c afterFinal orphan = (((s.startedAt c r orphan).startAsks c r).startWaits c).follow c := by
  unfold State.begin
  simp only [hcurrent, hcheck]
  rfl

theorem State.begin_of_failed {s : State} {c : Fin 6} {r : PhaseRecord} {reason : CheckReason} {afterFinal : Bool}
    (hcurrent : (s.ch c).current = some r) (hcheck : startCheck (s.ch c) r afterFinal = some reason) (orphan : Bool) :
    s.begin c afterFinal orphan = s.halt c (.inconsistent reason) := by
  unfold State.begin
  simp only [hcurrent, hcheck]

/-- What a start leaves of its channel, but for its piece and its unit. -/
abbrev Channel.BegunFrom (h k : Channel) (r : PhaseRecord) (orphan : Bool) : Prop :=
  k.state = .running ∧ k.pause = none ∧ k.resume = none ∧ k.halt = h.halt ∧ k.started = true ∧ k.timer = 0
    ∧ k.current = h.current ∧ k.next = h.next ∧ k.due = none ∧ k.completed = none ∧ k.records = h.records
    ∧ k.stats = { sheds := h.shedsAside } ∧ k.flags = { orphanStart := orphan } ∧ k.step = firstStep r.kind
    ∧ k.discardPending = h.discardPending ∧ k.wait.gauge = false ∧ k.wait.turn = (r.kind == .turn)
    ∧ k.stepFlag = h.stepFlag ∧ k.leftPiece = h.leftPiece

theorem kindStart_begunFrom {h k : Channel} {orphan : Bool} (hstart : h.StartedFrom k orphan) (r : PhaseRecord) :
    h.BegunFrom (kindStart k r) r orphan ∧ (kindStart k r).wait.offer = false := by
  obtain ⟨_, _, _, _, _, _, _, _, _, _, _, _, _, _, hstep, _, hwait, _⟩ := id hstart
  have hturn := kindStart_turn (h := k) (by rw [hwait]) r
  simp only [Channel.BegunFrom, kindStart_fields, kindStart_step hstep, hturn, hstart, and_self]

theorem State.startedAt_begunFrom (s : State) (c : Fin 6) (r : PhaseRecord) (orphan : Bool) :
    (s.ch c).BegunFrom ((s.startedAt c r orphan).ch c) r orphan
      ∧ ((s.startedAt c r orphan).ch c).wait.offer = false := by
  have hstart := startedChannel_startedFrom (s.ch c) r orphan
  unfold State.startedAt
  simp only [State.ch_modCh_self]
  split
  · rw [State.createPiece_ch_self, State.ch_modCh_self]
    refine kindStart_begunFrom ?_ r
    exact hstart
  · rw [State.ch_modCh_self]
    exact kindStart_begunFrom hstart r

/-- A piece that the channel holds stays at a start; where it holds none, the start creates one (R53, R79). -/
theorem State.startedAt_piece {s : State} {c : Fin 6} {p : Piece} (hpiece : (s.ch c).piece = some p) (r : PhaseRecord)
    (orphan : Bool) : ((s.startedAt c r orphan).ch c).piece = some p
      ∧ ((s.startedAt c r orphan).ch c).completedHere = (s.ch c).completedHere := by
  obtain ⟨hkept, hhere⟩ := startedChannel_piece (s.ch c) r orphan
  unfold State.startedAt
  simp [hkept, hhere, hpiece]

@[simp] theorem State.startWaits_runKept (s : State) (c d : Fin 6) : (s.ch d).RunKept ((s.startWaits c).ch d) :=
  State.modCh_runKept (by simp [Channel.RunKept])

/-- What is left to a start once its channel is started: the asks, the waits and what follows. -/
def State.beginAsks (s : State) (c : Fin 6) (r : PhaseRecord) : State := ((s.startAsks c r).startWaits c).follow c

theorem State.beginAsks_ch_self (s : State) (c : Fin 6) (r : PhaseRecord) : ∃ k, (s.ch c).RunKept k
    ∧ (if offersPiece r.kind = true then offerStarted k r else k).RunKept ((s.beginAsks c r).ch c) := by
  obtain ⟨k, hkept, hasks⟩ := s.startAsks_ch_self c r
  refine ⟨k, hkept, ?_⟩
  rw [← hasks]
  exact ((s.startAsks c r).startWaits_runKept c c).trans (State.follow_runKept _ c c)

theorem State.begin_begunFrom {s : State} {c : Fin 6} {r : PhaseRecord} {afterFinal : Bool}
    (hcurrent : (s.ch c).current = some r) (hcheck : startCheck (s.ch c) r afterFinal = none) (orphan : Bool) :
    (s.ch c).BegunFrom ((s.begin c afterFinal orphan).ch c) r orphan
      ∧ ((s.begin c afterFinal orphan).ch c).wait.offer = offersPiece r.kind := by
  obtain ⟨hstart, hoffer⟩ := s.startedAt_begunFrom c r orphan
  obtain ⟨k, hkept, hasks⟩ := (s.startedAt c r orphan).beginAsks_ch_self c r
  rw [State.begin_of_check hcurrent hcheck]
  change (s.ch c).BegunFrom (((s.startedAt c r orphan).beginAsks c r).ch c) r orphan
    ∧ (((s.startedAt c r orphan).beginAsks c r).ch c).wait.offer = _
  cases hoffers : offersPiece r.kind
  · rw [hoffers, if_neg Bool.false_ne_true] at hasks
    simp only [Channel.BegunFrom, hasks, hkept, hstart, hoffer, and_self]
  · rw [hoffers, if_pos rfl] at hasks
    simp only [Channel.BegunFrom, hasks, offerStarted, hkept, hstart, and_self]

theorem State.begin_piece {s : State} {c : Fin 6} {r : PhaseRecord} {afterFinal : Bool} {p : Piece}
    (hcurrent : (s.ch c).current = some r) (hcheck : startCheck (s.ch c) r afterFinal = none)
    (hpiece : (s.ch c).piece = some p) (orphan : Bool) :
    ((s.begin c afterFinal orphan).ch c).piece = some p
      ∧ ((s.begin c afterFinal orphan).ch c).completedHere = (s.ch c).completedHere := by
  obtain ⟨hkeeps, hhere⟩ := State.startedAt_piece hpiece r orphan
  obtain ⟨k, hkept, hasks⟩ := (s.startedAt c r orphan).beginAsks_ch_self c r
  rw [State.begin_of_check hcurrent hcheck]
  change (((s.startedAt c r orphan).beginAsks c r).ch c).piece = _
    ∧ (((s.startedAt c r orphan).beginAsks c r).ch c).completedHere = _
  cases hoffers : offersPiece r.kind
  · rw [hoffers, if_neg Bool.false_ne_true] at hasks
    simp only [hasks, hkept, hkeeps, hhere, and_self]
  · rw [hoffers, if_pos rfl] at hasks
    simp only [hasks, offerStarted, hkept, hkeeps, hhere, and_self]

theorem State.startedAt_own (s : State) (c : Fin 6) (r : PhaseRecord) (orphan : Bool) :
    (s.startedAt c r orphan).own = s.own := by
  unfold State.startedAt
  dsimp only
  split <;> simp

theorem State.begin_otherClaims (s : State) (c : Fin 6) (afterFinal orphan : Bool) :
    s.OtherClaimsKept (s.begin c afterFinal orphan) c := by
  cases hcurrent : (s.ch c).current with
  | none =>
    simp only [State.begin, hcurrent]
    exact .of_own rfl c
  | some r =>
    cases hcheck : startCheck (s.ch c) r afterFinal with
    | none =>
      have hasks := (s.startedAt c r orphan).startAsks_otherClaims c r
      rw [State.begin_of_check hcurrent hcheck]
      refine (State.OtherClaimsKept.of_own (s.startedAt_own c r orphan) c).trans (hasks.trans (.of_own ?_ c))
      simp
    | some reason =>
      rw [State.begin_of_failed hcurrent hcheck]
      exact s.halt_otherClaims c _

/-- A start keeps the completion records, be it that the phase starts or that a failed check halts the channel. -/
theorem State.begin_records {s : State} {c : Fin 6} (hstate : (s.ch c).state.haltable = true) (afterFinal orphan : Bool) :
    ((s.begin c afterFinal orphan).ch c).records = (s.ch c).records := by
  cases hcurrent : (s.ch c).current with
  | none => simp only [State.begin, hcurrent]
  | some r =>
    cases hcheck : startCheck (s.ch c) r afterFinal with
    | none =>
      have hbegun := (State.begin_begunFrom hcurrent hcheck orphan).1
      simp only [hbegun]
    | some reason =>
      rw [State.begin_of_failed hcurrent hcheck]
      have hhalted := State.halt_haltedFrom hstate (.inconsistent reason)
      simp only [hhalted]

end Sys2Proof.Machine

/-! ## Proofs: completion (R55, R72)

The completion record a phase leaves, and what follows it: the next phase, STARVED, a pause, or the end of a final phase. -/

namespace Sys2Proof.Machine

/-- Steps 1 to 3 and 5 of a completion: the record is kept and NEXT has become CURRENT. -/
def State.movedOnAt (s : State) (c : Fin 6) (r : PhaseRecord) (reason : EndReason) : State :=
  ((s.modCh c fun h => recordedChannel h r reason s.line.round).chEvent c .phaseDone [reason.code, 0, 0, 0]).modCh c
    fun h => movedOn h r

@[simp] theorem State.movedOnAt_ch_self (s : State) (c : Fin 6) (r : PhaseRecord) (reason : EndReason) :
    (s.movedOnAt c r reason).ch c = movedOn (recordedChannel (s.ch c) r reason s.line.round) r := by
  simp [State.movedOnAt]

@[simp] theorem State.movedOnAt_own (s : State) (c : Fin 6) (r : PhaseRecord) (reason : EndReason) :
    (s.movedOnAt c r reason).own = s.own := by
  simp [State.movedOnAt]

theorem State.complete_of_current {s : State} {c : Fin 6} {r : PhaseRecord} (hcurrent : (s.ch c).current = some r)
    (reason : EndReason) : s.complete c reason =
      if isFinal r.kind then (s.movedOnAt c r reason).afterFinal c r.kind
      else if (s.ch c).next.isNone then (s.movedOnAt c r reason).starve c
      else if (s.ch c).stepFlag then (s.movedOnAt c r reason).pause c .step none
      else (s.movedOnAt c r reason).begin c false false := by
  have hch := s.movedOnAt_ch_self c r reason
  unfold State.complete
  simp only [hcurrent]
  change (if isFinal r.kind then (s.movedOnAt c r reason).afterFinal c r.kind
      else if ((s.movedOnAt c r reason).ch c).current.isNone then (s.movedOnAt c r reason).starve c
      else if ((s.movedOnAt c r reason).ch c).stepFlag then (s.movedOnAt c r reason).pause c .step none
      else (s.movedOnAt c r reason).begin c false false) = _
  rw [hch]
  rfl

/-! ### The end of a final phase -/

/-- The state in which a final phase leaves the channel before the record left over is looked at. -/
def State.endedAt (s : State) (c : Fin 6) (k : PhaseKind) : State :=
  if k = .strip then (s.dropAll c).endPiece c else s.dropAll c

theorem State.afterFinal_eq (s : State) (c : Fin 6) (k : PhaseKind) : s.afterFinal c k =
    if ((s.endedAt c k).ch c).current.isNone then (s.endedAt c k).modCh c idleChannel
    else (s.endedAt c k).begin c true false := rfl

/-- The end of a piece leaves the rest of its channel. -/
abbrev Channel.PieceEnded (h k : Channel) : Prop :=
  k.state = h.state ∧ k.current = h.current ∧ k.next = h.next ∧ k.records = h.records ∧ k.wait.turn = h.wait.turn
    ∧ k.due = h.due

theorem State.endedAt_pieceEnded (s : State) (c : Fin 6) (k : PhaseKind) :
    (s.ch c).PieceEnded ((s.endedAt c k).ch c) := by
  unfold State.endedAt
  split
  · unfold State.endPiece
    split <;> simp [Channel.PieceEnded]
  · simp [Channel.PieceEnded]

theorem State.endedAt_noClaims (s : State) (c : Fin 6) (k : PhaseKind) : (s.endedAt c k).NoClaims c := by
  unfold State.endedAt
  split
  · refine (s.dropAll_noClaims c).of_own ?_
    simp
  · exact s.dropAll_noClaims c

theorem State.endedAt_otherClaims (s : State) (c : Fin 6) (k : PhaseKind) : s.OtherClaimsKept (s.endedAt c k) c := by
  unfold State.endedAt
  split
  · refine (s.dropAll_otherClaims c).trans (.of_own ?_ c)
    simp
  · exact s.dropAll_otherClaims c

theorem State.afterFinal_idle {s : State} {c : Fin 6} (hnone : (s.ch c).current = none) (k : PhaseKind) :
    s.afterFinal c k = (s.endedAt c k).modCh c idleChannel := by
  have hended := s.endedAt_pieceEnded c k
  rw [State.afterFinal_eq, if_pos (by simp only [hended, hnone, Option.isNone_none])]

/-- A record left after a final phase halts the channel (R55, R66). -/
theorem State.afterFinal_halted {s : State} {c : Fin 6} {n : PhaseRecord} (hnext : (s.ch c).current = some n)
    (k : PhaseKind) : s.afterFinal c k = (s.endedAt c k).halt c (.inconsistent .afterFinal) := by
  have hended := s.endedAt_pieceEnded c k
  have hcurrent : ((s.endedAt c k).ch c).current = some n := by simp only [hended, hnext]
  rw [State.afterFinal_eq, if_neg (by simp only [hcurrent, Option.isNone_some, Bool.false_eq_true, not_false_iff])]
  exact State.begin_of_failed hcurrent (by simp [startCheck]) false

theorem State.afterFinal_noClaims {s : State} {c : Fin 6} (hstate : (s.ch c).state.haltable = true) (k : PhaseKind) :
    (s.afterFinal c k).NoClaims c := by
  have hended := s.endedAt_pieceEnded c k
  cases hcurrent : (s.ch c).current with
  | none =>
    rw [State.afterFinal_idle hcurrent]
    exact (s.endedAt_noClaims c k).of_own rfl
  | some n =>
    rw [State.afterFinal_halted hcurrent]
    exact State.halt_noClaims (by simp only [hended, hstate]) _

theorem State.afterFinal_otherClaims (s : State) (c : Fin 6) (k : PhaseKind) :
    s.OtherClaimsKept (s.afterFinal c k) c := by
  rw [State.afterFinal_eq]
  refine (s.endedAt_otherClaims c k).trans ?_
  split
  · exact .of_own rfl c
  · exact State.begin_otherClaims _ c true false

theorem State.afterFinal_records {s : State} {c : Fin 6} (hstate : (s.ch c).state.haltable = true) (k : PhaseKind) :
    ((s.afterFinal c k).ch c).records = (s.ch c).records := by
  have hended := s.endedAt_pieceEnded c k
  rw [State.afterFinal_eq]
  split
  · obtain ⟨_, _, _, hrecords, _⟩ := hended
    rw [State.ch_modCh_self]
    exact hrecords
  · rw [State.begin_records (by simp only [hended, hstate])]
    simp only [hended]

/-- After a final phase the channel is IDLE, or HALTED over the record that is left. -/
theorem State.afterFinal_state {s : State} {c : Fin 6} (hstate : (s.ch c).state.haltable = true) (k : PhaseKind) :
    ((s.ch c).current = none → ((s.afterFinal c k).ch c).state = .idle)
      ∧ ((s.ch c).current ≠ none → ((s.afterFinal c k).ch c).state = .halted
        ∧ ((s.afterFinal c k).ch c).halt = some (.inconsistent .afterFinal))
      ∧ ((s.afterFinal c k).ch c).wait.turn = false ∧ ((s.afterFinal c k).ch c).due = none := by
  have hended := s.endedAt_pieceEnded c k
  cases hcurrent : (s.ch c).current with
  | none =>
    rw [State.afterFinal_idle hcurrent, State.ch_modCh_self]
    exact ⟨fun _ => rfl, fun h => absurd rfl h, rfl, rfl⟩
  | some n =>
    have hhalted := State.halt_haltedFrom (s := s.endedAt c k) (c := c) (by simp only [hended, hstate])
      (.inconsistent .afterFinal)
    rw [State.afterFinal_halted hcurrent]
    simp only [hhalted, and_self, implies_true, reduceCtorEq, false_implies]

/-! ### The completion itself -/

/-- What a completion keeps as its newest record, with the three records before it at most. -/
theorem State.complete_records {s : State} {c : Fin 6} {r : PhaseRecord} (hcurrent : (s.ch c).current = some r)
    (hstate : (s.ch c).state.haltable = true) (reason : EndReason) : ((s.complete c reason).ch c).records =
      (completionOf (s.ch c) r reason s.line.round :: (s.ch c).records).take 4 := by
  have hch := s.movedOnAt_ch_self c r reason
  have hrecords : ((s.movedOnAt c r reason).ch c).records =
      (completionOf (s.ch c) r reason s.line.round :: (s.ch c).records).take 4 := by rw [hch]; rfl
  have hhaltable : ((s.movedOnAt c r reason).ch c).state.haltable = true := by rw [hch]; exact hstate
  rw [State.complete_of_current hcurrent]
  split
  · rw [State.afterFinal_records hhaltable, hrecords]
  · split
    · rw [State.starve_ch_self]
      exact hrecords
    · split
      · rw [State.pause_ch_self]
        exact hrecords
      · rw [State.begin_records hhaltable, hrecords]

theorem State.complete_head {s : State} {c : Fin 6} {r : PhaseRecord} (hcurrent : (s.ch c).current = some r)
    (hstate : (s.ch c).state.haltable = true) (reason : EndReason) :
    ((s.complete c reason).ch c).records.head? = some (completionOf (s.ch c) r reason s.line.round) := by
  rw [State.complete_records hcurrent hstate]
  rfl

theorem State.complete_endedBy {s : State} {c : Fin 6} {r : PhaseRecord} (hcurrent : (s.ch c).current = some r)
    (hstate : (s.ch c).state.haltable = true) (reason : EndReason) :
    ((s.complete c reason).ch c).EndedBy r.kind reason :=
  ⟨_, State.complete_head hcurrent hstate reason, rfl, rfl⟩

theorem State.complete_otherClaims (s : State) (c : Fin 6) (reason : EndReason) :
    s.OtherClaimsKept (s.complete c reason) c := by
  cases hcurrent : (s.ch c).current with
  | none =>
    simp only [State.complete, hcurrent]
    exact .of_own rfl c
  | some r =>
    rw [State.complete_of_current hcurrent]
    refine (State.OtherClaimsKept.of_own (s.movedOnAt_own c r reason) c).trans ?_
    split
    · exact State.afterFinal_otherClaims _ c _
    · split
      · exact .of_own (by simp) c
      · split
        · exact .of_own (by simp) c
        · exact State.begin_otherClaims _ c false false

/-- A final phase drops every claim, and ends in IDLE, or in HALTED over the record left (R55). -/
theorem State.complete_final {s : State} {c : Fin 6} {r : PhaseRecord} (hcurrent : (s.ch c).current = some r)
    (hstate : (s.ch c).state.haltable = true) (hfinal : isFinal r.kind = true) (reason : EndReason) :
    (s.complete c reason).NoClaims c
      ∧ ((s.ch c).next = none → ((s.complete c reason).ch c).state = .idle)
      ∧ ((s.ch c).next ≠ none → ((s.complete c reason).ch c).state = .halted
        ∧ ((s.complete c reason).ch c).halt = some (.inconsistent .afterFinal))
      ∧ ((s.complete c reason).ch c).wait.turn = false ∧ ((s.complete c reason).ch c).due = none := by
  have hch := s.movedOnAt_ch_self c r reason
  have hhaltable : ((s.movedOnAt c r reason).ch c).state.haltable = true := by rw [hch]; exact hstate
  have hnext : ((s.movedOnAt c r reason).ch c).current = (s.ch c).next := by rw [hch]; rfl
  have hended := State.afterFinal_state hhaltable r.kind
  rw [hnext] at hended
  rw [State.complete_of_current hcurrent, if_pos hfinal]
  exact ⟨State.afterFinal_noClaims hhaltable r.kind, hended⟩

/-- Where nothing follows a phase, TURN_WAIT ends with it (R99). -/
theorem State.complete_last_turnWait {s : State} {c : Fin 6} {r : PhaseRecord} (hcurrent : (s.ch c).current = some r)
    (hstate : (s.ch c).state.haltable = true) (hlast : (s.ch c).next = none) (reason : EndReason) :
    ((s.complete c reason).ch c).wait.turn = false := by
  by_cases hfinal : isFinal r.kind = true
  · obtain ⟨_, _, _, hturn, _⟩ := State.complete_final hcurrent hstate hfinal reason
    exact hturn
  · rw [State.complete_of_current hcurrent, if_neg hfinal, hlast, if_pos Option.isNone_none, State.starve_ch_self,
      State.movedOnAt_ch_self]
    rfl

/-! ### A start at a request, and a cause of completion -/

theorem State.startPhase_otherClaims (s : State) (c : Fin 6) (orphan : Bool) :
    s.OtherClaimsKept (s.startPhase c orphan) c := by
  unfold State.startPhase
  dsimp only
  split
  · exact (s.begin_otherClaims c false orphan).trans (State.complete_otherClaims _ c .cast)
  · exact s.begin_otherClaims c false orphan

/-- A phase other than LOAD that passes its checks starts; nothing completes there. -/
theorem State.startPhase_of_check {s : State} {c : Fin 6} {r : PhaseRecord} (hcurrent : (s.ch c).current = some r)
    (hcheck : startCheck (s.ch c) r false = none) (hload : r.kind ≠ .load) (orphan : Bool) :
    s.startPhase c orphan = s.begin c false orphan := by
  have hbegun := (State.begin_begunFrom hcurrent hcheck orphan).1
  unfold State.startPhase
  exact if_neg (by simp [Channel.inPhase, Channel.phase, hbegun, hcurrent, hload])

theorem State.startPhase_of_load {s : State} {c : Fin 6} {r : PhaseRecord} (hcurrent : (s.ch c).current = some r)
    (hcheck : startCheck (s.ch c) r false = none) (hload : r.kind = .load) (orphan : Bool) :
    s.startPhase c orphan = (s.begin c false orphan).complete c .cast := by
  have hbegun := (State.begin_begunFrom hcurrent hcheck orphan).1
  unfold State.startPhase
  exact if_pos (by simp [Channel.inPhase, Channel.phase, hbegun, hcurrent, hload])

theorem State.startPhase_of_failed {s : State} {c : Fin 6} {r : PhaseRecord} {reason : CheckReason}
    (hcurrent : (s.ch c).current = some r) (hcheck : startCheck (s.ch c) r false = some reason)
    (hstate : (s.ch c).state.haltable = true) (orphan : Bool) :
    s.startPhase c orphan = s.halt c (.inconsistent reason) := by
  have hhalted := State.halt_haltedFrom hstate (.inconsistent reason)
  unfold State.startPhase
  rw [State.begin_of_failed hcurrent hcheck]
  exact if_neg (by simp [hhalted])

/-- The start of a record in CURRENT, whatever its check gives (R53, R66, R120). -/
theorem State.startPhase_startedBy {s : State} {c : Fin 6} {r : PhaseRecord} (hcurrent : (s.ch c).current = some r)
    (hstate : (s.ch c).state.haltable = true) (orphan : Bool) :
    ((s.startPhase c orphan).ch c).StartedBy (startCheck (s.ch c) r false) r := by
  unfold Channel.StartedBy
  cases hcheck : startCheck (s.ch c) r false with
  | some reason =>
    have hhalted := State.halt_haltedFrom hstate (.inconsistent reason)
    rw [State.startPhase_of_failed hcurrent hcheck hstate]
    simp only [hhalted, and_self]
  | none =>
    have hbegun := (State.begin_begunFrom hcurrent hcheck orphan).1
    by_cases hload : r.kind = .load
    · rw [State.startPhase_of_load hcurrent hcheck hload]
      simp only [hload, if_true]
      rw [← hload]
      exact State.complete_endedBy (by simp only [hbegun, hcurrent]) (by simp only [hbegun, ChState.haltable]) .cast
    · rw [State.startPhase_of_check hcurrent hcheck hload]
      simp only [hload, if_false, Channel.JustStarted, hbegun, hcurrent, and_self]

theorem State.finish_of_running {s : State} {c : Fin 6} (h : (s.ch c).state = .running) (reason : EndReason) :
    s.finish c reason = s.complete c reason := by
  unfold State.finish
  simp only [h]

theorem State.finish_of_paused {s : State} {c : Fin 6} (h : (s.ch c).state = .paused)
    (hstarted : (s.ch c).started = true) (hdue : (s.ch c).due = none) (reason : EndReason) :
    s.finish c reason = s.modCh c fun k => { k with due := some reason } := by
  unfold State.finish
  simp [h, hstarted, hdue]

end Sys2Proof.Machine

/-! ## Proofs: what ends a phase (chapters 3 to 6)

A cause of completion reaches the channel after a timer or a mark of it has been brought to its limit: the phase in
progress is the same, and completes, or is due at RELEASE. -/

namespace Sys2Proof.Machine

/-! ### The same phase, with a timer or a claim changed -/

/-- The state differs at channel `c` and its claims alone, and the channel is in the same phase. -/
structure State.SamePhase (s t : State) (c : Fin 6) : Prop where
  rest : t.tb = s.tb ∧ t.loader = s.loader ∧ t.cfg = s.cfg ∧ t.line = s.line ∧ t.peers = s.peers ∧ t.claims = s.claims
    ∧ t.turner = s.turner ∧ t.replies = s.replies ∧ t.castends = s.castends ∧ t.book = s.book ∧ t.panel = s.panel
    ∧ t.elock = s.elock ∧ t.free = s.free ∧ t.pending = s.pending
  others : s.OthersKept t c
  otherClaims : s.OtherClaimsKept t c
  state : (t.ch c).state = (s.ch c).state
  current : (t.ch c).current = (s.ch c).current
  started : (t.ch c).started = (s.ch c).started
  due : (t.ch c).due = (s.ch c).due
  records : (t.ch c).records = (s.ch c).records

theorem State.SamePhase.refl (s : State) (c : Fin 6) : s.SamePhase s c :=
  ⟨by simp, fun _ _ => rfl, rfl, rfl, rfl, rfl, rfl, rfl⟩

theorem State.SamePhase.modCh {s t : State} {c : Fin 6} (h : s.SamePhase t c) {f : Channel → Channel}
    (hf : ∀ k : Channel, (f k).state = k.state ∧ (f k).current = k.current ∧ (f k).started = k.started
      ∧ (f k).due = k.due ∧ (f k).records = k.records) : s.SamePhase (t.modCh c f) c := by
  obtain ⟨hstate, hcurrent, hstarted, hdue, hrecords⟩ := hf (t.ch c)
  refine ⟨?_, fun d hd => ?_, h.otherClaims.trans (t.modCh_otherClaims c f c), ?_, ?_, ?_, ?_, ?_⟩
  · exact h.rest
  · rw [State.modCh_others t c f d hd, h.others d hd]
  · rw [State.ch_modCh_self, hstate, h.state]
  · rw [State.ch_modCh_self, hcurrent, h.current]
  · rw [State.ch_modCh_self, hstarted, h.started]
  · rw [State.ch_modCh_self, hdue, h.due]
  · rw [State.ch_modCh_self, hrecords, h.records]

theorem State.timerAt_samePhase (s : State) (c : Fin 6) (n : Nat) : s.SamePhase (s.timerAt c n) c :=
  (State.SamePhase.refl s c).modCh fun _ => ⟨rfl, rfl, rfl, rfl, rfl⟩

theorem State.SamePhase.dropOn {s t : State} {c : Fin 6} (h : s.SamePhase t c) (r : Resource) :
    s.SamePhase (t.dropOn c r) c := by
  refine ⟨?_, fun d hd => ?_, h.otherClaims.trans (t.dropOn_otherClaims c r), ?_, ?_, ?_, ?_, ?_⟩
  · simp [h.rest]
  · rw [State.dropOn_others t c r d hd, h.others d hd]
  all_goals simp only [State.dropOn_runKept, h.state, h.current, h.started, h.due, h.records]

/-- A RUNNING phase completes by its cause (R55). -/
theorem State.SamePhase.finish_running {s t : State} {c : Fin 6} {r : PhaseRecord} (h : s.SamePhase t c)
    (hcurrent : (s.ch c).current = some r) (hrun : (s.ch c).state = .running) (reason : EndReason) :
    ∃ rec, ((t.finish c reason).ch c).records.head? = some rec ∧ rec.kind = r.kind ∧ rec.reason = reason
      ∧ rec.round = s.line.round ∧ s.OthersKept (t.finish c reason) c ∧ s.OtherClaimsKept (t.finish c reason) c
      ∧ t.finish c reason = { s with
          own := (t.finish c reason).own, chans := (t.finish c reason).chans
          castends := (t.finish c reason).castends, book := (t.finish c reason).book
          panel := (t.finish c reason).panel } := by
  have hrun' : (t.ch c).state = .running := h.state.trans hrun
  rw [State.finish_of_running hrun']
  refine ⟨_, State.complete_head (h.current.trans hcurrent) (by rw [hrun']; rfl) reason, rfl, rfl, ?round, fun d hd => ?_,
    h.otherClaims.trans (t.complete_otherClaims c reason), State.eq_of_fields (by simp [h.rest])⟩
  case round => simp [completionOf, h.rest]
  rw [State.complete_others t c reason d hd, h.others d hd]

/-- A PAUSED phase takes the completion as due at RELEASE (R55). -/
theorem State.SamePhase.finish_paused {s t : State} {c : Fin 6} (h : s.SamePhase t c)
    (hpaused : (s.ch c).state = .paused) (hstarted : (s.ch c).started = true) (hdue : (s.ch c).due = none)
    (reason : EndReason) :
    ((t.finish c reason).ch c).due = some reason ∧ ((t.finish c reason).ch c).state = .paused
      ∧ ((t.finish c reason).ch c).records = (s.ch c).records ∧ s.OthersKept (t.finish c reason) c := by
  rw [State.finish_of_paused (h.state.trans hpaused) (h.started.trans hstarted) (h.due.trans hdue)]
  refine ⟨by simp, by simp [h.state, hpaused], by simp [h.records], fun d hd => ?_⟩
  rw [State.modCh_others t c _ d hd, h.others d hd]

/-! ### The process timers (R53, R81, R83, R97, R100, R122 to R124, R128) -/

theorem State.vessel_isVessel {s : State} {c : Fin 6} (h : s.vessel c = true) :
    s.live = true ∧ isVessel (s.ch c).kind = true := by
  simpa [State.vessel] using h

/-- A cause of completion comes in RUNNING while nothing freezes the timer, and in PAUSED. -/
theorem State.mayFinish_of {s : State} {c : Fin 6} (hvessel : s.vessel c = true) (hstarted : (s.ch c).started = true)
    (hstate : (s.ch c).state = .running ∧ (s.ch c).wait.freezes = false ∨ (s.ch c).state = .paused) :
    s.mayFinish c = true := by
  rcases hstate with ⟨hrun, hfree⟩ | hpaused
  · simp [State.mayFinish, State.timerRuns, State.runs, hvessel, hstarted, hrun, hfree]
  · simp [State.mayFinish, hvessel, hstarted, hpaused]

/-- Each of the three timers brings the phase to its end by the reason it names. -/
theorem exec_timer_finishes {s : State} {c : Fin 6} {r : PhaseRecord} {i : Instr} {reason : EndReason}
    (hmay : s.mayFinish c = true) (hcurrent : (s.ch c).current = some r) (hdue : (s.ch c).due = none)
    (hi : (i = .phaseDurationReached c ∧ (durationLimit (s.ch c) r).isSome = true ∧ r.kind ≠ .cast
        ∧ r.kind ≠ .loadout ∧ reason = (if r.kind = .strip then .stripped else .time))
      ∨ (i = .standTimeReached c ∧ (standLimit (s.ch c)).isSome = true ∧ reason = .time)
      ∨ (i = .turnLimitReached c ∧ (turnLimitOf (s.ch c)).isSome = true ∧ reason = .turnMissed)) :
    ∃ t, s.SamePhase t c ∧ exec i s = .next (t.finish c reason) := by
  rcases hi with ⟨rfl, hlimit, hcast, hload, hreason⟩ | ⟨rfl, hlimit, hreason⟩ | ⟨rfl, hlimit, hreason⟩
  · obtain ⟨n, hn⟩ := Option.isSome_iff_exists.mp hlimit
    have hsame := s.timerAt_samePhase c n
    have hexec : exec (.phaseDurationReached c) s = .next ((s.timerAt c n).durationDone c r) := by
      show Host.Outcome.next (s.durationReached c) = _
      simp [State.durationReached, hcurrent, hn, hmay, hdue]
    rw [hexec]
    by_cases hstrip : r.kind = .strip
    · rw [if_pos hstrip] at hreason
      exact ⟨_, hsame, by simp only [State.durationDone, hstrip, hreason]⟩
    · rw [if_neg hstrip] at hreason
      refine ⟨_, hsame.modCh (f := fun h => durationFlags h r) (fun k => ?_), ?_⟩
      · unfold durationFlags
        split <;> exact ⟨rfl, rfl, rfl, rfl, rfl⟩
      · unfold State.durationDone
        rw [hreason]
        split <;> simp_all
  · obtain ⟨n, hn⟩ := Option.isSome_iff_exists.mp hlimit
    refine ⟨_, s.timerAt_samePhase c n, ?_⟩
    show execStandTimeReached c s = _
    simp [execStandTimeReached, hn, hmay, hdue, hreason]
  · obtain ⟨n, hn⟩ := Option.isSome_iff_exists.mp hlimit
    refine ⟨_, ((s.timerAt_samePhase c n).dropOn .turner).modCh
      (f := fun h => { h with wait := { h.wait with turn := false } }) fun _ => ⟨rfl, rfl, rfl, rfl, rfl⟩, ?_⟩
    show execTurnLimitReached c s = _
    simp [execTurnLimitReached, hn, hmay, hdue, hreason, State.turnEnds]

/-- Settles O33, by what the finishing of the same phase leaves. -/
theorem timeLimitsEndPhases : Obligations.TimeLimitsEndPhases := by
  intro s c r i reason hvessel hstarted hcurrent hdue hi
  refine ⟨fun hrun hfree => ?running, fun hpaused => ?paused⟩
  case running =>
    obtain ⟨t, hsame, hexec⟩ := exec_timer_finishes (State.mayFinish_of hvessel hstarted (.inl ⟨hrun, hfree⟩))
      hcurrent hdue hi
    obtain ⟨rec, hfinish⟩ := hsame.finish_running hcurrent hrun reason
    exact ⟨_, rec, hexec, hfinish⟩
  case paused =>
    obtain ⟨t, hsame, hexec⟩ := exec_timer_finishes (State.mayFinish_of hvessel hstarted (.inr hpaused)) hcurrent hdue hi
    exact ⟨_, hexec, hsame.finish_paused hpaused hstarted hdue reason⟩

/-! ### Breakthrough (R121) -/

theorem Channel.inPhase_iff {h : Channel} {k : PhaseKind} :
    h.inPhase k = true ↔ h.started = true ∧ ∃ r, h.current = some r ∧ r.kind = k := by
  cases hstarted : h.started <;> simp [Channel.inPhase, Channel.phase, hstarted]

theorem State.runs_iff {s : State} {c : Fin 6} :
    s.runs c = true ↔ s.vessel c = true ∧ (s.ch c).state = .running ∧ (s.ch c).started = true := by
  simp [State.runs, and_assoc]

/-- Settles O30, by what a completion keeps and leaves. -/
theorem breakthroughCompletesDry : Obligations.BreakthroughCompletesDry := by
  intro s c hnearly
  have hexec : exec (.breakthrough c) s =
      .next ((s.modCh c fun h => { h with breakCount := 10 }).complete c .breakthrough) := by
    show execBreakthrough c s = _
    rw [execBreakthrough, if_pos hnearly]
  simp only [State.nearlyThrough, Bool.and_eq_true, State.runs_iff] at hnearly
  obtain ⟨⟨⟨⟨⟨⟨_, hrun, _⟩, hdry⟩, _⟩, _⟩, _⟩, _⟩ := hnearly
  obtain ⟨_, r, hcurrent, hkind⟩ := Channel.inPhase_iff.mp hdry
  have hhaltable : (s.ch c).state.haltable = true := by rw [hrun]; rfl
  have hrecords := State.complete_records (s := s.modCh c fun h => { h with breakCount := 10 }) (c := c)
    (by simpa using hcurrent) (by simpa using hhaltable) .breakthrough
  refine ⟨_, completionOf { s.ch c with breakCount := 10 } r .breakthrough s.line.round, hexec, ?_, hkind, rfl, rfl, rfl,
    ?_, ?_, fun d hd => ?_, ?_, State.eq_of_fields (by simp)⟩
  · rw [hrecords, State.ch_modCh_self]
    rfl
  · simp [completionOf, usesTarget, hkind]
  · rw [hrecords]
    exact List.length_take_le 4 _
  · simp [hd]
  · exact (s.modCh_otherClaims c _ c).trans (State.complete_otherClaims _ c .breakthrough)

/-! ### A cast at its duration (R87, R101) -/

/-- The channel whose cast drive has stopped (R87, R101). -/
def castStopped (h : Channel) : Channel :=
  { h with step := some (if h.kind = .box then .loadEnded else .castEnded) }

theorem State.castEnd_eq (s : State) (c : Fin 6) :
    s.castEnd c = ((s.modCh c castStopped).dropAll c).completeCast c := rfl

/-- The end of a cast or load-out: the drive stops, the claims go, and the unit is told with the piece as it stands. -/
theorem State.castEnd_spec {s : State} {c : Fin 6} {p : Piece} {d : Pair} (hpiece : (s.ch c).piece = some p)
    (hpartner : (s.ch c).xfer.partner = some d) :
    ((s.castEnd c).ch c).xfer.state = .ended ∧ (s.castEnd c).NoClaims c
      ∧ ((s.castEnd c).ch c).step = some (if (s.ch c).kind = .box then .loadEnded else .castEnded)
      ∧ (s.castEnd c).castends = placeCastend ⟨c.val, d, .complete p⟩ s.castends
      ∧ ((s.castEnd c).ch c).piece = some p ∧ s.OthersKept (s.castEnd c) c ∧ s.OtherClaimsKept (s.castEnd c) c
      ∧ s.castEnd c = { s with
          own := (s.castEnd c).own, chans := (s.castEnd c).chans, castends := (s.castEnd c).castends } := by
  have hcastends := State.completeCast_castends (s := (s.modCh c castStopped).dropAll c) (c := c) (d := d) (p := p)
    (by simpa [castStopped] using hpartner) (by simpa [castStopped] using hpiece)
  have hown : (s.castEnd c).own = ((s.modCh c castStopped).dropAll c).own := by rw [State.castEnd_eq]; simp
  refine ⟨?_, (State.dropAll_noClaims (s.modCh c castStopped) c).of_own hown, ?_, ?_, ?_, fun e he => ?_,
    (State.dropAll_otherClaims (s.modCh c castStopped) c).trans (.of_own hown c), State.eq_of_fields (by simp)⟩
  · simp [State.castEnd_eq]
  · simp [State.castEnd_eq, castStopped]
  · rw [State.castEnd_eq, hcastends]
    simp
  · simp [State.castEnd_eq, castStopped, hpiece]
  · simp [he]

/-- Settles O34, by the timer's running and the end of a cast. -/
theorem castEndsAtDuration : Obligations.CastEndsAtDuration := by
  intro s c r p d hruns hcurrent hdue hkind hpiece hpartner
  have hmay : s.mayFinish c = true := by simp [State.mayFinish, hruns]
  have hruns' (n : Nat) : (s.timerAt c n).timerRuns c = true := by
    simpa [State.timerAt, State.timerRuns, State.runs, State.vessel, State.live, State.busy] using hruns
  obtain ⟨n, hlimit, hdone⟩ : ∃ n, durationLimit (s.ch c) r = some n
      ∧ (s.timerAt c n).durationDone c r = (s.timerAt c n).castEnd c := by
    refine ⟨minutes r.duration, ?_, ?_⟩
    · rcases hkind with ⟨hcast, hstep⟩ | ⟨hload, hstep⟩ <;> simp [durationLimit, *]
    · rcases hkind with ⟨hcast, hstep⟩ | ⟨hload, hstep⟩ <;> simp [State.durationDone, *]
  have hexec : exec (.phaseDurationReached c) s = .next ((s.timerAt c n).castEnd c) := by
    show Host.Outcome.next (s.durationReached c) = _
    simp [State.durationReached, hcurrent, hlimit, hmay, hdue, hdone]
  obtain ⟨hended, hclaims, hstep, hcastends, hkept, hothers, hotherClaims, hrest⟩ :=
    State.castEnd_spec (s := s.timerAt c n) (c := c) (p := p) (d := d) (by simpa [State.timerAt] using hpiece)
      (by simpa [State.timerAt] using hpartner)
  refine ⟨_, hexec, hended, hclaims, ?_, ?_, hkept, fun e he => ?_, (State.modCh_otherClaims s c _ c).trans hotherClaims,
    hrest.trans rfl⟩
  · simpa [State.timerAt] using hstep
  · exact hcastends
  · rw [hothers e he]
    simp [he]

end Sys2Proof.Machine

/-! ## Proofs: step timers, clocks and the turner's movements (chapters 4 to 6, section 5.8) -/

namespace Sys2Proof.Machine

/-! ### Timers of a step (R68, R80, R93, R125) -/

theorem State.modCh_others_kept (s : State) (c : Fin 6) (f : Channel → Channel) : s.OthersKept (s.modCh c f) c :=
  fun d hd => State.modCh_others s c f d hd

/-- The channel with its phase timer brought to a value (R53). -/
def timerBrought (h : Channel) (n : Nat) : Channel := { h with timer := max h.timer (min n timerTop) }

/-- Where a timer of the phase runs and its limit is given, its command brings it there and changes the channel. -/
theorem timer_modCh_spec (s : State) (c : Fin 6) (n : Nat) (f : Channel → Channel) :
    ((s.timerAt c n).modCh c f).ch c = f (timerBrought (s.ch c) n)
      ∧ (s.timerAt c n).modCh c f = { s with chans := ((s.timerAt c n).modCh c f).chans }
      ∧ s.OthersKept ((s.timerAt c n).modCh c f) c := by
  refine ⟨by simp [State.timerAt, timerBrought], rfl, fun d hd => ?_⟩
  simp [hd]

theorem beginBlend_of_target {h : Channel} {target : Int} (htarget : h.next.bind targetOf = some target) (n : Nat) :
    beginBlend h n = { h with blend := .moving n target } := by
  simp only [beginBlend, htarget]

theorem beginBlend_of_none {h : Channel} (hnone : h.next.bind targetOf = none) (n : Nat) :
    beginBlend h n = { h with blend := .missed, flags := { h.flags with blendMissed := true } } := by
  simp only [beginBlend, hnone]

/-- Settles O35, by the channel that each timer's command leaves. -/
theorem stepTimersAct : Obligations.StepTimersAct := by
  refine ⟨⟨fun s c n hruns hlimit => ?fill, fun s c n hruns hlimit => ?settle, fun s c hgate => ?gate⟩,
    fun s c n hruns hlimit => ?blend⟩
  case fill =>
    have hexec : exec (.fillLimitReached c) s =
        .next ((s.timerAt c n).modCh c fun h => { h with flags := { h.flags with fillLate := true } }) := by
      show execFillLimitReached c s = _
      simp only [execFillLimitReached, hlimit, hruns, if_true]
    obtain ⟨hch, hrest⟩ := timer_modCh_spec s c n fun h => { h with flags := { h.flags with fillLate := true } }
    exact ⟨_, hexec, by rw [hch], by rw [hch, timerBrought], hrest⟩
  case settle =>
    have hexec : exec (.settleEnd c) s =
        .next ((s.timerAt c n).modCh c fun h => { h with step := some .steadying, steady := {} }) := by
      show execSettleEnd c s = _
      simp only [execSettleEnd, hlimit, hruns, if_true]
    obtain ⟨hch, hrest⟩ := timer_modCh_spec s c n fun h => { h with step := some .steadying, steady := {} }
    exact ⟨_, hexec, by rw [hch], by rw [hch], by rw [hch, timerBrought], hrest⟩
  case gate =>
    have hexec : exec (.gatePulseEnd c) s = .next (s.modCh c fun h =>
        { h with gate := max h.gate gatePulse, step := some .reading, readings := [] }) := by
      show execGatePulseEnd c s = _
      simp only [execGatePulseEnd, hgate, if_true]
    refine ⟨_, hexec, ?_, ?_, ?_, rfl, s.modCh_others_kept c _⟩ <;> rw [State.ch_modCh_self]
  case blend =>
    have hexec : exec (.blendWindowBegins c) s = .next ((s.timerAt c n).modCh c fun h => beginBlend h n) := by
      show execBlendWindowBegins c s = _
      simp only [execBlendWindowBegins, hlimit, hruns, if_true]
    obtain ⟨hch, hrest⟩ := timer_modCh_spec s c n fun h => beginBlend h n
    refine ⟨_, hexec, fun target htarget => ?moving, fun hnone => ?missed, ?channel, hrest⟩
    case moving =>
      rw [hch, beginBlend_of_target (h := timerBrought (s.ch c) n) htarget]
      exact ⟨rfl, rfl⟩
    case missed =>
      rw [hch, beginBlend_of_none (h := timerBrought (s.ch c) n) hnone]
      exact ⟨rfl, rfl⟩
    case channel =>
      rw [hch]
      cases htarget : (timerBrought (s.ch c) n).next.bind targetOf with
      | some target => rw [beginBlend_of_target htarget, timerBrought]
      | none => rw [beginBlend_of_none htarget, timerBrought]

/-! ### The blower and spray clocks (R81, R83, R97) -/

theorem State.shedPoint_of_none {s : State} {c : Fin 6} {rs : List Resource} (h : s.postedOf c rs = []) :
    s.shedPoint c rs = s := by
  rw [State.shedPoint, h]
  rfl

theorem State.postedOf_modCh (s : State) (c d : Fin 6) (f : Channel → Channel) (rs : List Resource) :
    (s.modCh d f).postedOf c rs = s.postedOf c rs := rfl

theorem exec_blowerOffEdge {s : State} {c : Fin 6} {on cycle n : Nat} (hvessel : s.vessel c = true)
    (hblower : (s.ch c).blowerOn = true) (hcycle : blowerCycle (s.ch c) = some (on, cycle))
    (hclock : (s.ch c).blower = some n) : exec (.blowerOffEdge c) s = .next ((s.modCh c fun h =>
      { h with blower := some (toOffEdge n on cycle), blowerOn := false }).shedPoint c [.power]) := by
  show Host.Outcome.next (s.blowerOffEdge c) = _
  simp [State.blowerOffEdge, hcycle, hclock, hvessel, hblower]

/-- The channel at an edge of an AIR rest (R83). -/
def restEdgeReached (n : Nat) (h : Channel) : Channel :=
  { h with blower := some (max n (restEdge h)), restEdges := h.restEdges + 1 }

theorem exec_airRestEdge {s : State} {c : Fin 6} {n : Nat} (hvessel : s.vessel c = true)
    (hresting : (s.ch c).resting = true) (hclock : (s.ch c).blower = some n) :
    exec (.airRestEdge c) s = .next ((s.modCh c (restEdgeReached n)).restShed c) := by
  show Host.Outcome.next (s.airRestEdge c) = _
  simp only [State.airRestEdge, hclock, hvessel, hresting]
  rfl

@[simp] theorem State.shedOne_blower (s : State) (c : Fin 6) (o : OwnClaim) (d : Fin 6) :
    ((s.shedOne c o).ch d).blower = (s.ch d).blower ∧ ((s.shedOne c o).ch d).blowerOn = (s.ch d).blowerOn
      ∧ ((s.shedOne c o).ch d).restEdges = (s.ch d).restEdges := by
  unfold State.shedOne State.countShed
  by_cases hd : d = c
  · subst hd
    simp
    split <;> simp
  · simp [hd]

theorem State.shedPoint_blower (s : State) (c : Fin 6) (rs : List Resource) (d : Fin 6) :
    ((s.shedPoint c rs).ch d).blower = (s.ch d).blower ∧ ((s.shedPoint c rs).ch d).blowerOn = (s.ch d).blowerOn
      ∧ ((s.shedPoint c rs).ch d).restEdges = (s.ch d).restEdges := by
  unfold State.shedPoint
  induction s.postedOf c rs generalizing s with
  | nil => exact ⟨rfl, rfl, rfl⟩
  | cons o r ih => simpa using ih (s.shedOne c o)

theorem State.restShed_of_none {s : State} {c : Fin 6} (h : s.postedOf c [.power] = []) : s.restShed c = s := by
  rw [State.restShed, if_pos (by rw [h]; rfl)]

theorem State.restShed_restEdges (s : State) (c d : Fin 6) : ((s.restShed c).ch d).restEdges = (s.ch d).restEdges := by
  obtain ⟨_, _, hedges⟩ := s.shedPoint_blower c [.power] d
  unfold State.restShed
  split
  · rfl
  · by_cases hd : d = c
    · subst hd
      rw [State.ch_modCh_self]
      exact hedges
    · rw [State.modCh_others _ c _ d hd, hedges]

/-! ### The turner (R107, R108, R110, R111) -/

theorem placeTurnend_getLast (x : TurnendItem) (l : List (Listed TurnendItem)) :
    (placeTurnend x l).getLast? = some (newItem x) := by
  simp [placeTurnend]

/-- The TURNER channel is named by the kinds alone. -/
theorem State.turnerCh_of_kinds {s t : State} (h : ∀ d, (t.ch d).kind = (s.ch d).kind) : t.turnerCh = s.turnerCh := by
  simp only [State.turnerCh, h]

@[simp] theorem State.turnerCh_dropTurner (s : State) : s.dropTurner.turnerCh = s.turnerCh :=
  State.turnerCh_of_kinds (by simp)

theorem State.dropTurner_of_turnerCh {s : State} {c : Fin 6} (h : s.turnerCh = some c) : s.dropTurner = s.dropAll c := by
  rw [State.dropTurner, h]

/-- The state of a turner whose order ends in a fault, its claim dropped before (R110). -/
def State.faultQueued (s : State) (o : Order) : State :=
  (((s.orderEnd o .fault).modTurner fun t => { t with
    state := .faulted, position := none, order := none, timer := 0, available := false }).turnDone .fault).event
    .halted s.turnerCh none [4, 0, 0, 0]

/-- The state of a turner whose turn is done, its claim dropped before (R108). -/
def State.doneQueued (s : State) (o : Order) : State :=
  (((s.modTurner fun t => { t with position := some o.bay }).orderEnd o .ok).turnDone .ok).modTurner fun t =>
    { t with state := .parked, order := none, timer := 0 }

theorem State.doneQueued_panel (s : State) (o : Order) : (s.doneQueued o).panel =
    s.panel.queue s.line.round ⟨.turnDone, s.turnerCh, none, s.line.round, [1, 0, 0, 0]⟩ := rfl

theorem State.faultQueued_panel (s : State) (o : Order) : (s.faultQueued o).panel =
    (s.panel.queue s.line.round ⟨.turnDone, s.turnerCh, none, s.line.round, [3, 0, 0, 0]⟩).queue s.line.round
      ⟨.halted, s.turnerCh, none, s.line.round, [4, 0, 0, 0]⟩ := rfl

theorem State.turningDone_of_order {s : State} {o : Order} {c : Fin 6} (horder : s.turner.order = some o)
    (hch : s.turnerCh = some c) : s.turningDone = (s.dropAll c).doneQueued o := by
  simp only [State.turningDone, horder]
  rw [State.dropTurner_of_turnerCh hch]
  rfl

theorem State.turnerFaults_of_order {s : State} {o : Order} {c : Fin 6} (horder : s.turner.order = some o)
    (hch : s.turnerCh = some c) : s.turnerFaults = (s.dropAll c).faultQueued o := by
  simp only [State.turnerFaults, horder]
  rw [State.dropTurner_of_turnerCh hch]
  rfl

theorem State.dropAll_turnerCh (s : State) (c : Fin 6) : (s.dropAll c).turnerCh = s.turnerCh :=
  State.turnerCh_of_kinds (by simp)

/-- What the end of a turn leaves, its TURNEND queued for the box and TURN_DONE for the panel. -/
theorem State.turningDone_spec {s : State} {o : Order} {c : Fin 6} (horder : s.turner.order = some o)
    (hch : s.turnerCh = some c) :
    s.turningDone.turner = { s.turner with
        state := .parked, order := none, timer := 0, position := some o.bay
        turnends := placeTurnend ⟨o.box, .ok, o.round⟩ s.turner.turnends }
      ∧ s.turningDone.panel = s.panel.queue s.line.round ⟨.turnDone, some c, none, s.line.round, [1, 0, 0, 0]⟩
      ∧ s.turningDone.own = (s.dropAll c).own ∧ s.turningDone.chans = (s.dropAll c).chans
      ∧ s.turningDone = { s with
          own := s.turningDone.own, chans := s.turningDone.chans, turner := s.turningDone.turner
          panel := s.turningDone.panel } := by
  refine ⟨?_, ?_, ?_, ?_, State.eq_of_fields (by simp)⟩ <;> rw [State.turningDone_of_order horder hch]
  · simp [State.doneQueued, State.orderEnd, State.turnend, State.turnDone]
  · rw [State.doneQueued_panel, State.dropAll_turnerCh, hch]
    simp
  · simp [State.doneQueued]
  · simp [State.doneQueued]

/-- What an overload leaves: the order ends in FAULT, and the turner stands FAULTED at no known position. -/
theorem State.turnerFaults_spec {s : State} {o : Order} {c : Fin 6} (horder : s.turner.order = some o)
    (hch : s.turnerCh = some c) :
    s.turnerFaults.turner = { s.turner with
        state := .faulted, position := none, order := none, timer := 0, available := false
        turnends := placeTurnend ⟨o.box, .fault, o.round⟩ s.turner.turnends }
      ∧ s.turnerFaults.panel = (s.panel.queue s.line.round ⟨.turnDone, some c, none, s.line.round, [3, 0, 0, 0]⟩).queue
          s.line.round ⟨.halted, some c, none, s.line.round, [4, 0, 0, 0]⟩
      ∧ s.turnerFaults.own = (s.dropAll c).own ∧ s.turnerFaults.chans = (s.dropAll c).chans
      ∧ s.turnerFaults = { s with
          own := s.turnerFaults.own, chans := s.turnerFaults.chans, turner := s.turnerFaults.turner
          panel := s.turnerFaults.panel } := by
  refine ⟨?_, ?_, ?_, ?_, State.eq_of_fields (by simp)⟩ <;> rw [State.turnerFaults_of_order horder hch]
  · simp [State.faultQueued, State.orderEnd, State.turnend, State.turnDone]
  · rw [State.faultQueued_panel, State.dropAll_turnerCh, hch]
    simp
  · simp [State.faultQueued]
  · simp [State.faultQueued]

/-- Settles O36, edge by edge and movement by movement. -/
theorem edgesAndMovementsAct : Obligations.EdgesAndMovementsAct := by
  refine ⟨fun s c on cycle n hvessel hoff hcycle hclock => ?blowerOn,
    fun s c on cycle n hvessel hon hcycle hclock => ?blowerOff, fun s c n hvessel hresting hclock => ?rest,
    fun s c m n hvessel hpart hclock => ?spray, fun s o hmoves htravel horder => ?travel,
    fun s o c hmoves hturning horder hch => ?turn, fun s c hnearly hch => ?overload⟩
  case blowerOn =>
    refine ⟨s.modCh c fun h => { h with blower := some (toOnEdge n on cycle), blowerOn := true }, ?_, by simp, rfl,
      s.modCh_others_kept c _⟩
    show Host.Outcome.next (s.blowerOnEdge c) = _
    simp [State.blowerOnEdge, hcycle, hclock, hvessel, hoff]
  case blowerOff =>
    obtain ⟨_, hstopped, _⟩ := State.shedPoint_blower (s.modCh c fun h =>
      { h with blower := some (toOffEdge n on cycle), blowerOn := false }) c [.power] c
    refine ⟨_, exec_blowerOffEdge hvessel hon hcycle hclock, ?_, fun d hd => ?_, State.eq_of_fields (by simp),
      fun hnone => ?_⟩
    · rw [hstopped, State.ch_modCh_self]
    · simp [hd]
    · rw [State.shedPoint_of_none (by rw [State.postedOf_modCh, hnone])]
      exact ⟨rfl, s.ch_modCh_self c _⟩
  case rest =>
    refine ⟨_, exec_airRestEdge hvessel hresting hclock, ?_, fun d hd => ?_, State.eq_of_fields (by simp), fun hnone => ?_⟩
    · rw [State.restShed_restEdges, State.ch_modCh_self]
      rfl
    · simp [hd]
    · rw [State.restShed_of_none (by rw [State.postedOf_modCh, hnone])]
      exact ⟨rfl, s.ch_modCh_self c _⟩
  case spray =>
    have hexec : exec (.sprayIntervalEdge c) s = .next (s.modCh c fun h =>
        if h.sprayOn then { h with spray := some (toOffEdge n m sprayCycle), sprayOn := false }
        else { h with spray := some (toOnEdge n m sprayCycle), sprayOn := true }) := by
      show Host.Outcome.next (s.sprayEdge c) = _
      simp only [State.sprayEdge, hpart, hclock, hvessel, if_true]
    refine ⟨_, hexec, ?_, ?_, rfl, s.modCh_others_kept c _⟩
    · rw [State.ch_modCh_self]
      cases hspray : (s.ch c).sprayOn <;> rfl
    · rw [State.ch_modCh_self]
      cases hspray : (s.ch c).sprayOn <;> rfl
  case travel =>
    have hdone : s.travelDone = s.modTurner fun t =>
        { t with state := .turning, position := some o.bay, timer := seconds s.cfg.turnTime } := by
      simp only [State.travelDone, horder]
    show execTravelEnd s = _
    rw [execTravelEnd, if_pos (by simp [hmoves, htravel]), hdone]
    rfl
  case turn =>
    have hexec : exec .turnerTurnDone s = .next s.turningDone := by
      show execTurnerTurnDone s = _
      simp [execTurnerTurnDone, hmoves, hturning]
    obtain ⟨hturner, hpanel, hown, hchans, hrest⟩ := State.turningDone_spec horder hch
    refine ⟨_, hexec, ?_, ?_, ?_, ?_, ?_, (s.dropAll_noClaims c).of_own hown, hpanel, hrest, fun d hd => ?_,
      (s.dropAll_otherClaims c).trans (.of_own hown c)⟩
    · rw [hturner]
    · rw [hturner]
    · rw [hturner]
    · rw [hturner]
    · rw [hturner]
      exact placeTurnend_getLast _ _
    · rw [State.ch_of_chans hchans, State.dropAll_others s c d hd]
  case overload =>
    have hexec : exec (.turnerOverloadFault c) s = .next (s.modTurner fun t => { t with overload := 3 }).turnerFaults := by
      show execTurnerOverloadFault c s = _
      rw [execTurnerOverloadFault, if_pos hnearly]
    obtain ⟨o, horder⟩ : ∃ o, s.turner.order = some o := by
      cases horder : s.turner.order with
      | some o => exact ⟨o, rfl⟩
      | none => simp [State.nearlyOverloaded, State.turnerGate, hch, horder] at hnearly
    obtain ⟨hturner, hpanel, hown, hchans, hrest⟩ :=
      State.turnerFaults_spec (s := s.modTurner fun t => { t with overload := 3 }) (o := o) (c := c) horder hch
    refine ⟨_, o, hexec, horder, ?_, ?_, ?_, ?_, ?_,
      (State.dropAll_noClaims (s.modTurner fun t => { t with overload := 3 }) c).of_own hown, ?_, hpanel, hrest,
      fun d hd => ?_, (State.dropAll_otherClaims (s.modTurner fun t => { t with overload := 3 }) c).trans (.of_own hown c)⟩
    · rw [hturner]
    · rw [hturner]
    · rw [hturner]
    · rw [hturner]
    · rw [hturner]
      exact placeTurnend_getLast _ _
    · rw [hturner]
      rfl
    · rw [State.ch_of_chans hchans, State.dropAll_others _ c d hd]
      rfl

end Sys2Proof.Machine

/-! ## Proofs: the channel requests (chapters 3, 7, 8 and 11) -/

namespace Sys2Proof.Machine

/-! ### Refused requests (R179) -/

/-- Where the reply is a refusal, the state is otherwise as it was. -/
def UnchangedIfRefused (s t : State) : Prop :=
  t.panel.reply.result = .refused ∨ t.panel.reply.result = .badRequest →
    t = { s with elock := t.elock, free := t.free, panel := { s.panel with reply := t.panel.reply } }

namespace UnchangedIfRefused

theorem refl (s : State) : UnchangedIfRefused s s := fun _ => rfl

theorem answer (s : State) (code : Byte) (r : Result) (data : List Nat) : UnchangedIfRefused s (s.answer code r data) :=
  fun _ => rfl

theorem sampled (s : State) (low : Bool) (code : Byte) (r : Result) (data : List Nat) :
    UnchangedIfRefused s ((s.sampleElock low).answer code r data) := fun _ => rfl

theorem ok (s u : State) (code : Byte) : UnchangedIfRefused s (u.ok code) := fun h => by
  simp [State.ok] at h

theorem taken (s u : State) (code : Byte) : UnchangedIfRefused s (u.taken code) := fun h => by
  simp [State.taken] at h

theorem loadAt (r : PhaseRecord) (c : Fin 6) (s : State) : UnchangedIfRefused s (s.loadAt r c) := by
  unfold State.loadAt
  split
  · exact answer s _ _ _
  · exact ok s _ _

theorem holdAt (c : Fin 6) (s : State) : UnchangedIfRefused s (State.holdAt c s) := by
  unfold State.holdAt
  split
  · exact ok s _ _
  · exact ok s _ _
  all_goals exact answer s _ _ _

theorem releaseAt (c : Fin 6) (s : State) : UnchangedIfRefused s (State.releaseAt c s) := by
  unfold State.releaseAt
  split
  · exact answer s _ _ _
  · split
    · split
      · exact ok s _ _
      · exact answer s _ _ _
    · exact ok s _ _
    all_goals exact answer s _ _ _

theorem clearHaltAt (c : Fin 6) (s : State) : UnchangedIfRefused s (State.clearHaltAt c s) := by
  unfold State.clearHaltAt
  split
  · exact ok s _ _
  · exact answer s _ _ _

theorem clearTurner (s : State) : UnchangedIfRefused s s.clearTurner := by
  unfold State.clearTurner
  split
  · exact ok s _ _
  · exact answer s _ _ _

theorem channelResetAt (c : Fin 6) (s : State) : UnchangedIfRefused s (State.channelResetAt c s) := by
  unfold State.channelResetAt
  split
  · exact answer s _ _ _
  · split
    · exact answer s _ _ _
    · exact ok s _ _

theorem withdrawAt (c : Fin 6) (s : State) : UnchangedIfRefused s (State.withdrawAt c s) := by
  unfold State.withdrawAt
  split
  iterate 4 exact answer s _ _ _
  all_goals
    split
    · exact answer s _ _ _
    · exact ok s _ _

theorem discardAt (c : Fin 6) (s : State) (low : Bool) :
    UnchangedIfRefused s (State.discardAt c (s.sampleElock low)) := by
  unfold State.discardAt
  split
  · exact sampled s low _ _ _
  · split
    · exact sampled s low _ _ _
    · split
      · exact taken s _ _
      · exact ok s _ _

theorem handGaugeAt (k : HandKind) (g : Nat) (c : Fin 6) (s : State) (low : Bool) :
    UnchangedIfRefused s (State.handGaugeAt k g c (s.sampleElock low)) := by
  unfold State.handGaugeAt
  split
  · exact sampled s low _ _ _
  · split
    · exact sampled s low _ _ _
    · exact taken s _ _

end UnchangedIfRefused

/-- A channel request that is refused changes nothing, by what its meaning at a vessel does. -/
theorem vesselRequest_unchanged {s : State} {code : Byte} {n : Nat} {f : Fin 6 → State → State}
    (hf : ∀ c, UnchangedIfRefused s (f c s)) : Lands (UnchangedIfRefused s) (s.vesselRequest code n f) :=
  State.vesselRequest_lands (.refl s) (.answer s code) fun c _ => hf c

/-- Settles O38, row by row. -/
theorem refusedRequestsChangeNothing : Obligations.RefusedRequestsChangeNothing := by
  intro i s t hrow hexec
  have hread {n : Nat} {f : Fin 6 → State → List Nat} : Lands (UnchangedIfRefused s) (s.readChannel n f) :=
    State.readChannel_lands (.refl s) (.answer s _)
  have hindex {ok : Bool} {f : State → List Nat} : Lands (UnchangedIfRefused s) (s.readIndex ok f) :=
    State.readIndex_lands (.refl s) (.answer s _)
  have hlands : Lands (UnchangedIfRefused s) (exec i s) := by
    obtain ⟨n, ⟨r, rfl⟩ | rfl | rfl | ⟨b, rfl⟩ | rfl | rfl | rfl | ⟨l, rfl⟩ | ⟨k, g, l, rfl⟩ | rfl | ⟨p, rfl⟩ | rfl | ⟨m, rfl⟩
      | rfl | rfl | ⟨bytes, rfl⟩⟩ := hrow
    · unfold exec execLoadPhase
      refine vesselRequest_unchanged fun c => ?_
      split
      · exact .loadAt r c s
      · exact .answer s _ _ _
    · exact vesselRequest_unchanged fun c => .holdAt c s
    · exact vesselRequest_unchanged fun c => .releaseAt c s
    · unfold exec execSetStep
      exact vesselRequest_unchanged fun c => .ok s _ _
    · exact State.channelRequest_lands (.refl s) (.answer s _) (.clearTurner s) fun c _ => .clearHaltAt c s
    · exact vesselRequest_unchanged fun c => .channelResetAt c s
    · exact vesselRequest_unchanged fun c => .withdrawAt c s
    · unfold exec execDiscard
      exact vesselRequest_unchanged fun c => .discardAt c s l
    · unfold exec execHandGauge
      refine vesselRequest_unchanged fun c => ?_
      split
      · exact .handGaugeAt k g c s l
      · exact .answer s _ _ _
    · unfold exec execReadChannelStatus
      exact hread
    · unfold exec execReadPhaseRecord
      exact hread
    · unfold exec execReadPieceRecord
      exact hread
    · show Lands _ (execReadCompletionRecord n m s)
      unfold execReadCompletionRecord
      split
      · exact hread
      · exact State.request_lands (.refl s) fun _ => .answer s _ _ _
    · unfold exec execReadClaimTableEntry
      exact hindex
    · unfold exec execReadBookEntry
      exact hindex
    · unfold exec execBadRequest
      refine State.request_lands (.refl s) fun _ => ?_
      split
      · exact .answer s _ _ _
      · exact fun _ => rfl
  obtain ⟨u, hu, hunchanged⟩ := hlands
  cases hexec.symm.trans hu
  exact hunchanged

/-! ### HOLD and RELEASE of a run (R57, R58) -/

theorem exec_hold {s : State} {c : Fin 6} (hfree : s.busy = false) (hvessel : isVessel (s.kindOf c) = true) :
    exec (.hold c.val) s = .next (State.holdAt c s) := by
  show execHold c.val s = _
  exact State.vesselRequest_of_vessel hfree hvessel _ _

theorem exec_release {s : State} {c : Fin 6} (hfree : s.busy = false) (hvessel : isVessel (s.kindOf c) = true) :
    exec (.release c.val) s = .next (State.releaseAt c s) := by
  show execRelease c.val s = _
  exact State.vesselRequest_of_vessel hfree hvessel _ _

/-- HOLD of a channel that runs or is STARVED pauses it with the state it resumes. -/
theorem State.holdAt_of_running {s : State} {c : Fin 6} (h : (s.ch c).state = .running ∨ (s.ch c).state = .starved) :
    State.holdAt c s = (s.pause c .panel
      (some (if (s.ch c).state = .starved then .starved else .running))).ok 2#8 := by
  unfold State.holdAt
  rcases h with h | h <;> simp [h]

theorem State.releaseAt_of_paused {s : State} {c : Fin 6} (hdiscard : (s.ch c).discardPending = false)
    (hpaused : (s.ch c).state = .paused) : State.releaseAt c s = (s.releasePaused c).ok 3#8 := by
  unfold State.releaseAt
  simp [hdiscard, hpaused]

@[simp] theorem State.runAgain_ch_self (s : State) (c : Fin 6) :
    ((s.runAgain c).ch c).state = .running ∧ ((s.runAgain c).ch c).pause = none ∧ ((s.runAgain c).ch c).resume = none
      ∧ ((s.runAgain c).ch c).timer = (s.ch c).timer ∧ ((s.runAgain c).ch c).current = (s.ch c).current
      ∧ ((s.runAgain c).ch c).due = (s.ch c).due ∧ ((s.runAgain c).ch c).started = (s.ch c).started
      ∧ ((s.runAgain c).ch c).next = (s.ch c).next ∧ ((s.runAgain c).ch c).step = (s.ch c).step
      ∧ ((s.runAgain c).ch c).wait.offer = (s.ch c).wait.offer ∧ ((s.runAgain c).ch c).piece = (s.ch c).piece
      ∧ ((s.runAgain c).ch c).restart = (s.ch c).restart ∧ ((s.runAgain c).ch c).xfer.state = (s.ch c).xfer.state := by
  simp [State.runAgain]

theorem State.runAgain_own (s : State) (c : Fin 6) : (s.runAgain c).own = s.own := by simp [State.runAgain]

@[simp] theorem State.ok_panel (s : State) (code : Byte) :
    (s.ok code).panel = { s.panel with reply := ⟨code, .ok, []⟩ } := rfl

theorem State.resumeRunning_of_due {s : State} {c : Fin 6} {reason : EndReason} (h : (s.ch c).due = some reason) :
    s.resumeRunning c = (s.runAgain c).complete c reason := by
  simp only [State.resumeRunning, h]

theorem State.resumeRunning_of_none {s : State} {c : Fin 6} (h : (s.ch c).due = none) :
    s.resumeRunning c = s.runAgain c := by
  simp only [State.resumeRunning, h]

/-- Settles O41, by the pause and by the running again, with or without a completion that was due. -/
theorem holdAndReleaseOfARun : Obligations.HoldAndReleaseOfARun := by
  refine ⟨fun s c hfree hvessel hstate => ?hold, fun s c hfree hvessel hdiscard hpaused hpause hresume => ?release⟩
  case hold =>
    refine ⟨_, exec_hold hfree hvessel, ?_⟩
    rw [State.holdAt_of_running hstate]
    refine ⟨by simp [pausedChannel], by simp [pausedChannel], by simp [pausedChannel], by simp [pausedChannel],
      by simp [pausedChannel], by simp [pausedChannel], ?_, by simp [pausedChannel], by simp [pausedChannel], rfl,
      State.eq_of_fields (by simp), fun d hd => by simp [hd]⟩
    simp [pausedChannel]
  case release =>
    have hexec : exec (.release c.val) s = .next ((s.resumeRunning c).ok 3#8) := by
      rw [exec_release hfree hvessel, State.releaseAt_of_paused hdiscard hpaused]
      simp [State.releasePaused, hpause, hresume]
    refine ⟨fun hdue => ?goesOn, fun reason r hdue hcurrent => ?completes⟩
    case goesOn =>
      rw [State.resumeRunning_of_none hdue] at hexec
      exact ⟨_, hexec, by simp, by simp, by simp, by simp,
        State.eq_of_fields (by simp [State.runAgain]), fun d hd => by simp [hd]⟩
    case completes =>
      rw [State.resumeRunning_of_due hdue] at hexec
      have hcurrent' : ((s.runAgain c).ch c).current = some r := by simp [hcurrent]
      have hhead := State.complete_head hcurrent' (by simp [ChState.haltable]) reason
      exact ⟨_, _, hexec, by simpa using hhead, rfl, rfl, rfl, fun d hd => by simp [hd]⟩

/-! ### WITHDRAW_OFFER (R141) -/

/-- Settles O44, by the end of the offer and the STARVED channel that is left. -/
theorem withdrawEndsOffer : Obligations.WithdrawEndsOffer := by
  intro s c hfree hvessel hoffer hdiscard
  have hexec : exec (.withdrawOffer c.val) s = .next ((s.withdraw c).ok 7#8) := by
    show execWithdrawOffer c.val s = _
    rw [execWithdrawOffer, State.vesselRequest_of_vessel hfree hvessel]
    rcases hoffer with h | h <;> simp [State.withdrawAt, h, hdiscard]
  have hch : ((s.withdraw c).ch c) = withdrawnChannel (offerEnded (s.ch c)) := by simp [State.withdraw]
  refine ⟨_, hexec, ?_, ?_, ?_, ?_, ?_, ?_, fun honce => ?never, fun d id honce hpartner hpiece => ?told, rfl,
    State.eq_of_fields (by simp), fun d hd => by simp [hd]⟩
  case never => simp [State.withdraw, State.endOffer, honce]
  case told => simp [State.withdraw, State.endOffer, honce, State.cancelPartner, hpartner, hpiece]
  all_goals simp [hch, withdrawnChannel, offerEnded]

end Sys2Proof.Machine

/-! ## Proofs: the queue, the halt and the reset of a channel at request (R61 to R65, R112) -/

namespace Sys2Proof.Machine

/-! ### LOAD_PHASE (R63, R65) -/

theorem exec_loadPhase {s : State} {c : Fin 6} {r : PhaseRecord} (hfree : s.busy = false)
    (hvessel : isVessel (s.kindOf c) = true) (hfits : r.fits = true) (htaken : loadRefusal (s.ch c) r = none) :
    exec (.loadPhase c.val r) s = .next ((if (s.ch c).state = .starved then
      (s.modCh c fun h => placeRecord h r).startPhase c false else s.modCh c fun h => placeRecord h r).ok 1#8) := by
  show execLoadPhase c.val r s = _
  rw [execLoadPhase, State.vesselRequest_of_vessel hfree hvessel, if_pos hfits]
  simp only [State.loadAt, htaken]

theorem placeRecord_of_empty {h : Channel} (hnone : h.current = none) (r : PhaseRecord) :
    placeRecord h r = { h with
      current := some r, started := false, state := if h.state = .idle then .ready else h.state } := by
  rw [placeRecord, if_pos (by rw [hnone]; rfl)]

theorem lateBlend_fields (h : Channel) (r : PhaseRecord) :
    (lateBlend h r).next = h.next ∧ (lateBlend h r).current = h.current ∧ (lateBlend h r).state = h.state := by
  unfold lateBlend
  split
  · split <;> exact ⟨rfl, rfl, rfl⟩
  · exact ⟨rfl, rfl, rfl⟩

theorem placeRecord_of_taken {h : Channel} (hsome : h.current.isSome = true) (r : PhaseRecord) :
    (placeRecord h r).next = some r ∧ (placeRecord h r).current = h.current ∧ (placeRecord h r).state = h.state := by
  rw [placeRecord, if_neg (by simpa using Option.isSome_iff_ne_none.mp hsome)]
  exact lateBlend_fields { h with next := some r } r

/-! ### CLEAR_HALT (R61, R112) -/

/-- A cleared channel commands no drive. -/
theorem State.command_clearedChannel {s : State} {c : Fin 6} {h : Channel} (hch : s.ch c = clearedChannel h)
    (hvessel : isVessel h.kind = true) : s.command c = allOff := by
  have hdrives : (clearedChannel h).drivesBy = none := rfl
  have hstate : (clearedChannel h).state = .paused := rfl
  have hphase : (clearedChannel h).phase = none := rfl
  have hkind : (clearedChannel h).kind = h.kind := rfl
  unfold State.command
  rw [hch, hkind]
  split
  · cases hk : h.kind with
    | steep => simp [steepCommand, Channel.drivesKind, Channel.inPhase, hdrives, hstate, hphase, allOff, bit]
    | box => simp [boxCommand, Channel.drivesKind, hdrives, hstate, allOff, bit]
    | kiln =>
      simp [kilnCommand, kilnFanCommand, Channel.inPhase, hdrives, hstate, hphase, allOff, bit]
      exact ⟨rfl, rfl⟩
    | turner => simp [hk, isVessel] at hvessel
    | unused => simp [hk, isVessel] at hvessel
  · rfl

theorem State.outputs_of_command {s : State} {c : Fin 6} (h : s.command c = allOff) : s.outputs c = allOff := by
  cases hoff : s.forcedOff c
  · rw [State.outputs_of_running hoff, h]
    split <;> simp [allOff, gated]
  · exact State.outputs_of_forcedOff hoff

theorem State.clearTransfer_ch_self (s : State) (c : Fin 6) :
    ((s.clearTransfer c).ch c).piece.map (·.id) = (s.ch c).piece.map (·.id) := by
  unfold State.clearTransfer
  split
  · split
    · cases hpiece : (s.ch c).piece <;> simp [State.modPiece, hpiece]
    · simp
  · rfl

/-- Settles O40, request by request. -/
theorem queueRequestsAct : Obligations.QueueRequestsAct := by
  refine ⟨fun s c r hfree hvessel hfits htaken => ?load, fun s c b hfree hvessel => ?setStep,
    fun s c hfree hvessel hhalted => ?clearHalt, fun s c hfree hturner hfaulted => ?clearTurner,
    fun s c hfree hvessel hpiece haccepted hawaiting => ?reset⟩
  case load =>
    refine ⟨_, exec_loadPhase hfree hvessel hfits htaken, fun hother => ?placed, fun hstarved hempty => ?started,
      fun d hd => ?others⟩
    case placed =>
      rw [if_neg hother]
      refine ⟨fun hempty => ?_, fun htakenPlace => ?_, State.eq_of_fields (by simp)⟩
      · simp [placeRecord_of_empty hempty]
      · obtain ⟨hnext, hcurrent, hstate⟩ := placeRecord_of_taken htakenPlace r
        simp [hnext, hcurrent, hstate]
    case started =>
      rw [if_pos hstarved]
      have hch : (s.modCh c fun h => placeRecord h r).ch c = { s.ch c with
          current := some r, started := false, state := .starved } := by
        simp [placeRecord_of_empty hempty, hstarved]
      have hstarts := State.startPhase_startedBy (s := s.modCh c fun h => placeRecord h r) (c := c) (r := r)
        (by rw [hch]) (by rw [hch]; rfl) false
      rw [hch] at hstarts
      exact ⟨hstarts, rfl,
        ((s.modCh_otherClaims c _ c).trans (State.startPhase_otherClaims _ c false)).trans (.of_own rfl c)⟩
    case others => split <;> simp [hd]
  case setStep =>
    have hexec : exec (.setStep c.val b) s = .next ((s.modCh c fun h => { h with stepFlag := b }).ok 4#8) := by
      show execSetStep c.val b s = _
      exact State.vesselRequest_of_vessel hfree hvessel _ _
    exact ⟨_, hexec, by simp, rfl, fun d hd => by simp [hd]⟩
  case clearHalt =>
    have hexec : exec (.clearHalt c.val) s = .next ((((s.clearTransfer c).modCh c clearedChannel).chEvent c .paused
        [PauseReason.cleared.code, 0, 0, 0]).ok 5#8) := by
      show execClearHalt c.val s = _
      rw [execClearHalt, State.channelRequest_of_vessel hfree hvessel, State.clearHaltAt, if_pos hhalted]
    have hch : ((((s.clearTransfer c).modCh c clearedChannel).chEvent c .paused
        [PauseReason.cleared.code, 0, 0, 0]).ok 5#8).ch c = clearedChannel ((s.clearTransfer c).ch c) := by simp
    have hcommand := State.command_clearedChannel hch (by simpa using State.kind_isVessel hvessel)
    refine ⟨_, hexec, by rw [hch]; rfl, by rw [hch]; rfl, by rw [hch]; rfl, by rw [hch]; rfl, by rw [hch]; rfl, ?_, rfl,
      hcommand, State.outputs_of_command hcommand, State.eq_of_fields (by simp), fun d hd => by simp [hd]⟩
    rw [hch]
    exact s.clearTransfer_ch_self c
  case clearTurner =>
    show execClearHalt c.val s = _
    rw [execClearHalt, State.channelRequest, State.request_of_not_busy hfree]
    simp only [chOf_val, hturner, State.clearTurner, hfaulted]
    rfl
  case reset =>
    have hexec : exec (.channelReset c.val) s = .next (((s.dropAll c).modCh c resetChannel).ok 6#8) := by
      show execChannelReset c.val s = _
      rw [execChannelReset, State.vesselRequest_of_vessel hfree hvessel]
      simp [State.channelResetAt, hpiece, haccepted, hawaiting]
    refine ⟨_, hexec, ?_, ?_, ?_, ?_, ?_, ?_, ?_, (s.dropAll_noClaims c).of_own rfl, State.eq_of_fields (by simp),
      fun d hd => by simp [hd], (s.dropAll_otherClaims c).trans (.of_own rfl c)⟩
    all_goals simp [resetChannel, idleChannel]

end Sys2Proof.Machine

/-! ## Proofs: the piece and the Gauge Book at request (chapter 8) -/

namespace Sys2Proof.Machine

/-! ### The discard (R147) -/

@[simp] theorem State.dropCaptures_book (s : State) (c : Fin 6) : (s.dropCaptures c).book = { s.book with
    waiting := s.book.waiting.filter fun d => d != c
    pend := s.book.pend.map fun p => if p.item.channel = some c.val then { p with capture := false } else p } := rfl

@[simp] theorem State.countDiscarded_book (s : State) :
    s.countDiscarded.book = { s.book with discarded := raise 65535 s.book.discarded } := rfl

/-- The unit of a channel whose piece is discarded: an offer that stands, accepted or not, ends (R140, R147). -/
def State.offerDropped (s : State) (c : Fin 6) : State :=
  match (s.ch c).xfer.state with
  | .offering => s.endOffer c
  | .suspended => s.endOffer c
  | .none => s
  | .accepted => if (s.ch c).xfer.driveStarted then s else s.endOffer c
  | .ended => s
  | .awaiting => s

theorem State.offerDropped_frame (s : State) (c : Fin 6) :
    (s.offerDropped c).own = s.own ∧ (s.offerDropped c).book = s.book ∧ (s.offerDropped c).line = s.line
      ∧ (s.offerDropped c).panel = s.panel ∧ ((s.offerDropped c).ch c).piece = (s.ch c).piece := by
  unfold State.offerDropped
  split
  case h_4 => split <;> simp [offerEnded]
  all_goals simp [offerEnded]

/-- The state in which the piece is out of its channel, before what its claims and its offer leave. -/
def State.pieceOut (s : State) (c : Fin 6) : State :=
  (s.modCh c fun h => { h with piece := none, discardPending := false }).countDiscarded

@[simp] theorem State.pieceOut_piece (s : State) (c : Fin 6) : ((s.pieceOut c).ch c).piece = none := by
  simp [State.pieceOut]

@[simp] theorem State.pieceOut_discarded (s : State) (c : Fin 6) :
    (s.pieceOut c).book.discarded = raise 65535 s.book.discarded := rfl

theorem State.discardPiece_of_piece {s : State} {c : Fin 6} {p : Piece} (hpiece : (s.ch c).piece = some p) :
    s.discardPiece c = (((((s.pieceOut c).dropAll c).offerDropped c).dropCaptures c).modCh c fun h =>
      { idleChannel h with lastEnd := none }).event .pieceOut (some c) (some p.id) [4, 0, 0, 0] := by
  simp only [State.discardPiece, hpiece]
  rfl

theorem State.discardPiece_spec {s : State} {c : Fin 6} {p : Piece} (hpiece : (s.ch c).piece = some p) :
    ((s.discardPiece c).ch c).piece = none ∧ ((s.discardPiece c).ch c).state = .idle
      ∧ (s.discardPiece c).NoClaims c ∧ (s.discardPiece c).book.discarded = raise 65535 s.book.discarded
      ∧ s.OtherClaimsKept (s.discardPiece c) c := by
  obtain ⟨hown, hbook, _, _, hkept⟩ := ((s.pieceOut c).dropAll c).offerDropped_frame c
  rw [State.discardPiece_of_piece hpiece]
  refine ⟨?_, by simp [idleChannel], ((s.pieceOut c).dropAll_noClaims c).of_own ?_, ?_,
    ((s.pieceOut c).dropAll_otherClaims c).trans (.of_own ?_ c)⟩
  · simp [idleChannel, hkept]
  · simpa using hown
  · simp [hbook]
  · simpa using hown

theorem exec_discard {s : State} {c : Fin 6} (hfree : s.busy = false) (hvessel : isVessel (s.kindOf c) = true)
    (low : Bool) : exec (.discard c.val low) s = .next (State.discardAt c (s.sampleElock low)) := by
  show execDiscard c.val low s = _
  exact State.vesselRequest_of_vessel hfree hvessel _ _

/-- Settles O45, by the discard at once or by an entry, and by the entry of a hand gauge. -/
theorem discardAndHandGauge : Obligations.DiscardAndHandGauge := by
  refine ⟨fun s c low p hfree hvessel hpiece htaken => ⟨fun hgauged => ?atOnce, fun hgauged => ?pending⟩,
    fun s c k g low p hfree hvessel hfits hpiece htaken => ?hand⟩
  case atOnce =>
    have hexec : exec (.discard c.val low) s = .next (((s.sampleElock low).discardPiece c).ok 8#8) := by
      have hpiece' : ((s.sampleElock low).ch c).piece = some p := hpiece
      have htaken' : (s.sampleElock low).discardRefusal c p = none := htaken
      rw [exec_discard hfree hvessel]
      simp only [State.discardAt, hpiece', htaken', hgauged]
      rfl
    obtain ⟨hout, hidle, hclaims, hbook, hothers⟩ := State.discardPiece_spec (s := s.sampleElock low) (c := c) hpiece
    exact ⟨_, hexec, hout, hidle, hclaims, rfl, hbook, fun d hd => by simp [hd], hothers⟩
  case pending =>
    have hexec : exec (.discard c.val low) s = .next ((((s.sampleElock low).placeEntry (discardEntry c p)).modCh c fun h =>
        { h with discardPending := true }).taken 8#8) := by
      have hpiece' : ((s.sampleElock low).ch c).piece = some p := hpiece
      have htaken' : (s.sampleElock low).discardRefusal c p = none := htaken
      rw [exec_discard hfree hvessel]
      simp only [State.discardAt, hpiece', htaken', hgauged]
      rfl
    exact ⟨_, hexec, by simp, rfl, rfl, fun d hd => by simp [hd]⟩
  case hand =>
    have hpiece' : ((s.sampleElock low).ch c).piece = some p := hpiece
    have htaken' : (s.sampleElock low).handRefusal c k p = none := htaken
    show execHandGauge c.val k g low s = _
    rw [execHandGauge, State.vesselRequest_of_vessel hfree hvessel, if_pos hfits]
    simp only [State.handGaugeAt, hpiece', htaken']
    cases k <;> rfl

/-! ### TAKE_BOOK (R157) -/

/-- Offers that are taken from the wait list go to the pending list: the book's entries and numbers stand (R159). -/
theorem serveList_book (l : List (Fin 6)) (s : State) : (serveList l s).book.entries = s.book.entries
    ∧ (serveList l s).book.missed = s.book.missed ∧ (serveList l s).book.count = s.book.count := by
  induction l generalizing s with
  | nil => exact ⟨rfl, rfl, rfl⟩
  | cons c r ih =>
    unfold serveList
    split
    · simpa [State.takeCaptures] using ih ((s.takeCaptures (s.ch c).captures).modCh c fun h =>
        { h with captures := [], wait := { h.wait with gauge := false } })
    · exact ⟨rfl, rfl, rfl⟩

/-- The GAPs of a missed span, oldest number first (R157). -/
def gapsOf (round : Word16) (station : Nat) (m : Missed) (n : Nat) : List Entry :=
  (List.range n).map fun k =>
    ⟨m.start + BitVec.ofNat 24 (65535 * k), min (m.count - 65535 * k) 65535, gapItem, round, station⟩

/-- What `n` GAPs leave of a missed span. -/
def missedAfter (m : Missed) (n : Nat) : Option Missed :=
  if m.count ≤ 65535 * n then none
  else some ⟨m.start + BitVec.ofNat 24 (65535 * n), m.count - 65535 * n⟩

theorem gapsOf_succ (round : Word16) (station : Nat) (m : Missed) (n : Nat) : gapsOf round station m (n + 1) =
    ⟨m.start, min m.count 65535, gapItem, round, station⟩
      :: gapsOf round station ⟨m.start + BitVec.ofNat 24 65535, m.count - 65535⟩ n := by
  have hshift (k : Nat) : m.start + BitVec.ofNat 24 (65535 * (k + 1))
      = m.start + BitVec.ofNat 24 65535 + BitVec.ofNat 24 (65535 * k) := by
    rw [BitVec.add_assoc, ← BitVec.ofNat_add, Nat.mul_succ, Nat.add_comm]
  have hless (k : Nat) : m.count - 65535 * (k + 1) = m.count - 65535 - 65535 * k := by omega
  simp only [gapsOf, List.range_succ_eq_map, List.map_cons, List.map_map, Function.comp_def, hshift, hless]
  simp

theorem missedAfter_succ {m : Missed} (hmore : 65535 < m.count) (n : Nat) :
    missedAfter m (n + 1) = missedAfter ⟨m.start + BitVec.ofNat 24 65535, m.count - 65535⟩ n := by
  have hshift : m.start + BitVec.ofNat 24 (65535 * (n + 1))
      = m.start + BitVec.ofNat 24 65535 + BitVec.ofNat 24 (65535 * n) := by
    rw [BitVec.add_assoc, ← BitVec.ofNat_add, Nat.mul_succ, Nat.add_comm]
  have hless : m.count - 65535 * (n + 1) = m.count - 65535 - 65535 * n := by omega
  have hwhen : m.count ≤ 65535 * (n + 1) ↔ m.count - 65535 ≤ 65535 * n := by omega
  simp only [missedAfter, hshift, hless, hwhen]

/-- The filling places as many GAPs as there are places, or as the span needs where that is fewer. -/
theorem fillGaps_spec (round : Word16) (station fuel : Nat) {b : Book} {m : Missed} {n : Nat}
    (hmissed : b.missed = some m) (hcount : 1 ≤ m.count)
    (hn : n = min (min fuel (128 - b.entries.length)) ((m.count + 65534) / 65535)) :
    fillGaps round station fuel b = { b with
      entries := b.entries ++ gapsOf round station m n, missed := missedAfter m n } := by
  have hnone : missedAfter m 0 = b.missed := by
    rw [missedAfter, if_neg (by omega), hmissed]
    simp
  induction fuel generalizing b m n with
  | zero =>
    have hzero : n = 0 := by omega
    rw [hzero, hnone]
    simp [fillGaps, gapsOf]
  | succ fuel ih =>
    by_cases hroom : b.entries.length < 128
    · rw [fillGaps_room hmissed hroom]
      by_cases hlast : m.count ≤ 65535
      · have hone : n = 1 := by omega
        rw [fillGaps_still (.inl (by rw [if_pos hlast])), hone]
        simp [gapsOf, missedAfter, hlast]
      · obtain ⟨k, rfl⟩ : ∃ k, n = k + 1 := ⟨n - 1, by omega⟩
        rw [if_neg hlast, ih (m := ⟨m.start + BitVec.ofNat 24 65535, m.count - 65535⟩) (n := k) rfl (by simp; omega)
          (by simp; omega) (by rw [missedAfter, if_neg (by simp; omega)]; simp), gapsOf_succ, missedAfter_succ (by omega)]
        simp
    · have hzero : n = 0 := by omega
      rw [fillGaps_still (.inr (by omega)), hzero, hnone]
      simp [gapsOf]

theorem fillGaps_count (round : Word16) (station n : Nat) (b : Book) : (fillGaps round station n b).count = b.count := by
  induction n generalizing b with
  | zero => rfl
  | succ n ih =>
    unfold fillGaps
    split
    · rfl
    · split
      · exact ih _
      · rfl

/-- The entries that TAKE_BOOK keeps (R157). -/
def Book.keptBy (b : Book) (q : Seq) : List Entry :=
  match b.entries with
  | [] => []
  | e :: _ =>
    if 8388608 ≤ (q - e.sequence).toNat then b.entries
    else b.entries.filter fun x => !decide ((x.sequence - e.sequence).toNat ≤ (q - e.sequence).toNat)

theorem Book.keptBy_of_empty {b : Book} (hempty : b.entries = []) (q : Seq) : b.keptBy q = b.entries := by
  rw [Book.keptBy, hempty]

theorem Book.keptBy_of_cons {b : Book} {e : Entry} {r : List Entry} (hentries : b.entries = e :: r) (q : Seq) :
    b.keptBy q = if 8388608 ≤ (q - e.sequence).toNat then b.entries
      else b.entries.filter fun x => !removed q e.sequence x := by
  rw [Book.keptBy, hentries]
  rfl

theorem Book.remove_fields (b : Book) (q : Seq) : (b.remove q).missed = b.missed ∧ (b.remove q).count = b.count
    ∧ (b.remove q).entries = b.keptBy q := by
  unfold Book.remove
  split
  · next hempty => exact ⟨rfl, rfl, (Book.keptBy_of_empty hempty q).symm⟩
  · next e r hentries =>
    rw [Book.keptBy_of_cons hentries]
    split
    · exact ⟨rfl, rfl, rfl⟩
    · exact ⟨rfl, rfl, rfl⟩

theorem exec_takeBook {s : State} (hfree : s.busy = false) (q : Seq) :
    exec (.takeBook q) s = .next ((s.takeBook q).okData 10#8 (s.takeBookData q)) := by
  show execTakeBook q s = _
  exact State.request_of_not_busy hfree _

theorem State.takeBook_book (s : State) (q : Seq) : (s.takeBook q).book.entries = (s.takenBook q).entries
    ∧ (s.takeBook q).book.missed = (s.takenBook q).missed ∧ (s.takeBook q).book.count = (s.takenBook q).count :=
  serveList_book _ { s with book := s.takenBook q, panel := _ }

@[simp] theorem State.takenBook_count (s : State) (q : Seq) : (s.takenBook q).count = s.book.count :=
  (fillGaps_count _ _ _ _).trans (s.book.remove_fields q).2.1

theorem State.takenBook_of_none {s : State} (hnone : s.book.missed = none) (q : Seq) :
    s.takenBook q = s.book.remove q :=
  fillGaps_still (.inl ((s.book.remove_fields q).1.trans hnone)) _ _ _

/-- With a missed span, the freed places are filled as far as the span goes. -/
theorem State.takenBook_of_some {s : State} {q : Seq} {m : Missed} {n : Nat} (hsome : s.book.missed = some m)
    (hcount : 1 ≤ m.count) (hn : n = min (128 - (s.book.keptBy q).length) ((m.count + 65534) / 65535)) :
    (s.takenBook q).entries = s.book.keptBy q ++ gapsOf s.line.round s.cfg.address m n
      ∧ (s.takenBook q).missed = missedAfter m n := by
  obtain ⟨hmissed, _, hkept⟩ := s.book.remove_fields q
  have hfilled : s.takenBook q = _ := fillGaps_spec s.line.round s.cfg.address 128 (hmissed.trans hsome) hcount
    (n := n) (by rw [hkept]; omega)
  rw [hfilled, hkept]
  exact ⟨rfl, rfl⟩

/-- Settles O47, by the removal, the filling of the freed places and the wait list served after it. -/
theorem takeBookRemoves : Obligations.TakeBookRemoves := by
  intro s q hfree
  show ∃ t, exec (.takeBook q) s = .next t ∧ t.book.count = s.book.count
      ∧ t.panel.reply = ⟨10#8, .ok, toBytes ([s.book.entries.length - (s.book.keptBy q).length, t.book.entries.length]
          ++ bytes3 s.book.count.toNat)⟩
      ∧ (s.book.missed = none → t.book.entries = s.book.keptBy q ∧ t.book.missed = none)
      ∧ (∀ m, s.book.missed = some m → 1 ≤ m.count →
          let n := min (128 - (s.book.keptBy q).length) ((m.count + 65534) / 65535)
          t.book.entries = s.book.keptBy q ++ gapsOf s.line.round s.cfg.address m n
          ∧ t.book.missed = missedAfter m n
          ∧ (t.book.missed = none ∨ 128 ≤ t.book.entries.length))
      ∧ t.panel.bookFull = (s.panel.bookFull || ((s.book.keptBy q).length < 128 && t.book.entries.length == 128))
      ∧ t.claims = s.claims ∧ t.own = s.own ∧ t.panel.events = s.panel.events
  obtain ⟨hmissed, _, hkept⟩ := s.book.remove_fields q
  obtain ⟨hentries, hspan, htotal⟩ := s.takeBook_book q
  refine ⟨_, exec_takeBook hfree q, htotal.trans (s.takenBook_count q), ?reply, fun hnone => ?none,
    fun m hsome hcount => ?gaps, ?full, by simp [State.takeBook], by simp [State.takeBook], by simp [State.takeBook]⟩
  case reply =>
    show (⟨10#8, .ok, toBytes (s.takeBookData q)⟩ : Reply) = ⟨10#8, .ok, toBytes ([s.book.entries.length
      - (s.book.keptBy q).length, (s.takeBook q).book.entries.length] ++ bytes3 s.book.count.toNat)⟩
    rw [State.takeBookData, hkept, hentries, State.takenBook_count]
  case none =>
    show (s.takeBook q).book.entries = _ ∧ (s.takeBook q).book.missed = none
    rw [hentries, hspan, State.takenBook_of_none hnone]
    exact ⟨hkept, hmissed.trans hnone⟩
  case gaps =>
    obtain ⟨hgaps, hrest⟩ := State.takenBook_of_some hsome hcount rfl
    intro n
    refine ⟨hentries.trans hgaps, hspan.trans hrest, ?_⟩
    show (s.takeBook q).book.missed = none ∨ 128 ≤ (s.takeBook q).book.entries.length
    rw [hentries, hspan, hgaps, hrest, List.length_append, gapsOf, List.length_map, List.length_range, missedAfter]
    by_cases hall : m.count ≤ 65535 * n
    · exact .inl (if_pos hall)
    · exact .inr (by omega)
  case full =>
    show (s.takeBook q).panel.bookFull = (s.panel.bookFull || ((s.book.keptBy q).length < 128
      && (s.takeBook q).book.entries.length == 128))
    rw [hentries, ← hkept]
    have hflag : (s.takeBook q).panel.bookFull = (s.panel.bookFull || s.filledAgain q) := by simp [State.takeBook]
    exact hflag

end Sys2Proof.Machine

/-! ## Proofs: the judgments of an arrival that stand as commands (R96, R125, R126, R169 to R171) -/

namespace Sys2Proof.Machine

/-! ### The halting judgment (R171) -/

theorem haltsOn_live {h : Channel} {i : Input} (hhalts : haltsOn h i = true) :
    h.state = .running ∨ h.state = .paused ∨ h.state = .starved := by
  unfold haltsOn at hhalts
  split at hhalts
  all_goals simp only [Bool.and_eq_true, Bool.or_eq_true, beq_iff_eq, Bool.false_eq_true] at hhalts
  all_goals tauto

theorem haltable_of_haltsOn {h : Channel} {i : Input} (hhalts : haltsOn h i = true) : h.state.haltable = true := by
  rcases haltsOn_live hhalts with hstate | hstate | hstate
  all_goals rw [hstate]; rfl

/-- A fault of the input halts the channel. -/
def Channel.haltedBy (h : Channel) (i : Input) : Bool := (h.input i).faulted && haltsOn h i

theorem State.judgeInput_of_fault {s : State} {c : Fin 6} {i : Input} (hfault : (s.ch c).haltedBy i = true) :
    s.judgeInput c i = s.halt c (.sensor i) := if_pos hfault

theorem State.judgeInput_of_sound {s : State} {c : Fin 6} {i : Input} (hsound : (s.ch c).haltedBy i = false) :
    s.judgeInput c i = s := if_neg (by rw [← Channel.haltedBy, hsound]; simp)

theorem haltedBy_of_halted {h : Channel} (hhalted : h.state = .halted) (i : Input) : h.haltedBy i = false := by
  have hstays : haltsOn h i = false := by
    by_contra hhalts
    rcases haltsOn_live (Bool.not_eq_false _ ▸ hhalts) with hstate | hstate | hstate
    all_goals rw [hhalted] at hstate; cases hstate
  rw [Channel.haltedBy, hstays, Bool.and_false]

theorem State.halt_judged {s : State} {c : Fin 6} {i : Input} (hfault : (s.ch c).haltedBy i = true) (j : Input) :
    (s.halt c (.sensor i)).judgeInput c j = s.halt c (.sensor i) := by
  have hhalts : haltsOn (s.ch c) i = true := by
    rw [Channel.haltedBy, Bool.and_eq_true] at hfault
    exact hfault.2
  have hhalted := State.halt_haltedFrom (haltable_of_haltsOn hhalts) (.sensor i)
  exact State.judgeInput_of_sound (haltedBy_of_halted (by simp only [hhalted]) j)

/-- Of the inputs whose fault halts the channel the first one does; where there is none the channel goes on. -/
theorem State.judgeInputs_cases (s : State) (c : Fin 6) :
    (s.judgeInputs c = s ∧ ∀ i, (s.ch c).haltedBy i = false)
      ∨ ∃ i, (s.ch c).haltedBy i = true ∧ s.judgeInputs c = s.halt c (.sensor i) := by
  have hfold : s.judgeInputs c = ((s.judgeInput c .ma).judgeInput c .mb).judgeInput c .mc := rfl
  rw [hfold]
  by_cases hma : (s.ch c).haltedBy .ma = true
  · refine .inr ⟨.ma, hma, ?_⟩
    rw [State.judgeInput_of_fault hma, State.halt_judged hma, State.halt_judged hma]
  rw [Bool.not_eq_true] at hma
  rw [State.judgeInput_of_sound hma]
  by_cases hmb : (s.ch c).haltedBy .mb = true
  · refine .inr ⟨.mb, hmb, ?_⟩
    rw [State.judgeInput_of_fault hmb, State.halt_judged hmb]
  rw [Bool.not_eq_true] at hmb
  rw [State.judgeInput_of_sound hmb]
  by_cases hmc : (s.ch c).haltedBy .mc = true
  · exact .inr ⟨.mc, hmc, State.judgeInput_of_fault hmc⟩
  rw [Bool.not_eq_true] at hmc
  exact .inl ⟨State.judgeInput_of_sound hmc, fun i => by cases i <;> assumption⟩

theorem State.judgeInputs_of_fault {s : State} {c : Fin 6} {i : Input} (hfault : (s.ch c).haltedBy i = true) :
    ((s.judgeInputs c).ch c).state = .halted ∧ (s.judgeInputs c).NoClaims c := by
  rcases s.judgeInputs_cases c with ⟨_, hsound⟩ | ⟨j, hj, heq⟩
  · rw [hsound i] at hfault
    cases hfault
  · rw [heq]
    have hhalts : haltsOn (s.ch c) j = true := by
      rw [Channel.haltedBy, Bool.and_eq_true] at hj
      exact hj.2
    have hhalted := State.halt_haltedFrom (haltable_of_haltsOn hhalts) (.sensor j)
    exact ⟨by simp only [hhalted], State.halt_noClaims (haltable_of_haltsOn hhalts) _⟩

theorem State.judgeInputs_otherClaims (s : State) (c : Fin 6) : s.OtherClaimsKept (s.judgeInputs c) c := by
  rcases s.judgeInputs_cases c with ⟨heq, _⟩ | ⟨i, _, heq⟩
  · rw [heq]
    exact .of_own rfl c
  · rw [heq]
    exact s.halt_otherClaims c _

@[simp] theorem State.judgeInputs_input (s : State) (c d : Fin 6) (i : Input) :
    ((s.judgeInputs c).ch d).input i = (s.ch d).input i := by
  cases i <;> simp [Channel.input]

theorem setInput_input (h : Channel) (i : Input) (x : InputState) : (setInput h i x).input i = x := by
  cases i <;> rfl

theorem haltsOn_setInput (h : Channel) (i j : Input) (x : InputState) : haltsOn (setInput h i x) j = haltsOn h j := by
  cases i <;> rfl

/-- The state in which the input's third out-of-range arrival has come (R169, R170). -/
def State.inputFaulted (s : State) (c : Fin 6) (i : Input) : State :=
  (s.modCh c fun h => setInput h i (faultedInput (h.input i))).sensorEvent c i 1

@[simp] theorem State.inputFaulted_ch_self (s : State) (c : Fin 6) (i : Input) :
    (s.inputFaulted c i).ch c = setInput (s.ch c) i (faultedInput ((s.ch c).input i)) := by
  simp [State.inputFaulted]

theorem State.inputFaulted_haltedBy {s : State} {c : Fin 6} {i : Input} (hhalts : haltsOn (s.ch c) i = true) :
    ((s.inputFaulted c i).ch c).haltedBy i = true := by
  rw [State.inputFaulted_ch_self, Channel.haltedBy, setInput_input, haltsOn_setInput, hhalts]
  rfl

/-- Settles O28, by the fault that the front end marks and the halting judgment after it. -/
theorem sensorFaultHolds : Obligations.SensorFaultHolds := by
  intro s c i hdue
  have hexec : exec (.sensorFault c i) s = .next ((s.inputFaulted c i).judgeInputs c) := by
    show execSensorFault c i s = _
    rw [execSensorFault, if_pos hdue]
    rfl
  have hinput : (((s.inputFaulted c i).judgeInputs c).ch c).input i = faultedInput ((s.ch c).input i) := by
    rw [State.judgeInputs_input, State.inputFaulted_ch_self, setInput_input]
  refine ⟨_, hexec, by rw [hinput]; rfl, by rw [hinput]; rfl, by rw [hinput]; rfl, fun hhalts => ?halts,
    State.eq_of_fields (by simp [State.inputFaulted]), fun d hd => by simp [hd, State.inputFaulted]⟩
  obtain ⟨hhalted, hclaims⟩ := State.judgeInputs_of_fault (State.inputFaulted_haltedBy hhalts)
  exact ⟨hhalted, hclaims, State.outputs_of_halted hhalted⟩

/-! ### Captures (R84, R85, R94, R125, R126, R149, R159) -/

theorem State.offerCaptures_taken {s : State} {items : List EntryItem} (hempty : s.book.waiting = [])
    (htake : s.canTake items.length = true) (c : Fin 6) : s.offerCaptures c items = s.takeCaptures items :=
  if_pos (by rw [hempty, htake]; rfl)

theorem State.offerCaptures_held {s : State} {items : List EntryItem}
    (hwaits : ¬ (s.book.waiting = [] ∧ s.canTake items.length = true)) (c : Fin 6) : s.offerCaptures c items =
      ({ s with book := { s.book with waiting := joinList s.book.waiting c } } : State).modCh c fun h =>
        { h with captures := items, wait := { h.wait with gauge := true } } :=
  if_neg (by rwa [Bool.and_eq_true, List.isEmpty_iff])

theorem State.offerCaptures_step (s : State) (c d : Fin 6) (items : List EntryItem) :
    ((s.offerCaptures c items).ch d).step = (s.ch d).step := by
  unfold State.offerCaptures
  split
  · rfl
  · rw [State.ch_modCh]
    split
    · next hd => rw [hd]; rfl
    · rfl

theorem State.offerCaptures_sample (s : State) (c : Fin 6) (items : List EntryItem) :
    (s.offerCaptures c items).book.sample = s.book.sample := by
  unfold State.offerCaptures
  split <;> rfl

theorem joinList_of_new {l : List (Fin 6)} {c : Fin 6} (hnew : l.contains c = false) : joinList l c = l ++ [c] := by
  rw [joinList, hnew, if_neg Bool.false_ne_true]

theorem gaugeOf_spec (level scale : Nat) (offset : Int) :
    (0 ≤ (level : Int) * scale + 100 * offset →
      (level : Int) * scale + 100 * offset - 50 < 100 * (gaugeOf level scale offset : Int)
        ∧ 100 * (gaugeOf level scale offset : Int) ≤ (level : Int) * scale + 100 * offset + 50)
      ∧ ((level : Int) * scale + 100 * offset < 0 → gaugeOf level scale offset = 0) := by
  unfold gaugeOf roundUp
  generalize (level : Int) * scale + 100 * offset = x
  exact ⟨fun h => by omega, fun h => by omega⟩

/-- What the offer of captures leaves: they are pending, or the channel waits with them. -/
theorem State.offerCaptures_spec {s : State} {c : Fin 6} (hnew : s.book.waiting.contains c = false)
    (items : List EntryItem) :
    if s.book.waiting = [] ∧ s.canTake items.length = true then
      (s.offerCaptures c items).book = { s.book with pend := s.book.pend ++ items.map fun e => ⟨e, true⟩ }
    else (s.offerCaptures c items).book = { s.book with waiting := s.book.waiting ++ [c] }
      ∧ ((s.offerCaptures c items).ch c).captures = items ∧ ((s.offerCaptures c items).ch c).wait.gauge = true := by
  split
  · next htaken => rw [State.offerCaptures_taken htaken.1 htaken.2]; rfl
  · next hheld =>
    rw [State.offerCaptures_held hheld, joinList_of_new hnew]
    simp

theorem State.judgeLevel_of_tenth {s : State} {c : Fin 6} {level : Int} (hcount : (s.ch c).steady.count = 9)
    (hwithin : (level - (s.ch c).steady.first).natAbs ≤ 5) : s.judgeLevel c (some level) =
      s.captureLevel c { (s.ch c).steady with count := 10, sum := (s.ch c).steady.sum + level } := by
  unfold State.judgeLevel
  rw [steadyNext_within (by omega) hwithin, hcount]
  rfl

theorem exec_levelSteady {s : State} {c : Fin 6} {level : Nat} (hnearly : s.nearlySteady c level = true) :
    exec (.levelSteady c level) s = .next (s.judgeLevel c (some level)) := by
  show execLevelSteady c level s = _
  rw [execLevelSteady, if_pos hnearly]

theorem exec_moistureMade {s : State} {c : Fin 6} {reading : Nat} (hnearly : s.nearlyRead c = true) :
    exec (.moistureMade c reading) s = .next (s.addReading c reading) := by
  show execMoistureMade c reading s = _
  rw [execMoistureMade, if_pos hnearly]

/-- The state in which the SAMPLE's set is full: the station's next sample number, and the step CAPTURED (R126). -/
def State.sampled (s : State) (c : Fin 6) (values : List Int) : State :=
  ({ s with book := { s.book with sample := nextSample s.book.sample } } : State).modCh c fun h =>
    { h with step := some .captured, readings := values }

theorem State.addReading_of_tenth {s : State} {c : Fin 6} {p : Piece} (hcount : (s.ch c).readings.length = 9)
    (hpiece : (s.ch c).piece = some p) (v : Int) : s.addReading c v =
      (s.sampled c ((s.ch c).readings ++ [v])).offerCaptures c (sampleCaptures c p (nextSample s.book.sample)
        (meanOfTen (((s.ch c).readings ++ [v]).foldl (· + ·) 0)).toNat) := by
  have hten : 10 ≤ ((s.ch c).readings ++ [v]).length := by simp [hcount]
  unfold State.addReading
  dsimp only
  rw [if_pos hten, State.makeMoisture, hpiece]
  rfl

/-- Settles O29, by the offer that the tenth value makes. -/
theorem tenthValuesCapture : Obligations.TenthValuesCapture := by
  refine ⟨fun s c level hnearly => ?level, fun s c reading p hnearly hpiece => ?moisture, gaugeOf_spec⟩
  case level =>
    have hexec := exec_levelSteady hnearly
    simp only [State.nearlySteady, Bool.and_eq_true, beq_iff_eq, decide_eq_true_eq, Bool.not_eq_true'] at hnearly
    obtain ⟨⟨⟨⟨_, _⟩, hcount⟩, hwithin⟩, hnew⟩ := hnearly
    refine ⟨_, hexec, ?_, ?_, State.eq_of_fields (by simp), fun d hd => by simp [hd]⟩
    · rw [State.judgeLevel_of_tenth hcount hwithin, State.captureLevel, State.offerCaptures_step, State.ch_modCh_self]
    · rw [State.judgeLevel_of_tenth hcount hwithin]
      exact State.offerCaptures_spec (s := s.modCh c fun h => { h with step := some .captured, steady := _ }) hnew
        [gaugeCapture s.cfg c (s.ch c) ((s.ch c).steady.sum + level)]
  case moisture =>
    have hexec := exec_moistureMade (reading := reading) hnearly
    simp only [State.nearlyRead, Bool.and_eq_true, beq_iff_eq, Bool.not_eq_true'] at hnearly
    obtain ⟨⟨⟨_, _⟩, hcount⟩, hnew⟩ := hnearly
    refine ⟨_, hexec, ?_, ?_, ?_, State.eq_of_fields (by simp), fun d hd => by simp [hd]⟩
    · rw [State.addReading_of_tenth hcount hpiece, State.offerCaptures_step, State.sampled, State.ch_modCh_self]
    · rw [State.addReading_of_tenth hcount hpiece, State.offerCaptures_sample]
      rfl
    · have hoffer := State.offerCaptures_spec (s := s.sampled c ((s.ch c).readings ++ [(reading : Int)])) hnew
        (sampleCaptures c p (nextSample s.book.sample)
          (meanOfTen (((s.ch c).readings ++ [(reading : Int)]).foldl (· + ·) 0)).toNat)
      rw [State.addReading_of_tenth hcount hpiece]
      intro n m l
      change if s.book.waiting = [] ∧ s.canTake l.length = true then _ else _ at hoffer
      split
      · next htaken =>
        rw [if_pos htaken] at hoffer
        rw [hoffer]
        rfl
      · next hheld =>
        rw [if_neg hheld] at hoffer
        obtain ⟨hbook, hcaptures, hwait⟩ := hoffer
        exact ⟨by rw [hbook]; rfl, hcaptures, hwait⟩

/-! ### The top-up of a power-limited box (R96) -/

/-- Where a list has no claim of a sort, the claim of that sort that is put into it is found. -/
theorem find_insertOwn {q : OwnClaim → Bool} {o : OwnClaim} {l : List OwnClaim} (hself : q o = true)
    (hfree : l.find? q = none) : (insertOwn o l).find? q = some o := by
  induction l with
  | nil => rw [insertOwn, List.find?_cons_of_pos hself]
  | cons a r ih =>
    have ha : ¬ q a = true := List.find?_eq_none.mp hfree a List.mem_cons_self
    unfold insertOwn
    split
    · rw [List.find?_cons_of_pos hself]
    · split
      · rw [List.find?_cons_of_pos hself]
      · rw [List.find?_cons_of_neg ha] at hfree ⊢
        exact ih hfree

theorem State.askAt_ownAt {s : State} {c : Fin 6} {n : Nat} (hfree : s.freeSlot c = some n) (a : Ask) :
    (s.askAt c n a).ownAt c n = some (askedClaim c n a) := by
  have hslot : s.slotFree c n = true := List.find?_some hfree
  exact find_insertOwn (by simp [askedClaim]) (Option.isNone_iff_eq_none.mp hslot)

theorem State.fanTopUp_fields {s : State} {c : Fin 6} {a : Ask} (htop : s.fanTopUp c = some a) :
    a.resource = .power ∧ a.amount = fanDraw (s.ch c).fanCommand (s.cfg.ratings.get c) - s.heldAmount c .power
      ∧ a.base.isSome = true := by
  obtain ⟨b, _, hb⟩ := Option.map_eq_some_iff.mp htop
  rw [← hb]
  exact ⟨rfl, rfl, rfl⟩

theorem State.askTopUp_of_free {s : State} {c : Fin 6} {n : Nat} {a : Ask} (hfree : s.freeSlot c = some n)
    (htop : s.fanTopUp c = some a) :
    s.askTopUp c = (s.askAt c n a).modCh c fun h => { h with limited := 0 } := by
  simp only [State.askTopUp, hfree, htop]

theorem State.askTopUp_of_full {s : State} {c : Fin 6} (hfull : s.freeSlot c = none) :
    s.askTopUp c = s.modCh c fun h => { h with limited := 5 } := by
  simp only [State.askTopUp, hfull]

theorem State.askTopUp_otherClaims (s : State) (c : Fin 6) : s.OtherClaimsKept (s.askTopUp c) c := by
  unfold State.askTopUp
  split
  · exact s.askAt_otherClaims c _ _
  · exact .of_own rfl c

/-- Settles O32, by the slot the top-up takes. -/
theorem powerLimitedAsksTopUp : Obligations.PowerLimitedAsksTopUp := by
  intro s c hnearly
  have hexec : exec (.powerLimitedTopUp c) s = .next (s.askTopUp c) := by
    show execPowerLimitedTopUp c s = _
    rw [execPowerLimitedTopUp, if_pos hnearly]
  refine ⟨_, hexec, fun n a hfree htop => ?free, fun hfull => ?full, State.eq_of_fields (by simp),
    fun d hd => by simp [hd], s.askTopUp_otherClaims c⟩
  case free =>
    rw [State.askTopUp_of_free hfree htop]
    exact ⟨by simp, s.askAt_ownAt hfree a, State.fanTopUp_fields htop⟩
  case full =>
    rw [State.askTopUp_of_full hfull]
    exact ⟨by simp, rfl⟩

end Sys2Proof.Machine

/-! ## Proofs: the Peer Table and the line states (chapter 1)

Entries of the Peer Table after a change, and what the entries into the line states and the departure leave. -/

namespace Sys2Proof.Machine

/-! ### The Peer Table -/

theorem getD_modifyAt {α : Type} (f : α → α) (n m : Nat) (l : List α) (d : α) : (modifyAt f n l).getD m d =
    if m = n ∧ m < l.length then f (l.getD m d) else l.getD m d := by
  induction l generalizing n m with
  | nil => cases n <;> simp [modifyAt]
  | cons a r ih =>
    cases n with
    | zero => cases m <;> simp [modifyAt]
    | succ n =>
      cases m with
      | zero => simp [modifyAt]
      | succ m => simpa [modifyAt] using ih n m

@[simp] theorem length_modifyAt {α : Type} (f : α → α) (n : Nat) (l : List α) :
    (modifyAt f n l).length = l.length := by
  induction l generalizing n with
  | nil => cases n <;> rfl
  | cons a r ih => cases n <;> simp [modifyAt, ih]

theorem State.peer_of_peers {s t : State} (h : t.peers = s.peers) (a : Nat) : t.peer a = s.peer a := by
  rw [State.peer, h, ← State.peer]

theorem State.peer_modPeer (s : State) (a b : Nat) (f : Peer → Peer) : (s.modPeer a f).peer b =
    if b - 1 = a - 1 ∧ b - 1 < s.peers.length then f (s.peer b) else s.peer b :=
  getD_modifyAt f (a - 1) (b - 1) s.peers {}

theorem State.peer_modPeer_self {s : State} {a : Nat} (hlow : 1 ≤ a) (hhigh : a ≤ s.peers.length) (f : Peer → Peer) :
    (s.modPeer a f).peer a = f (s.peer a) := by
  rw [State.peer_modPeer, if_pos ⟨rfl, by omega⟩]

theorem State.peer_modPeer_other {s : State} {a b : Nat} (hne : b ≠ a) (ha : 1 ≤ a) (hb : 1 ≤ b) (f : Peer → Peer) :
    (s.modPeer a f).peer b = s.peer b := by
  rw [State.peer_modPeer, if_neg (by omega)]

theorem one_le_of_mem_addresses {a : Nat} (ha : a ∈ addresses) : 1 ≤ a := by
  simp only [addresses, List.mem_cons, List.not_mem_nil, or_false] at ha
  omega

theorem State.mem_present {s : State} {a : Nat} : a ∈ s.present ↔ a ∈ addresses ∧ (s.peer a).present = true := by
  simp [State.present]

theorem State.othersPresent_iff {s : State} : s.othersPresent = true
    ↔ ∃ a ∈ addresses, (s.peer a).present = true ∧ a ≠ s.cfg.address := by
  simp [State.othersPresent, State.mem_present, and_assoc]

/-- A change of the own entry leaves whether another station is PRESENT. -/
theorem State.othersPresent_modPeer_own {s : State} (haddress : 1 ≤ s.cfg.address) (f : Peer → Peer) :
    (s.modPeer s.cfg.address f).othersPresent = s.othersPresent := by
  rw [Bool.eq_iff_iff, State.othersPresent_iff, State.othersPresent_iff]
  refine exists_congr fun a => and_congr_right fun ha => ?_
  by_cases hown : a = s.cfg.address
  · simp [hown]
  · rw [State.peer_modPeer_other hown haddress (one_le_of_mem_addresses ha)]
    rfl

/-! ### Entries into line states -/

theorem State.setLine_of_ne {s : State} {l : LineState} (hne : s.line.state ≠ l) : s.setLine l =
    { s with line := { s.line with state := l }, panel := { s.panel with lineState := true } } := if_neg hne

theorem State.enterListening_of_ne {s : State} (hne : s.line.state ≠ .listening) : s.enterListening = { s with
    line := { s.line with
      state := .listening, aborts := 0, rounds := 0, openingHeard := false, coldWait := some 0,
      coldDue := false, muteCount := 0, muteTimer := none }
    panel := { s.panel with lineState := true } } := State.setLine_of_ne hne

theorem State.muteDown_of_last {s : State} (hmute : s.line.state = .mute) (hlast : s.line.muteCount ≤ 1) :
    s.muteDown = s.enterListening := by
  rw [State.muteDown, if_pos hmute, if_pos hlast]

theorem State.muteDown_of_more {s : State} (hmute : s.line.state = .mute) (hmore : 2 ≤ s.line.muteCount) :
    s.muteDown = s.modLine fun l => { l with muteCount := l.muteCount - 1, muteTimer := some 0 } := by
  rw [State.muteDown, if_pos hmute, if_neg (by omega)]

/-- Settles O15, by the entry that each of the three commands makes. -/
theorem entriesIntoListening : Obligations.EntriesIntoListening := by
  refine ⟨fun i s hi => ?entry, fun s hmute hmore => ?down⟩
  case entry =>
    rcases hi with ⟨rfl, hjoining, hquiet⟩ | ⟨rfl | rfl, hmute, hlast⟩
    · rw [← State.enterListening_of_ne (by simp [hjoining])]
      show execJoinColdWaitExpiry s = _
      simp [execJoinColdWaitExpiry, hjoining, hquiet]
    · rw [← State.enterListening_of_ne (by simp [hmute])]
      show execMuteEnd s = _
      simp [execMuteEnd, hmute, hlast]
    · rw [← State.enterListening_of_ne (by simp [hmute]), ← State.muteDown_of_last hmute hlast]
      rfl
  case down =>
    show Host.Outcome.next s.muteDown = _
    rw [State.muteDown_of_more hmute hmore]
    rfl

/-! ### Becoming MEMBER (R4, R7, R8) -/

/-- The isolation timer of a MEMBER without one starts where another station is PRESENT (R22). -/
theorem State.followPeers_starts {s : State} (hmember : s.line.state = .member) (hothers : s.othersPresent = true)
    (hnone : s.line.isolation = none) : s.followPeers.line.isolation = some 0 := by
  simp only [State.followPeers, if_pos hmember, if_pos hothers, hnone]

@[simp] theorem State.followPeers_state (s : State) : s.followPeers.line.state = s.line.state := by
  unfold State.followPeers
  split
  · split
    · split <;> rfl
    · rfl
  · rfl

/-- The state in which a new MEMBER looks at its peers. -/
def State.enteredMember (s : State) : State :=
  ((s.modPeer s.cfg.address fun p => { p with present := true, missed := 0, change := p.change || !p.present }).modLine
    fun l => { l with coldWait := none, coldDue := false, isolation := none, isolated := false }).setLine .member

theorem State.becomeMember_eq (s : State) : s.becomeMember = s.enteredMember.followPeers := rfl

theorem State.becomeMember_state (s : State) : s.becomeMember.line.state = .member := by
  rw [State.becomeMember_eq, State.followPeers_state, State.enteredMember, setLine_line]

theorem State.becomeMember_peer (s : State) (a : Nat) : s.becomeMember.peer a = (s.modPeer s.cfg.address fun p =>
    { p with present := true, missed := 0, change := p.change || !p.present }).peer a :=
  State.peer_of_peers (by simp [State.becomeMember_eq, State.enteredMember]) a

theorem State.becomeMember_isolation {s : State} (hlow : 1 ≤ s.cfg.address) (hothers : s.othersPresent = true) :
    s.becomeMember.line.isolation = some 0 := by
  rw [State.becomeMember_eq]
  refine State.followPeers_starts ?_ ?_ ?_
  · rw [State.enteredMember, setLine_line]
  · rw [← hothers, ← State.othersPresent_modPeer_own hlow fun p =>
      { p with present := true, missed := 0, change := p.change || !p.present }]
    simp [State.othersPresent, State.present, State.peer, State.enteredMember]
  · rw [State.enteredMember, setLine_line]
    rfl

theorem State.mayJoin_window {s : State} (hmay : s.mayJoin = true) : s.position = .inWindow := by
  simp only [State.mayJoin, Bool.and_eq_true, beq_iff_eq] at hmay
  exact hmay.2

/-- Settles O16, by the JOIN's start and by what its read-back makes of the station. -/
theorem joinMakesMember : Obligations.JoinMakesMember := by
  refine ⟨fun s hmay => ?sent, fun s f hsending hlow hhigh => ?readBack⟩
  case sent =>
    have hwindow := State.mayJoin_window hmay
    show execJoinDelayExpiry s = _
    rw [execJoinDelayExpiry, if_pos hmay]
    simp [State.startJoin, State.startFrame, State.modLine, hwindow]
  case readBack =>
    have hexec : exec .ownJoinReadBack s = .next s.joinRead := by
      show execOwnJoinReadBack s = _
      rw [execOwnJoinReadBack, hsending]
    have hpeer : s.joinRead.peer s.cfg.address = { s.peer s.cfg.address with
        present := true, missed := 0, change := (s.peer s.cfg.address).change || !(s.peer s.cfg.address).present } := by
      rw [State.peer_of_peers (t := s.joinRead) (s := s.ownEnd.becomeMember) (by simp [State.joinRead]),
        State.becomeMember_peer]
      exact State.peer_modPeer_self hlow hhigh _
    refine ⟨_, hexec, ?_, ?_, ?_, ?_, by simp, ?_, ?_, fun hothers => ?_, State.eq_of_fields (by simp)⟩
    · simp [State.joinRead, State.becomeMember_state]
    · simp [State.joinRead, State.ownEnd]
    · simp [State.joinRead, State.ownEnd, State.stopSending]
    · simp [State.joinRead]
    · rw [hpeer]
    · rw [hpeer]
    · have hisolation := State.becomeMember_isolation (s := s.ownEnd) (by simpa using hlow) hothers
      simpa [State.joinRead] using hisolation

end Sys2Proof.Machine

/-! ## Proofs: aborts, MUTE, the crystal and the departure (R1, R5, R7, R9, R10, R33, R44, R174, R175) -/

namespace Sys2Proof.Machine

/-! ### The departure (R10, R33, R44) -/

@[simp] theorem State.depart_line (s : State) : s.depart.line = { s.line with
    dissenting := false, isolation := none, isolated := false, clean := false
    record := { s.line.record with notMember := true } } := by
  simp [State.depart]

theorem State.depart_claims (s : State) : s.depart.claims = [] := by
  have hcleared : s.ownAbsent.clearClaims.claims = [] := by simp [State.clearClaims]
  simp [State.depart, State.voidHoldings, hcleared]

theorem State.depart_own {s : State} {o : OwnClaim} (ho : o ∈ s.depart.own) : o.state = .asked := by
  have hown : s.depart.own = s.ownAbsent.clearClaims.voidHoldings.allAsked.own := rfl
  rw [hown, State.allAsked] at ho
  obtain ⟨o', _, rfl⟩ := List.mem_map.mp ho
  rfl

theorem State.peer_of_length {s : State} {a : Nat} (hout : ¬ a - 1 < s.peers.length) : s.peer a = {} := by
  rw [State.peer, List.getD_eq_default _ _ (by omega)]

theorem depart_ownPeer (s : State) : (s.depart.peer s.cfg.address).present = false
    ∧ (s.depart.peer s.cfg.address).change = decide (s.cfg.address - 1 < s.peers.length) := by
  have hpeers : s.depart.peer s.cfg.address = s.ownAbsent.peer s.cfg.address :=
    State.peer_of_peers (by simp [State.depart]) _
  rw [hpeers, State.ownAbsent, State.peer_modPeer]
  by_cases hin : s.cfg.address - 1 < s.peers.length
  · rw [if_pos ⟨rfl, hin⟩]
    exact ⟨rfl, (decide_eq_true hin).symm⟩
  · rw [if_neg (by simp [hin]), State.peer_of_length hin]
    exact ⟨rfl, (decide_eq_false hin).symm⟩

/-! ### Entry into MUTE (R9) -/

theorem State.enterMute_of_member {s : State} (hmember : s.line.state = .member) : s.enterMute = { s.depart with
    line := { s.depart.line with state := .mute, muteCount := 16, muteTimer := some 0, coldWait := none, coldDue := false }
    panel := { s.depart.panel with lineState := true } } := by
  unfold State.enterMute State.departIfMember
  rw [if_pos hmember, State.setLine_of_ne (by simp [State.modLine, hmember])]
  rfl

theorem State.enterMute_line_of_other {s : State} (hother : s.line.state ≠ .member) : s.enterMute.line = { s.line with
    state := .mute, muteCount := 16, muteTimer := some 0, coldWait := none, coldDue := false } := by
  unfold State.enterMute State.departIfMember
  rw [if_neg hother, setLine_line]
  rfl

/-- Outside MEMBER there is nothing to depart from. -/
theorem State.enterMute_of_other {s : State} (hother : s.line.state ≠ .member) : s.enterMute.claims = s.claims
    ∧ s.enterMute.own = s.own ∧ s.enterMute.peers = s.peers ∧ s.enterMute.chans = s.chans := by
  unfold State.enterMute State.departIfMember
  rw [if_neg hother]
  simp

theorem State.enterMute_checkFailure (s : State) :
    s.enterMute.line.record.checkFailure = s.line.record.checkFailure := by
  by_cases hmember : s.line.state = .member
  · rw [State.enterMute_of_member hmember, State.depart_line]
  · rw [State.enterMute_line_of_other hmember]

/-- What every entry into MUTE sets. -/
theorem State.enterMute_muted (s : State) : s.enterMute.line.state = .mute ∧ s.enterMute.line.muteCount = 16
    ∧ s.enterMute.line.muteTimer = some 0 := by
  unfold State.enterMute
  rw [setLine_line]
  exact ⟨rfl, rfl, rfl⟩

theorem State.enterMute_marked {s : State} (hunmuted : s.line.state ≠ .mute) : s.enterMute.panel.lineState = true := by
  unfold State.enterMute
  rw [State.setLine_of_ne (by simpa [State.modLine] using hunmuted)]

/-- The state at the second abort, before the entry into MUTE: the own frame in progress has ended. -/
def State.abortedAgain (s : State) : State :=
  (match s.line.sending with
    | some own => s.abortEnds own false
    | none => s).modLine fun l => { l with aborts := 2 }

theorem State.abortsTwice_eq (s : State) : s.abortsTwice = s.abortedAgain.enterMute := rfl

@[simp] theorem State.abortedAgain_frame (s : State) : s.abortedAgain.cfg = s.cfg ∧ s.abortedAgain.peers = s.peers
    ∧ s.abortedAgain.claims = s.claims ∧ s.abortedAgain.own = s.own ∧ s.abortedAgain.chans = s.chans
    ∧ s.abortedAgain.replies = s.replies ∧ s.abortedAgain.castends = s.castends ∧ s.abortedAgain.book = s.book := by
  unfold State.abortedAgain
  split <;> simp

@[simp] theorem State.abortedAgain_state (s : State) : s.abortedAgain.line.state = s.line.state := by
  unfold State.abortedAgain
  split <;> simp

/-- Settles O20, by the departure of a MEMBER, and by the entry from JOINING. -/
theorem muteEntryDeparts : Obligations.MuteEntryDeparts := by
  intro s hstate haborts
  have hexec : exec .muteEntry s = .next s.abortedAgain.enterMute := by
    show execMuteEntry s = _
    rw [execMuteEntry, if_pos (by simpa using ⟨hstate, haborts⟩), State.abortsTwice_eq]
  have hunmuted : s.abortedAgain.line.state ≠ .mute := by
    rw [State.abortedAgain_state]
    rcases hstate with h | h <;> simp [h]
  obtain ⟨hmute, hcount, htimer⟩ := s.abortedAgain.enterMute_muted
  refine ⟨_, hexec, hmute, hcount, htimer, ?_, State.enterMute_marked hunmuted, by simp, by simp, by simp,
    fun hmember => ?member, fun hjoining => ?joining⟩
  · simp [State.abortedAgain]
  case member =>
    have hmember' := (s.abortedAgain_state).trans hmember
    obtain ⟨habsent, hchange⟩ := depart_ownPeer s.abortedAgain
    simp only [State.abortedAgain_frame] at habsent hchange
    rw [State.enterMute_of_member hmember']
    refine ⟨State.depart_claims _, fun o ho => State.depart_own ho, habsent, hchange, ?_, ?_, ?_, ?_, ?_⟩
    all_goals simp
  case joining =>
    have hother : s.abortedAgain.line.state ≠ .member := by simp [hjoining]
    simpa using State.enterMute_of_other hother

/-! ### Own frames aborted (R1, R7) -/

/-- Whatever the frame, its abort takes it off the line, is counted, and marks the round. -/
theorem State.abortEnds_line (s : State) (own : OwnFrame) (other : Bool) : (s.abortEnds own other).line.sending = none
    ∧ (s.abortEnds own other).line.ownAborted = raise 65535 s.line.ownAborted
    ∧ (s.abortEnds own other).line.record.checkFailure = true
    ∧ (s.abortEnds own other).line.state = s.line.state := by
  have hcut : (s.cutShort other).line.sending = none
      ∧ (s.cutShort other).line.ownAborted = raise 65535 s.line.ownAborted
      ∧ (s.cutShort other).line.record.checkFailure = true ∧ (s.cutShort other).line.state = s.line.state := by
    simp [State.cutShort, State.markFailure, State.stopSending, counterTop]
  unfold State.abortEnds
  split
  · dsimp only
    split <;> simpa using hcut
  · dsimp only
    split <;> split <;> simpa using hcut
  · dsimp only
    split <;> simpa using hcut

theorem State.abortEnds_rest (s : State) (own : OwnFrame) (other : Bool) :
    s.abortEnds own other = { s with line := (s.abortEnds own other).line } := State.eq_of_fields (by simp)

/-- The abort of a cold opening is not counted toward MUTE, and starts the cold wait again. -/
theorem State.aborted_cold (s : State) (f : TurnFrame) (ok other : Bool) :
    s.aborted (.turn f true ok) other = s.abortEnds (.turn f true ok) other
      ∧ (s.abortEnds (.turn f true ok) other).line.aborts = s.line.aborts
      ∧ (s.abortEnds (.turn f true ok) other).line.coldWait = some 0 := by
  refine ⟨rfl, by simp, ?_⟩
  unfold State.abortEnds
  dsimp only
  split <;> simp

/-- A frame whose abort is counted: any but a cold opening. -/
theorem State.aborted_counted {s : State} {own : OwnFrame} (hcounted : ¬ ∃ f ok, own = .turn f true ok) (other : Bool) :
    s.aborted own other = (s.abortEnds own other).abortCounted := by
  match own, hcounted with
  | .turn f true ok, hcounted => exact absurd ⟨f, ok, rfl⟩ hcounted
  | .turn f false ok, _ => rfl
  | .join f, _ => rfl

theorem State.abortCounted_of_first {s : State} (hfirst : s.line.aborts = 0) :
    s.abortCounted = s.modLine fun l => { l with aborts := l.aborts + 1 } := if_neg (by omega)

theorem State.abortCounted_of_again {s : State} (hagain : 1 ≤ s.line.aborts) :
    s.abortCounted = (s.modLine fun l => { l with aborts := 2 }).enterMute := if_pos hagain

/-! ### A garbled frame (R2) -/

theorem State.checkFailed_line (s : State) : s.checkFailed.line = { s.line with
    checkFailures := raise 65535 s.line.checkFailures, record := { s.line.record with checkFailure := true } } := by
  simp [State.checkFailed, State.markFailure, counterTop]

/-- What a garbled frame has been to the line before it is charged to a station: the round's opening event where it stands
in the opening position. -/
def State.garbledRound (s : State) (b : FrameStart) : State :=
  match b.position with
  | .opening _ => (if s.line.overridden then s.frameEnd else s.frameEnd.garbledOpening).openingTime
  | .inRound => s.frameEnd
  | .inWindow => s.frameEnd

/-- The line after the charges of a garbled frame, with the sender it is credited to. -/
def State.garbledLine (s : State) (b : FrameStart) (last : Option Nat) : State :=
  match b.position with
  | .inWindow => s.windowAtEnd
  | .inRound => s.takeSender last
  | .opening _ => s.takeSender last

/-- A cold opening that waits for the end of the frame on the line is sent (R7). -/
def State.coldAtEnd (s : State) : State :=
  if s.line.state = .listening && s.line.coldDue then s.startCold else s

theorem State.hearGarbled_eq (s : State) : ∃ b charged last,
    s.hearGarbled = (((s.garbledRound b).checkFailed.chargeAll charged).garbledLine b last).coldAtEnd :=
  ⟨_, _, _, rfl⟩

theorem State.garbledRound_checkFailures (s : State) (b : FrameStart) :
    (s.garbledRound b).line.checkFailures = s.line.checkFailures := by
  unfold State.garbledRound
  split
  · split <;> simp
  · simp
  · simp

theorem State.garbledLine_counted (s : State) (b : FrameStart) (last : Option Nat) :
    (s.garbledLine b last).line.checkFailures = s.line.checkFailures
      ∧ (s.garbledLine b last).line.record = s.line.record := by
  unfold State.garbledLine
  split <;> simp

theorem State.coldAtEnd_counted (s : State) : s.coldAtEnd.line.checkFailures = s.line.checkFailures
    ∧ s.coldAtEnd.line.record = s.line.record := by
  unfold State.coldAtEnd
  split <;> simp

theorem State.hearGarbled_counted (s : State) : s.hearGarbled.line.checkFailures = raise 65535 s.line.checkFailures
    ∧ s.hearGarbled.line.record.checkFailure = true := by
  obtain ⟨b, charged, last, heq⟩ := s.hearGarbled_eq
  rw [heq, (State.coldAtEnd_counted _).1, (State.coldAtEnd_counted _).2, (State.garbledLine_counted _ b last).1,
    (State.garbledLine_counted _ b last).2]
  simp [State.checkFailed_line, State.garbledRound_checkFailures]

/-- Settles O19, by what an abort does to the line and by its count, and by the mark of a garbled frame. -/
theorem abortedFrameTakesNoEffect : Obligations.AbortedFrameTakesNoEffect := by
  refine ⟨fun s own other hsending => ?aborted, fun s hhearing => ?garbled⟩
  case aborted =>
    have hexec : exec (.ownFrameAborted other) s = .next (s.aborted own other) := by
      show execOwnFrameAborted other s = _
      rw [execOwnFrameAborted, hsending]
    obtain ⟨hquiet, hcount, hmark, hstate⟩ := s.abortEnds_line own other
    have hrest := s.abortEnds_rest own other
    by_cases hcold : ∃ f ok, own = .turn f true ok
    · obtain ⟨f, ok, rfl⟩ := hcold
      obtain ⟨heq, haborts, hwait⟩ := s.aborted_cold f ok other
      rw [heq] at hexec
      exact ⟨_, hexec, hquiet, hcount, hmark, by simp, by simp, by simp, fun _ => hrest, fun _ => ⟨haborts, hstate, hwait⟩,
        fun hnot => absurd ⟨f, ok, rfl⟩ hnot, fun hnot => absurd ⟨f, ok, rfl⟩ hnot⟩
    · rw [State.aborted_counted hcold] at hexec
      rcases Nat.eq_zero_or_pos s.line.aborts with hfirst | hagain
      · rw [State.abortCounted_of_first (by simpa using hfirst)] at hexec
        refine ⟨_, hexec, hquiet, hcount, hmark, by simp, by simp, by simp, fun _ => ?_, fun h => absurd h hcold,
          fun _ _ => ⟨?_, hstate⟩, fun _ h => by omega⟩
        · exact State.eq_of_fields (by simp)
        · simp [State.modLine, hfirst]
      · rw [State.abortCounted_of_again (by simpa [Nat.succ_le_iff] using hagain)] at hexec
        refine ⟨_, hexec, ?_, ?_, ?_, by simp, by simp, by simp, fun h => ?_, fun h => absurd h hcold,
          fun _ h => by omega, fun _ _ => State.enterMute_muted _ |>.1⟩
        · simpa using hquiet
        · simpa [raise] using hcount
        · simpa [State.enterMute_checkFailure] using hmark
        · exact absurd h (not_or.mpr ⟨by omega, hcold⟩)
  case garbled =>
    have hexec : exec .garbledFrame s = .next s.hearGarbled := by
      show execGarbledFrame s = _
      rw [execGarbledFrame, if_pos hhearing]
    obtain ⟨hcount, hmark⟩ := s.hearGarbled_counted
    exact ⟨_, hexec, hcount, hmark, by simp, by simp, by simp⟩

/-! ### The crystal (R174, R175, R5) -/

theorem State.setLine_panel (s : State) (l : LineState) : (s.setLine l).panel.xtal = s.panel.xtal
    ∧ (s.setLine l).panel.fault = s.panel.fault ∧ (s.setLine l).panel.record = s.panel.record := by
  unfold State.setLine
  split
  · exact ⟨rfl, rfl, rfl⟩
  · exact ⟨rfl, rfl, rfl⟩

/-- The clearing of the table reports stops alone, and none matters to a turner without an order. -/
theorem State.clearClaims_of_no_order {s : State} (hnone : s.turner.order = none) :
    s.clearClaims = { s with claims := [] } := by
  have hstops (l : List TurnerReport) (hl : ∀ r ∈ l, ∃ a c, r = .stop a c) {t : State} (ht : t.turner.order = none) :
      t.reportAll l = t := by
    induction l with
    | nil => rfl
    | cons r rest ih =>
      obtain ⟨a, c, rfl⟩ := hl r List.mem_cons_self
      have hstill : t.report (.stop a c) = t := by
        unfold State.report State.turnerStops
        split
        · dsimp only
          rw [ht]
        · rfl
      rw [State.reportAll, List.foldl_cons, hstill]
      exact ih fun r hr => hl r (List.mem_cons_of_mem _ hr)
  refine hstops _ (fun r hr => ?_) hnone
  obtain ⟨e, _, he⟩ := List.mem_flatMap.mp hr
  unfold stopOf at he
  split at he
  · exact ⟨e.station, e.channel, by simpa using he⟩
  · cases he

theorem State.emptyTable_claims (s : State) : s.emptyTable.claims = [] := by
  unfold State.emptyTable
  split
  · exact s.depart_claims
  · simp [State.clearClaims]

theorem State.emptyTable_queued {p : Panel} {s : State} (h : p.Queued s.panel) : p.Queued s.emptyTable.panel := by
  unfold State.emptyTable
  exact State.ite_queued (State.depart_queued h) (State.clearClaims_queued h)

/-- The station at the loss of its crystal, before its line is dropped. -/
def State.crystalGone (s : State) : State :=
  (({ s with tb := { s.tb with ready := false, stab := some 0 } } : State).setXtal).recordFault .xtalLost
    (some s.cfg.address) none

theorem State.crystalIsLost_of_ready {s : State} (hready : s.tb.ready = true) : s.crystalIsLost =
    if s.line.state.hears then s.crystalGone.enterClocking else s.crystalGone := by
  rw [State.crystalIsLost, if_pos hready]
  rfl

/-- What CLOCKING leaves of the line. -/
theorem State.enterClocking_line (s : State) : s.enterClocking.line.state = .clocking
    ∧ s.enterClocking.line.record.crystal = true ∧ s.enterClocking.line.sending = none
    ∧ s.enterClocking.line.clean = s.emptyTable.line.clean := by
  unfold State.enterClocking
  rw [setLine_line]
  exact ⟨rfl, rfl, rfl, rfl⟩

theorem State.enterClocking_panel (s : State) : s.enterClocking.panel.xtal = s.panel.xtal
    ∧ s.enterClocking.panel.fault = s.panel.fault ∧ s.enterClocking.panel.record = s.panel.record := by
  have hqueued := State.emptyTable_queued (s := s) .refl
  obtain ⟨hxtal, hfault, hrecord⟩ := State.setLine_panel (s.emptyTable.dropLine.mark fun r => { r with crystal := true })
    .clocking
  refine ⟨hxtal.trans ?_, hfault.trans ?_, hrecord.trans ?_⟩
  · simpa using hqueued.xtal
  · simpa using hqueued.fault
  · simpa using hqueued.record

theorem State.enterClocking_tables (s : State) : s.enterClocking.claims = [] ∧ s.enterClocking.own = s.emptyTable.own
    ∧ s.enterClocking.peers = s.emptyTable.peers := by
  unfold State.enterClocking
  simp [State.emptyTable_claims]

theorem State.leaveClocking_xtal (s : State) : s.leaveClocking.panel.xtal = s.panel.xtal := by
  unfold State.leaveClocking
  split
  · exact (State.setLine_panel _ .listening).1
  · rfl

theorem State.leaveClocking_state (s : State) : s.leaveClocking.line.state =
    if s.line.state = .clocking ∧ s.tb.ready = true ∧ s.loader.loaded = true then .listening else s.line.state := by
  unfold State.leaveClocking
  by_cases hleaves : s.line.state = .clocking ∧ s.tb.ready = true ∧ s.loader.loaded = true
  · rw [if_pos (by simpa [and_assoc] using hleaves), if_pos hleaves, State.enterListening, setLine_line]
  · rw [if_neg (by simpa [and_assoc] using hleaves), if_neg hleaves]

/-- Settles O13, by the loss of the crystal on a line that is heard and on one that is not. -/
theorem crystalReadyAndLost : Obligations.CrystalReadyAndLost := by
  refine ⟨fun s hstab hready => ?restart, fun s hstab hready => ?ready, fun s hready hhears => ?lost,
    fun s hready hunconfigured => ?unconfigured⟩
  case restart =>
    show Host.Outcome.next s.restartWait = _
    rw [State.restartWait, if_pos (by simp [hstab, hready])]
  case ready =>
    have hexec : exec .crystalReady s = .next
        ({ s with tb := { s.tb with ready := true, stab := none } } : State).setXtal.leaveClocking := by
      show Host.Outcome.next s.crystalIsReady = _
      rw [State.crystalIsReady, if_pos (by simp [hstab, hready])]
    refine ⟨_, hexec, State.eq_of_fields (by simp), ?_, ?_⟩
    · exact State.leaveClocking_xtal _
    · rw [State.leaveClocking_state]
      simp
  case lost =>
    have hexec : exec .crystalLost s = .next s.crystalGone.enterClocking := by
      show Host.Outcome.next s.crystalIsLost = _
      rw [State.crystalIsLost_of_ready hready, if_pos hhears]
    obtain ⟨hclocking, hcrystal, hquiet, hclean⟩ := s.crystalGone.enterClocking_line
    obtain ⟨hxtal, hfault, hrecord⟩ := s.crystalGone.enterClocking_panel
    obtain ⟨hclaims, hown, hpeers⟩ := s.crystalGone.enterClocking_tables
    refine ⟨_, hexec, ?_, hxtal, hfault, hrecord, hclocking, hcrystal, hquiet, ?_, ?_, ?_, hclaims, fun hmember => ?member,
      fun hother => ?other⟩
    case member =>
      have hdeparts : s.crystalGone.emptyTable = s.crystalGone.depart := if_pos hmember
      rw [hdeparts] at hown hclean hpeers
      rw [hown, hclean, State.peer_of_peers hpeers]
      exact ⟨fun o ho => State.depart_own ho, (depart_ownPeer s.crystalGone).1, by simp⟩
    case other =>
      have hclears : s.crystalGone.emptyTable = s.crystalGone.clearClaims := if_neg hother
      rw [hclears] at hown hpeers
      refine ⟨hpeers.trans (by simp [State.crystalGone]), fun hnone => hown.trans ?_⟩
      rw [State.clearClaims_of_no_order (s := s.crystalGone) hnone]
      rfl
    all_goals simp [State.crystalGone]
  case unconfigured =>
    have hexec : exec .crystalLost s = .next s.crystalGone := by
      show Host.Outcome.next s.crystalIsLost = _
      rw [State.crystalIsLost_of_ready hready, if_neg (by simp [hunconfigured, LineState.hears])]
    exact ⟨_, hexec, rfl, rfl, rfl, rfl⟩

end Sys2Proof.Machine

/-! ## Proofs: frames of other stations (chapter 1) -/

namespace Sys2Proof.Machine

/-! ### Missed turns (R16, R19) -/

/-- A PRESENT station's entry after one missed turn. -/
def missedTurn (p : Peer) : Peer := if 2 ≤ p.missed then { change := true } else { p with missed := p.missed + 1 }

theorem State.lt_length_of_present {s : State} {a : Nat} (hpresent : (s.peer a).present = true) :
    a - 1 < s.peers.length := by
  by_contra hout
  rw [State.peer_of_length hout] at hpresent
  cases hpresent

theorem State.losePeer_peer (s : State) (a b : Nat) : (s.losePeer a).peer b = (s.modPeer a fun _ => lostPeer).peer b :=
  State.peer_of_peers (by simp [State.losePeer]) b

theorem State.charge_peer_self {s : State} {a : Nat} (hown : a ≠ s.cfg.address) (hpresent : (s.peer a).present = true) :
    (s.charge a).peer a = missedTurn (s.peer a) := by
  have hin := State.lt_length_of_present hpresent
  unfold State.charge missedTurn
  rw [if_neg (by simp [hown, hpresent])]
  dsimp only
  split
  · rw [State.losePeer_peer, State.peer_modPeer, if_pos ⟨rfl, hin⟩]
    rfl
  · rw [State.peer_modPeer, if_pos ⟨rfl, hin⟩]
    rfl

theorem State.charge_peer_other (s : State) {a b : Nat} (hne : b ≠ a) (ha : 1 ≤ a) (hb : 1 ≤ b) :
    (s.charge a).peer b = s.peer b := by
  unfold State.charge
  split
  · rfl
  · dsimp only
    split
    · rw [State.losePeer_peer, State.peer_modPeer_other hne ha hb]
      rfl
    · rw [State.peer_modPeer_other hne ha hb]
      rfl

theorem State.charge_uncharged {s : State} {a : Nat} (hfree : a = s.cfg.address ∨ (s.peer a).present = false) :
    s.charge a = s := if_pos (by simpa using hfree)

/-- Stations that are not charged keep their entries. -/
theorem State.chargeAll_peer_other {l : List Nat} {b : Nat} (hl : ∀ a ∈ l, 1 ≤ a) (hb : 1 ≤ b) (hfree : b ∉ l)
    (s : State) : (s.chargeAll l).peer b = s.peer b := by
  induction l generalizing s with
  | nil => rfl
  | cons a r ih =>
    rw [List.mem_cons, not_or] at hfree
    exact (ih (fun x hx => hl x (List.mem_cons_of_mem _ hx)) hfree.2 (s.charge a)).trans
      (s.charge_peer_other hfree.1 (hl a List.mem_cons_self) hb)

/-- Each PRESENT station of a list is charged once, but for the own one. -/
theorem State.chargeAll_peer_self {l : List Nat} {a : Nat} (hl : ∀ b ∈ l, 1 ≤ b) (hnodup : l.Nodup) (ha : a ∈ l)
    {s : State} (hown : a ≠ s.cfg.address) (hpresent : (s.peer a).present = true) :
    (s.chargeAll l).peer a = missedTurn (s.peer a) := by
  induction l generalizing s with
  | nil => cases ha
  | cons b r ih =>
    have hr : ∀ x ∈ r, 1 ≤ x := fun x hx => hl x (List.mem_cons_of_mem _ hx)
    obtain ⟨hnew, hrest⟩ := List.nodup_cons.mp hnodup
    by_cases hab : a = b
    · subst hab
      exact (State.chargeAll_peer_other hr (hl a List.mem_cons_self) hnew (s.charge a)).trans
        (State.charge_peer_self hown hpresent)
    · have hkept := s.charge_peer_other hab (hl b List.mem_cons_self) (hl a ha)
      have hcharged := ih (s := s.charge b) hr hrest ((List.mem_cons.mp ha).resolve_left hab)
        (by simpa using hown) (by rw [hkept]; exact hpresent)
      exact hcharged.trans (by rw [hkept])

theorem State.chargeAll_peer_own {l : List Nat} {s : State} (hl : ∀ b ∈ l, 1 ≤ b) (hlow : 1 ≤ s.cfg.address) :
    (s.chargeAll l).peer s.cfg.address = s.peer s.cfg.address := by
  induction l generalizing s with
  | nil => rfl
  | cons b r ih =>
    have hrest := ih (s := s.charge b) (fun x hx => hl x (List.mem_cons_of_mem _ hx)) (by simpa using hlow)
    have hcfg : (s.charge b).cfg = s.cfg := by simp
    rw [hcfg] at hrest
    refine hrest.trans ?_
    by_cases hb : b = s.cfg.address
    · rw [State.charge_uncharged (.inl hb)]
    · exact s.charge_peer_other (Ne.symm hb) (hl b List.mem_cons_self) hlow

theorem addresses_nodup : addresses.Nodup := by decide

theorem State.mem_ladder {s : State} {x a : Nat} : a ∈ s.ladder x ↔ a ∈ addresses ∧ (s.peer a).present = true
    ∧ x < a ∧ a ∉ s.line.newcomers := by
  simp [State.ladder, State.mem_present, and_assoc]

theorem State.ladder_nodup (s : State) (x : Nat) : (s.ladder x).Nodup := (addresses_nodup.filter _).filter _

theorem State.one_le_of_mem_ladder {s : State} {x a : Nat} (ha : a ∈ s.ladder x) : 1 ≤ a :=
  one_le_of_mem_addresses (State.mem_ladder.mp ha).1

/-- Settles O24, by the charge of the whole ladder at the window's opening, and by the frames' instants. -/
theorem joinWindowAndFrames : Obligations.JoinWindowAndFrames := by
  refine ⟨fun s x hhears hidle hturns hlast => ?opens, fun s e hhears hidle hwindow => ?closes, fun s hhears hidle => ?starts,
    fun s hlistening hheard hrounds => ?joins⟩
  case opens =>
    have hexec : exec .joinWindowOpens s = .next ((s.chargeAll (s.ladder x)).openWindow) := by
      show Host.Outcome.next s.windowBySilence = _
      simp [State.windowBySilence, hlast, hhears, hidle, hturns]
    refine ⟨_, hexec, rfl, rfl, by simp, fun a ha => ?_⟩
    have hpeer : ((s.chargeAll (s.ladder x)).openWindow).peer a = (s.chargeAll (s.ladder x)).peer a := rfl
    have hlow : ∀ b ∈ s.ladder x, 1 ≤ b := fun b hb => State.one_le_of_mem_ladder hb
    rw [hpeer]
    split
    · next hcharged =>
      obtain ⟨hladder, hown⟩ := hcharged
      obtain ⟨_, hpresent, _⟩ := State.mem_ladder.mp hladder
      exact State.chargeAll_peer_self hlow (s.ladder_nodup x) hladder hown hpresent
    · next hfree =>
      by_cases hown : a = s.cfg.address
      · subst hown
        exact State.chargeAll_peer_own hlow (one_le_of_mem_addresses ha)
      · exact State.chargeAll_peer_other hlow (one_le_of_mem_addresses ha) (fun hin => hfree ⟨hin, hown⟩) s
  case closes =>
    show execJoinWindowCloses s = _
    simp [execJoinWindowCloses, hhears, hidle, State.position, hwindow, State.closeWindow, State.modLine]
  case starts =>
    refine ⟨s.startFrame, ?_, ?_⟩
    · show execLineFrameStart s = _
      simp [execLineFrameStart, hhears, hidle]
    · rw [State.startFrame, State.modLine, Bool.beq_eq_decide_eq]
      rfl
  case joins =>
    show execJoiningEntry s = _
    rw [execJoiningEntry, if_pos (by simp [hlistening, hheard, hrounds]), State.enterJoining,
      State.setLine_of_ne (by simp [State.modLine, hlistening])]
    rfl

end Sys2Proof.Machine

/-! ## Proofs: a valid frame heard (R2, R13 to R20) -/

namespace Sys2Proof.Machine

theorem decodeTurn_sender {bytes : List Byte} {f : TurnFrame} (h : decodeTurn bytes = some f) :
    1 ≤ f.sender ∧ f.sender ≤ 24 := by
  unfold decodeTurn at h
  split at h
  · cases h
  · split at h
    · split at h
      · next hhead =>
        obtain ⟨items, _, hitems⟩ := Option.bind_eq_some_iff.mp h
        split at hitems
        · simp only [Bool.and_eq_true, decide_eq_true_eq] at hhead
          obtain ⟨⟨_, hlow⟩, hhigh⟩ := hhead
          cases hitems
          exact ⟨hlow, hhigh⟩
        · cases hitems
      · cases h
    · cases h

theorem decodeJoin_sender {bytes : List Byte} {f : JoinFrame} (h : decodeJoin bytes = some f) :
    1 ≤ f.sender ∧ f.sender ≤ 24 := by
  unfold decodeJoin at h
  split at h
  · cases h
  · split at h
    · split at h
      · next hhead =>
        simp only [Bool.and_eq_true, decide_eq_true_eq] at hhead
        obtain ⟨⟨_, hlow⟩, hhigh⟩ := hhead
        cases h
        exact ⟨hlow, hhigh⟩
      · cases h
    · cases h

/-! ### The sender's entry (R18) -/

/-- A frame charges the stations below its sender alone. -/
theorem State.lt_of_mem_chargedBy {s : State} {x a : Nat} {opening : Bool} (ha : a ∈ s.chargedBy x opening) :
    a < x ∧ 1 ≤ a := by
  unfold State.chargedBy at ha
  split at ha
  · obtain ⟨hpresent, hlt⟩ := List.mem_filter.mp ha
    exact ⟨of_decide_eq_true hlt, one_le_of_mem_addresses (State.mem_present.mp hpresent).1⟩
  · split at ha
    · obtain ⟨hladder, hlt⟩ := List.mem_filter.mp ha
      exact ⟨of_decide_eq_true hlt, State.one_le_of_mem_ladder hladder⟩
    · cases ha

theorem State.hearHeader_peer (s : State) (f : TurnFrame) (a : Nat) :
    (s.hearHeader f).peer a = (s.modPeer f.sender fun p => heardPeer p f.home f.available).peer a := by
  refine State.peer_of_peers ?_ a
  unfold State.hearHeader
  dsimp only
  split <;> simp

/-- The header of a frame stands in the sender's entry. -/
theorem State.hearHeader_sender {s : State} {f : TurnFrame} (hlow : 1 ≤ f.sender) (hhigh : f.sender ≤ s.peers.length) :
    (s.hearHeader f).peer f.sender = heardPeer (s.peer f.sender) f.home f.available := by
  rw [State.hearHeader_peer, State.peer_modPeer_self hlow hhigh]

/-- The charges of a frame leave its sender's entry. -/
theorem State.chargedBy_peer_sender (s t : State) {x : Nat} (hlow : 1 ≤ x) (opening : Bool) :
    (s.chargeAll (t.chargedBy x opening)).peer x = s.peer x :=
  State.chargeAll_peer_other (fun _ ha => (State.lt_of_mem_chargedBy ha).2) hlow
    (fun hmem => absurd (State.lt_of_mem_chargedBy hmem).1 (Nat.lt_irrefl x)) s

/-- What the peer of a sender shows of a header. -/
theorem heardPeer_fields (p : Peer) (home available : Bool) : (heardPeer p home available).present = true
    ∧ (heardPeer p home available).missed = 0 ∧ (heardPeer p home available).home = home
    ∧ (heardPeer p home available).available = available := ⟨rfl, rfl, rfl, rfl⟩

theorem State.hearContent_peer_sender {s : State} {f : TurnFrame} (hlow : 1 ≤ f.sender)
    (hhigh : f.sender ≤ s.peers.length) :
    (s.hearContent f).peer f.sender = heardPeer (s.peer f.sender) f.home f.available := by
  have hpeers : (s.hearContent f).peer f.sender
      = ((s.hearHeader f).heardOther.chargeAll (s.chargedBy f.sender f.opening)).peer f.sender :=
    State.peer_of_peers (by simp [State.hearContent]) _
  rw [hpeers, State.chargedBy_peer_sender _ s hlow,
    State.peer_of_peers (s := s.hearHeader f) (t := (s.hearHeader f).heardOther) (by simp),
    State.hearHeader_sender hlow hhigh]

/-! ### A TURN frame -/

theorem State.heardOpening_round (s : State) (f : TurnFrame) : (s.heardOpening f).line.round = f.round := by
  unfold State.heardOpening
  dsimp only
  split <;> simp [State.modLine]

@[simp] theorem State.compareRound_round (s : State) (round : Word16) : (s.compareRound round).line.round = round := by
  unfold State.compareRound
  split
  · next hsame => exact hsame.symm
  · rfl

theorem State.hearRound_round (s : State) (f : TurnFrame) (late : Bool) : (s.hearRound f late).line.round = f.round := by
  unfold State.hearRound
  split
  · dsimp only
    split <;> simp [State.heardOpening_round]
  · dsimp only
    split <;> simp

theorem State.takeSender_lastSender (s : State) (x : Option Nat) : (s.takeSender x).line.lastSender = x := by
  simp [State.takeSender, State.modLine]

theorem exec_validTurnFrameHeard {s : State} {bytes : List Byte} {f : TurnFrame} (hhearing : s.hearing = true)
    (hdecode : decodeTurn bytes = some f) : exec (.validTurnFrameHeard bytes) s = .next (s.hearTurn f) := by
  show execValidTurnFrameHeard bytes s = _
  rw [execValidTurnFrameHeard, if_pos hhearing, hdecode]

theorem State.sending_of_hearing {s : State} (hhearing : s.hearing = true) : s.line.sending = none := by
  rw [State.hearing, Bool.and_eq_true, Option.isNone_iff_eq_none] at hhearing
  exact hhearing.2

theorem State.frameEnd_line (s : State) : s.frameEnd.line.onLine = none ∧ s.frameEnd.line.silence = 0
    ∧ s.frameEnd.line.overridden = false := ⟨rfl, rfl, rfl⟩

/-- The frame of another station, from its end to the last sender of the ladder. -/
theorem State.hearTurn_of_other {s : State} {f : TurnFrame} (hother : f.sender ≠ s.cfg.address) : s.hearTurn f =
    ((s.frameEnd.restartCold.hearRound f s.line.overridden).hearContent f).takeSender (some f.sender) := by
  rw [State.hearTurn, if_neg hother]

theorem State.hearTurn_of_own {s : State} {f : TurnFrame} (hown : f.sender = s.cfg.address) :
    s.hearTurn f = s.frameEnd.restartCold.duplicate.takeSender (some f.sender) := by
  rw [State.hearTurn, if_pos hown]

theorem State.enterMute_record (s : State) : s.enterMute.panel.record = s.panel.record := by
  have hqueued : s.panel.Queued s.departIfMember.panel := by
    unfold State.departIfMember
    exact State.ite_queued (State.depart_queued .refl) .refl
  obtain ⟨_, _, hrecord⟩ := State.setLine_panel (s.departIfMember.modLine fun l =>
    { l with muteCount := 16, muteTimer := some 0, coldWait := none, coldDue := false }) .mute
  exact hrecord.trans (by simpa using hqueued.record)

/-- A duplicate address (R20): MUTE, and the fault. -/
theorem State.duplicate_spec (s : State) : s.duplicate.line.state = .mute ∧ s.duplicate.line.muteCount = 16
    ∧ s.duplicate.line.muteTimer = some 0 ∧ s.duplicate.panel.record = some {
        kind := .duplicateAddress, station := some s.cfg.address, channel := none,
        round := s.line.round, more := s.panel.record.isSome }
    ∧ s.duplicate.panel.fault = true := by
  obtain ⟨hmute, hcount, htimer⟩ := s.enterMute_muted
  refine ⟨by simpa [State.duplicate] using hmute, by simpa [State.duplicate] using hcount,
    by simpa [State.duplicate] using htimer, ?_, rfl⟩
  simp [State.duplicate, State.recordFault, State.faultAt, State.enterMute_record]

/-- Settles O22, by the steps of a frame that is heard. -/
theorem turnFrameHeard : Obligations.TurnFrameHeard := by
  refine ⟨fun s bytes f hhearing hdecode hother hlength => ?other, fun s bytes f hhearing hdecode hown => ?own⟩
  case other =>
    have hexec := exec_validTurnFrameHeard hhearing hdecode
    obtain ⟨hlow, hhigh⟩ := decodeTurn_sender hdecode
    obtain ⟨honLine, hsilence, hoverridden⟩ := s.frameEnd_line
    rw [State.hearTurn_of_other hother] at hexec
    have hpeer := State.hearContent_peer_sender (s := s.frameEnd.restartCold.hearRound f s.line.overridden) (f := f) hlow
      (by simpa [hlength] using hhigh)
    have hpeer' := State.peer_of_peers (s := (s.frameEnd.restartCold.hearRound f s.line.overridden).hearContent f)
      (t := ((s.frameEnd.restartCold.hearRound f s.line.overridden).hearContent f).takeSender (some f.sender)) (by simp)
      f.sender
    refine ⟨_, hexec, ?_, State.takeSender_lastSender _ _, ?_, ?_, ?_, ?_, ?_, ?_, ?_, ?_, ?_, by simp, by simp, by simp⟩
    · simp [State.hearRound_round]
    · simpa using honLine
    · simpa using hsilence
    · simpa using State.sending_of_hearing hhearing
    · simpa using hoverridden
    · rw [hpeer', hpeer]
      rfl
    · rw [hpeer', hpeer]
      rfl
    · rw [hpeer', hpeer]
      rfl
    · rw [hpeer', hpeer]
      rfl
    · simp
  case own =>
    have hexec := exec_validTurnFrameHeard hhearing hdecode
    rw [State.hearTurn_of_own hown] at hexec
    obtain ⟨hmute, hcount, htimer, hrecord, hfault⟩ := s.frameEnd.restartCold.duplicate_spec
    refine ⟨_, hexec, by simpa using hmute, by simpa using hcount, by simpa using htimer, ?_, by simpa using hfault,
      by simp, by simp, by simp, by simp, fun hother => ?_⟩
    · simpa using hrecord
    · obtain ⟨hclaims, _, hpeers, hchans⟩ := State.enterMute_of_other (s := s.frameEnd.restartCold) (by simpa using hother)
      exact ⟨by simpa [State.duplicate] using hclaims, by simpa [State.duplicate] using hpeers,
        by simpa [State.duplicate] using hchans⟩

/-! ### A JOIN frame -/

theorem exec_validJoinFrameHeard {s : State} {bytes : List Byte} {f : JoinFrame} (hhearing : s.hearing = true)
    (hdecode : decodeJoin bytes = some f) : exec (.validJoinFrameHeard bytes) s = .next (s.hearJoin f) := by
  show execValidJoinFrameHeard bytes s = _
  rw [execValidJoinFrameHeard, if_pos hhearing, hdecode]

/-- The entry that a JOIN makes of a station's (R17). -/
def joinedPeer : Peer := { present := true, missed := 0, home := false, available := false, change := true }

/-- A JOIN of a station that is not PRESENT, from its frame's end. -/
def State.joinNew (s : State) (a : Nat) : State := ((s.modPeer a fun _ => joinedPeer).newcomer a).heardOther

/-- A JOIN of a station that is PRESENT already (R16, R20). -/
def State.joinAgain (s : State) (a : Nat) : State :=
  ((s.modPeer a fun p => { p with missed := 0 }).recordFault .duplicateJoin (some a) none).heardOther

theorem State.hearJoin_of_present {s : State} {f : JoinFrame} (hpresent : (s.peer f.sender).present = true) :
    s.hearJoin f = (s.frameEnd.restartCold.joinAgain f.sender).windowAtEnd := by
  have hpresent' : (s.frameEnd.restartCold.peer f.sender).present = true := hpresent
  rw [State.hearJoin]
  simp only [if_pos hpresent']
  rfl

theorem State.hearJoin_of_new {s : State} {f : JoinFrame} (habsent : (s.peer f.sender).present = false)
    (hother : f.sender ≠ s.cfg.address) :
    s.hearJoin f = (s.frameEnd.restartCold.joinNew f.sender).windowAtEnd := by
  have habsent' : ¬ (s.frameEnd.restartCold.peer f.sender).present = true := ne_true_of_eq_false habsent
  rw [State.hearJoin]
  simp only [if_neg habsent', if_neg hother]
  rfl

theorem State.hearJoin_of_own {s : State} {f : JoinFrame} (habsent : (s.peer f.sender).present = false)
    (hown : f.sender = s.cfg.address) : s.hearJoin f = s.frameEnd.restartCold.duplicate.windowAtEnd := by
  have habsent' : ¬ (s.frameEnd.restartCold.peer f.sender).present = true := ne_true_of_eq_false habsent
  rw [State.hearJoin]
  simp only [if_neg habsent', if_pos hown]

theorem State.hearJoin_silence (s : State) (f : JoinFrame) :
    (s.hearJoin f).line.onLine = none ∧ (s.hearJoin f).line.silence = 0 := by
  obtain ⟨honLine, hsilence, _⟩ := s.frameEnd_line
  unfold State.hearJoin
  dsimp only
  split
  · simpa using ⟨honLine, hsilence⟩
  · split
    · simpa using ⟨honLine, hsilence⟩
    · simpa using ⟨honLine, hsilence⟩

/-- Settles O23, by what stands in the sender's entry. -/
theorem joinFrameHeard : Obligations.JoinFrameHeard := by
  intro s bytes f hhearing hdecode hlength
  have hexec := exec_validJoinFrameHeard hhearing hdecode
  obtain ⟨hlow, hhigh⟩ := decodeJoin_sender hdecode
  obtain ⟨honLine, hsilence⟩ := s.hearJoin_silence f
  refine ⟨_, hexec, by simp, honLine, hsilence, by simp, by simp, by simp, fun habsent hother => ?new, fun hpresent => ?again,
    fun habsent hown => ?own⟩
  case new =>
    have hpeer (a : Nat) : (s.hearJoin f).peer a = (s.modPeer f.sender fun _ => joinedPeer).peer a := by
      rw [State.hearJoin_of_new habsent hother]
      exact State.peer_of_peers (by simp [State.joinNew]) a
    refine ⟨?_, fun a hne ha => ?_, ?_, ?_, ?_, ?_⟩
    · rw [hpeer, State.peer_modPeer_self hlow (by omega)]
      rfl
    · rw [hpeer, State.peer_modPeer_other hne hlow ha]
    all_goals rw [State.hearJoin_of_new habsent hother]; simp [State.joinNew]
  case again =>
    have hpeer : (s.hearJoin f).peer f.sender = { s.peer f.sender with missed := 0 } := by
      rw [State.hearJoin_of_present hpresent, ← State.peer_modPeer_self hlow (by omega) fun p => { p with missed := 0 }]
      exact State.peer_of_peers (by simp [State.joinAgain]) f.sender
    refine ⟨?_, ?_, ?_, ?_, ?_, ?_⟩
    · rw [State.hearJoin_of_present hpresent]
      simp [State.joinAgain, State.recordFault, State.faultAt]
    · rw [hpeer]
      exact hpresent
    · rw [hpeer]
    all_goals rw [State.hearJoin_of_present hpresent]; simp [State.joinAgain]
  case own =>
    obtain ⟨hmute, _, _, hrecord, _⟩ := s.frameEnd.restartCold.duplicate_spec
    rw [State.hearJoin_of_own habsent hown]
    refine ⟨by simpa using hmute, ?_⟩
    simp [hrecord]

end Sys2Proof.Machine

/-! ## Proofs: own frames built and started (R3, R7, R12, R13, R15, R31, R46) -/

namespace Sys2Proof.Machine

/-! ### The items a frame has room for -/

theorem claimsOf_cons (a : Item) (r : List Item) :
    Sys2Proof.claimsOf (a :: r) = Sys2Proof.claimsOf [a] ++ Sys2Proof.claimsOf r := by
  cases a <;> rfl

theorem entriesOf_cons (a : Item) (r : List Item) : entriesOf (a :: r) = entriesOf [a] ++ entriesOf r := by
  cases a <;> rfl

theorem State.entriesOf_bodyItems (s : State) : entriesOf s.bodyItems = s.entryItems := by
  have other {γ : Type} {g : γ → Item} (hg : ∀ x, entriesOf [g x] = []) (l : List γ) : entriesOf (l.map g) = [] :=
    map_of_other rfl entriesOf_cons hg l
  unfold State.bodyItems
  simp only [append_of_cons rfl entriesOf_cons]
  rw [other fun _ => rfl, other fun _ => rfl, other fun _ => rfl, other fun _ => rfl, other fun _ => rfl,
    map_of_own (k := id) rfl entriesOf_cons fun _ => rfl]
  simp only [List.nil_append, List.map_id]

/-- The body behind the claim items. -/
def State.otherItems (s : State) : List Item :=
  s.offerItems.map .offer ++ s.replies.map (fun r => .reply r.item) ++ s.castends.map (fun c => .castend c.item)
    ++ s.turner.turnends.map (fun t => .turnend t.item) ++ s.entryItems.map .entry

theorem State.bodyItems_eq (s : State) : s.bodyItems = s.claimItems.map .claim ++ s.otherItems := by
  simp only [State.bodyItems, State.otherItems, List.append_assoc]

theorem State.claimsOf_otherItems (s : State) : Sys2Proof.claimsOf s.otherItems = [] := by
  have other {γ : Type} {g : γ → Item} (hg : ∀ x, Sys2Proof.claimsOf [g x] = []) (l : List γ) :
      Sys2Proof.claimsOf (l.map g) = [] := map_of_other rfl claimsOf_cons hg l
  unfold State.otherItems
  simp only [append_of_cons rfl claimsOf_cons]
  rw [other fun _ => rfl, other fun _ => rfl, other fun _ => rfl, other fun _ => rfl, other fun _ => rfl]
  rfl

theorem State.claimsOf_bodyItems (s : State) : Sys2Proof.claimsOf s.bodyItems = s.claimItems := by
  rw [State.bodyItems_eq, append_of_cons rfl claimsOf_cons, s.claimsOf_otherItems,
    map_of_own (k := id) rfl claimsOf_cons fun _ => rfl, List.append_nil, List.map_id]

/-- What a frame carries of the claim items and of the entries comes first in their lists. -/
theorem State.buildTurn_claims_entries (s : State) (opening : Bool) (round : Word16) :
    (s.buildTurn opening round).claims <+: s.claimItems ∧ (s.buildTurn opening round).entries <+: s.entryItems := by
  have hfit := fitItems_prefix bodyRoom s.bodyItems
  rw [← s.claimsOf_bodyItems, ← s.entriesOf_bodyItems]
  exact ⟨prefix_of_cons rfl claimsOf_cons hfit, prefix_of_cons rfl entriesOf_cons hfit⟩

theorem State.entryItems_of_unclean {s : State} (hunclean : s.line.clean = false) : s.entryItems = [] := by
  rw [State.entryItems, hunclean]
  rfl

theorem State.entryItems_of_dissenting {s : State} (hdissents : s.line.dissenting = true) : s.entryItems = [] := by
  rw [State.entryItems, hdissents]
  simp

theorem State.claimItems_of_dissenting {s : State} (hdissents : s.line.dissenting = true) : s.claimItems = [] := by
  rw [State.claimItems, if_pos hdissents]

/-! ### The cold opening (R7) -/

/-- The station with its view UNCLEAN and its cold wait over. -/
def State.coldStarts (s : State) : State := s.modLine fun l => { l with clean := false, coldWait := none, coldDue := false }

theorem State.startCold_eq (s : State) : s.startCold = s.coldStarts.startTurn true true 0#16 := rfl

theorem State.startTurn_sending (s : State) (opening cold : Bool) (round : Word16) :
    (s.startTurn opening cold round).line.sending = some (.turn (s.buildTurn opening round) cold s.turnerOk) := rfl

theorem State.coldExpires_of_idle {s : State} (hlistening : s.line.state = .listening)
    (hwait : s.line.coldWait.isSome = true) : s.coldExpires = if s.maySend then s.startCold
      else s.modLine fun l => { l with coldWait := none, coldDue := true } := by
  rw [State.coldExpires, if_pos (by simp [hlistening, hwait])]

/-! ### The round opening event (R11, R13) -/

@[simp] theorem State.countRound_line (s : State) : s.countRound.line = s.line := by simp

/-- The round opening event at a MEMBER: the view is judged by the record of the round that ends. -/
theorem State.openRound_line_of_member {s : State} (hmember : s.line.state = .member) : s.openRound.line = { s.line with
    clean := s.line.record.unmarked
    record := { dissent := s.line.dissenting, isolation := s.line.isolated }
    roundPart := .turns, turnTaken := false, newcomers := [], joinBlocked := false } := by
  unfold State.openRound
  rw [State.countRound_line, State.muteDown, if_neg (by simp [State.judgeView, State.modLine, hmember])]
  simp [State.judgeView, State.modLine, hmember]

/-! ### A cold opening read back (R4, R7) -/

theorem applyList_marks (s : State) (sender : Nat) (a : Applied) :
    (s.listFaults sender a).line.record.notMember = s.line.record.notMember := by
  have hfaults : (a.conflicts.foldl (fun t c => t.recordFault .claimConflict (some sender) (some c)) s).line = s.line := by
    induction a.conflicts generalizing s with
    | nil => rfl
    | cons c r ih => exact ih _
  unfold State.listFaults
  dsimp only
  split
  · exact congrArg (·.record.notMember) hfaults
  · exact congrArg (·.record.notMember) hfaults

/-- The content of an own frame sets no mark but that of an overflow. -/
theorem State.ownContent_notMember (s : State) (f : TurnFrame) (ok : Bool) :
    (s.ownContent f ok).line.record.notMember = s.line.record.notMember := by
  simp [State.ownContent, State.applyClaims, State.setClaims, applyList_marks]

/-- The station that has become MEMBER by its cold opening, before round 0 is opened. -/
def State.coldEntered (s : State) : State :=
  (s.ownEnd.mark fun r => { r with notMember := true }).becomeMember.modLine fun l =>
    { l with round := 0#16, dissenting := false }

/-- Round 0 is opened, with the own turn taken in it. -/
def State.coldMember (s : State) : State :=
  s.coldEntered.openRound.openingTime.modLine fun l => { l with turnTaken := true }

theorem State.coldRead_eq (s : State) (f : TurnFrame) (ok : Bool) :
    s.coldRead f ok = (s.coldMember.ownContent f ok).takeSender (some f.sender) := rfl

theorem State.coldEntered_line (s : State) : s.coldEntered.line.state = .member ∧ s.coldEntered.line.round = 0#16
    ∧ s.coldEntered.line.record.unmarked = false ∧ s.coldEntered.line.aborts = 0
    ∧ s.coldEntered.line.dissenting = false ∧ s.coldEntered.line.sending = none := by
  unfold State.coldEntered
  refine ⟨?_, rfl, ?_, ?_, rfl, ?_⟩
  · rw [State.modLine]
    exact State.becomeMember_state _
  all_goals simp [State.modLine, State.ownEnd, State.stopSending, RoundRecord.unmarked]

theorem State.coldMember_line (s : State) : s.coldMember.line.state = .member ∧ s.coldMember.line.round = 0#16
    ∧ s.coldMember.line.clean = false ∧ s.coldMember.line.record.notMember = false ∧ s.coldMember.line.aborts = 0
    ∧ s.coldMember.line.dissenting = false ∧ s.coldMember.line.sending = none
    ∧ s.coldMember.line.sinceOpening = some 0 := by
  obtain ⟨hmember, hround, hmarked, haborts, hdissent, hquiet⟩ := s.coldEntered_line
  have hopens := State.openRound_line_of_member hmember
  unfold State.coldMember State.modLine State.openingTime State.modLine
  simp only [hopens]
  exact ⟨hmember, hround, hmarked, trivial, haborts, hdissent, hquiet, trivial⟩

/-- Settles O14, by the start of the cold opening and by its read-back. -/
theorem coldOpeningMakesMember : Obligations.ColdOpeningMakesMember := by
  refine ⟨fun s hlistening hwait => ⟨fun hsend => ?sent, fun hbusy => ?waits⟩, fun s f ok hsending => ?readBack⟩
  case sent =>
    have hexec : exec .coldWaitExpiry s = .next s.startCold := by
      show Host.Outcome.next s.coldExpires = _
      rw [State.coldExpires_of_idle hlistening hwait, if_pos hsend]
    obtain ⟨_, hentries⟩ := s.coldStarts.buildTurn_claims_entries true 0#16
    rw [State.entryItems_of_unclean rfl, List.prefix_nil] at hentries
    refine ⟨_, _, _, hexec, s.coldStarts.startTurn_sending true true 0#16, rfl, rfl, rfl, rfl, rfl, rfl, hentries, ?_, ?_,
      ?_, State.eq_of_fields (by simp)⟩
    · rw [State.startCold_eq]
      simp [State.coldStarts, State.modLine]
    · rw [State.startCold_eq]
      simp [State.coldStarts, State.modLine]
    · simp [hlistening]
  case waits =>
    show Host.Outcome.next s.coldExpires = _
    rw [State.coldExpires_of_idle hlistening hwait, hbusy]
    rfl
  case readBack =>
    have hexec : exec .coldOpeningReadBack s = .next (s.coldRead f ok) := by
      show execColdOpeningReadBack s = _
      rw [execColdOpeningReadBack, hsending]
    obtain ⟨hmember, hround, hclean, hmark, haborts, hdissent, hquiet, hopening⟩ := s.coldMember_line
    refine ⟨_, hexec, ?_, ?_, ?_, ?_, ?_, ?_, ?_, ?_, ?_, by simp, by simp, by simp⟩
    all_goals rw [State.coldRead_eq]
    · simpa using hmember
    · simpa using hround
    · simpa using hclean
    · simpa [State.ownContent_notMember] using hmark
    · simpa using haborts
    · simpa using hdissent
    · simpa using hquiet
    · simpa using hopening
    · exact State.takeSender_lastSender _ _

end Sys2Proof.Machine

/-! ## Proofs: the own turn (R12, R13, R15, R31, R46) -/

namespace Sys2Proof.Machine

/-! ### The opening instant -/

theorem State.foldl_offerRound_own (l : List (Fin 6)) (s : State) :
    (l.foldl (fun t c => t.offerRound c) s).own = s.own := by
  induction l generalizing s with
  | nil => rfl
  | cons c r ih => exact (ih (s.offerRound c)).trans (by simp)

theorem State.countRound_own (s : State) :
    s.countRound.own = s.own.map fun o => { o with age := raise 4095 o.age } := by
  unfold State.countRound
  simp only [State.serve_frame, State.foldl_offerRound_own]

theorem State.openRound_own (s : State) :
    s.openRound.own = s.own.map fun o => { o with age := raise 4095 o.age } := by
  unfold State.openRound
  rw [State.countRound_own]
  simp

/-- The MEMBER that opens a round, its times at the opening instant. -/
def State.ownRound (s : State) (k : Nat) : State := (s.atOpening k).ownOpening

theorem State.ownRound_line {s : State} (hmember : s.line.state = .member) (k : Nat) :
    (s.ownRound k).line.state = .member ∧ (s.ownRound k).line.round = s.line.round + 1
      ∧ (s.ownRound k).line.clean = s.line.record.unmarked
      ∧ (s.ownRound k).line.record = { isolation := s.line.isolated } ∧ (s.ownRound k).line.dissenting = false := by
  have hopens := State.openRound_line_of_member
    (s := (s.atOpening k).modLine fun l => { l with round := l.round + 1, dissenting := false }) hmember
  unfold State.ownRound State.ownOpening
  rw [hopens]
  exact ⟨hmember, rfl, rfl, rfl, rfl⟩

theorem State.ownRound_own (s : State) (k : Nat) :
    (s.ownRound k).own = s.own.map fun o => { o with age := raise 4095 o.age } := by
  unfold State.ownRound State.ownOpening
  rw [State.openRound_own]
  simp

theorem State.opens_of_place {s : State} {k : Nat} (hmember : s.line.state = .member) (hsend : s.maySend = true)
    (hbefore : s.beforeOpening = true) (hplace : s.openingPlace = some k) (hsilent : k = 0 ∨ s.silentSinceO = true) :
    s.opens = (s.atOpening k).startOpening := by
  unfold State.opens
  rw [hplace]
  refine if_pos ?_
  simpa [hmember, hsend, hbefore] using hsilent

/-- An opening frame started, with where it began. -/
def State.openingSent (s : State) (b : FrameStart) : State :=
  (s.startTurn true false s.line.round).modLine fun l => { l with onLine := some b }

theorem State.startOpening_eq (s : State) : s.startOpening = s.ownOpening.openingSent s.frameStart := by
  unfold State.startOpening State.openingSent
  rfl

theorem State.openingSent_line (s : State) (b : FrameStart) : (s.openingSent b).line = { s.line with
    sending := some (.turn (s.buildTurn true s.line.round) false s.turnerOk), turnTaken := true, onLine := some b
    joinBlocked := s.line.joinBlocked || s.position == .inWindow } := by
  simp [State.openingSent, State.modLine, State.startTurn, State.startFrame]

theorem State.openingSent_own (s : State) (b : FrameStart) :
    (s.openingSent b).own.map (·.age) = s.own.map (·.age) ∧ (s.openingSent b).own.map (·.state) = s.own.map (·.state) := by
  simp [State.openingSent, State.modLine, State.startTurn]

theorem State.buildTurn_header (s : State) (opening : Bool) (round : Word16) :
    (s.buildTurn opening round).opening = opening ∧ (s.buildTurn opening round).round = round
      ∧ (s.buildTurn opening round).sender = s.cfg.address ∧ (s.buildTurn opening round).digest = s.cfg.settingsDigest
      ∧ (s.buildTurn opening round).count = s.book.count := ⟨rfl, rfl, rfl, rfl, rfl⟩

/-- Settles O17, by the round's opening event and the frame started after it. -/
theorem openingInstantOpensRound : Obligations.OpeningInstantOpensRound := by
  intro s k hmember hsend hbefore hplace hsilent
  have hexec : exec .openingInstantReached s = .next ((s.ownRound k).openingSent (s.atOpening k).frameStart) := by
    show Host.Outcome.next s.opens = _
    rw [State.opens_of_place hmember hsend hbefore hplace hsilent, State.startOpening_eq, ← State.ownRound]
  obtain ⟨hstate, hround, hclean, hrecord, hdissent⟩ := State.ownRound_line hmember k
  have hown : (s.ownRound k).own = s.own.map fun o => { o with age := raise 4095 o.age } := s.ownRound_own k
  have htables : (s.ownRound k).claims = s.claims ∧ (s.ownRound k).peers = s.peers ∧ (s.ownRound k).cfg = s.cfg := by
    simp [State.ownRound]
  obtain ⟨hclaims, hpeers, hcfg⟩ := htables
  generalize s.ownRound k = r, (s.atOpening k).frameStart = b at *
  obtain ⟨hage, hkept⟩ := r.openingSent_own b
  obtain ⟨hopening, hnumber, hsender, _⟩ := r.buildTurn_header true r.line.round
  have hline := r.openingSent_line b
  refine ⟨_, r.buildTurn true r.line.round, r.turnerOk, hexec, ?_, hopening, hnumber.trans hround, hsender.trans (by rw [hcfg]),
    ?_, ?_, ?_, ?_, ?_, ?_, ?_, ?_, ?_, ?_⟩
  · rw [hline]
  · rw [hline]
    exact hround
  · rw [hline]
    exact hclean
  · rw [hline]
    exact hrecord
  · rw [hline]
    exact hdissent
  · rw [hline]
  · rw [hline]
    exact hstate
  · rw [hage, hown]
    simp [raise]
  · rw [hkept, hown]
    simp
  · simpa [State.openingSent] using hclaims
  · simpa [State.openingSent] using hpeers

/-! ### The claim items of a frame (R31, R46) -/

/-- An item without its take and its shed flag, which its judgment sets. -/
def itemDraft (i : ClaimItem) : ClaimItem := { i with hold := false, shed := false }

/-- The claim items of a frame, each judged in the table as the items before it leave it (R31). -/
def State.judged (s : State) (all : List ClaimItem) : Applied → List (OwnClaim × ClaimItem) → List ClaimItem
  | _, [] => []
  | a, x :: r =>
    s.judgeItem a x.1 x.2
      :: s.judged all (applyItem s.cfg s.turnerOk s.claims s.cfg.address all a (s.judgeItem a x.1 x.2)) r

theorem State.foldl_giveItem (s : State) (all : List ClaimItem) (l : List (OwnClaim × ClaimItem)) (a : Applied)
    (acc : List ClaimItem) : (l.foldl (s.giveItem s.claims all) (a, acc)).2 = acc ++ s.judged all a l := by
  induction l generalizing a acc with
  | nil => simp [State.judged]
  | cons x r ih =>
    rw [List.foldl_cons, State.giveItem, ih, State.judged, List.append_assoc]
    rfl

theorem State.claimItems_eq {s : State} (hagrees : s.line.dissenting = false) : s.claimItems =
    s.judged (s.drafts.map (·.2)) (removalStep s.cfg.address (s.drafts.map (·.2)) s.claims) s.drafts := by
  rw [State.claimItems, hagrees, if_neg Bool.false_ne_true, State.foldl_giveItem, List.nil_append]

/-- Each item is judged at its point in the list. -/
theorem State.judged_split {s : State} {all : List ClaimItem} {l : List (OwnClaim × ClaimItem)} {a : Applied}
    {pre : List ClaimItem} {i : ClaimItem} {post : List ClaimItem} (hsplit : s.judged all a l = pre ++ i :: post) :
    ∃ x ∈ l, i = s.judgeItem (pre.foldl (applyItem s.cfg s.turnerOk s.claims s.cfg.address all) a) x.1 x.2 := by
  induction l generalizing a pre with
  | nil => simp [State.judged] at hsplit
  | cons x r ih =>
    cases pre with
    | nil =>
      injection hsplit with hfirst _
      exact ⟨x, List.mem_cons_self, hfirst.symm⟩
    | cons j pre =>
      injection hsplit with hfirst hrest
      obtain ⟨y, hy, heq⟩ := ih hrest
      rw [hfirst] at heq
      exact ⟨y, List.mem_cons_of_mem x hy, heq⟩

theorem State.judged_drafts (s : State) (all : List ClaimItem) (a : Applied) (l : List (OwnClaim × ClaimItem)) :
    (s.judged all a l).map itemDraft = (l.map (·.2)).map itemDraft := by
  induction l generalizing a with
  | nil => rfl
  | cons x r ih =>
    rw [State.judged, List.map_cons, ih]
    rfl

/-! The table that a list is applied to does not see the judgments: only each item's identity, merge and resource. -/

theorem namedBy_draft (sender : Nat) (l : List ClaimItem) (k : Nat) :
    namedBy sender (l.map itemDraft) k = namedBy sender l k := by
  simp only [namedBy, List.any_map]
  rfl

theorem find_draft (p : ClaimItem → Bool) (hp : ∀ i, p (itemDraft i) = p i) (l : List ClaimItem) :
    (l.map itemDraft).find? p = (l.find? p).map itemDraft := by
  have hcomp : p ∘ itemDraft = p := funext hp
  rw [List.find?_map, hcomp]

theorem firstMerging_draft (sender : Nat) (l : List ClaimItem) (i : ClaimItem) (k : Nat) :
    firstMerging sender (l.map itemDraft) i k = firstMerging sender l i k := by
  rw [firstMerging, find_draft _ fun _ => rfl, Option.map_map]
  rfl

theorem mergedTopUp_draft (before : List ClaimEntry) (sender : Nat) (l : List ClaimItem) (i : ClaimItem) :
    mergedTopUp before sender (l.map itemDraft) i = mergedTopUp before sender l i := by
  unfold mergedTopUp
  simp only [namedBy_draft, firstMerging_draft]

theorem foldTopUp_draft (before : List ClaimEntry) (sender : Nat) (l : List ClaimItem) :
    foldTopUp before sender (l.map itemDraft) = foldTopUp before sender l := by
  funext e
  unfold foldTopUp
  rw [find_draft _ fun _ => rfl]
  cases l.find? fun i => itemKey sender i == e.key with
  | none => rfl
  | some i =>
    simp only [Option.map_some, mergedTopUp_draft]
    rfl

theorem removalStep_draft (sender : Nat) (l : List ClaimItem) (t : List ClaimEntry) :
    removalStep sender (l.map itemDraft) t = removalStep sender l t := by
  have hkept : keptBy sender (l.map itemDraft) = keptBy sender l := by
    funext e
    rw [keptBy, namedBy_draft]
    rfl
  rw [removalStep, hkept, foldTopUp_draft]
  rfl

theorem applyItem_draft (cfg : Settings) (ok : Bool) (before : List ClaimEntry) (sender : Nat) (l : List ClaimItem) :
    applyItem cfg ok before sender (l.map itemDraft) = applyItem cfg ok before sender l := by
  funext a i
  unfold applyItem itemState isTake
  simp only [mergedTopUp_draft]

/-- Lists with the same drafts are applied alike. -/
theorem applied_of_drafts {l m : List ClaimItem} (h : l.map itemDraft = m.map itemDraft) (cfg : Settings)
    (ok : Bool) (sender : Nat) (t : List ClaimEntry) : removalStep sender l t = removalStep sender m t
      ∧ applyItem cfg ok t sender l = applyItem cfg ok t sender m :=
  ⟨by rw [← removalStep_draft sender l, h, removalStep_draft],
    by rw [← applyItem_draft cfg ok t sender l, h, applyItem_draft]⟩

theorem State.claimItems_length_le (s : State) : s.claimItems.length ≤ s.own.length := by
  cases hdissent : s.line.dissenting
  · have hlength := congrArg List.length (s.judged_drafts (s.drafts.map (·.2))
      (removalStep s.cfg.address (s.drafts.map (·.2)) s.claims) s.drafts)
    rw [State.claimItems_eq hdissent]
    simp only [List.length_map] at hlength
    rw [hlength, State.drafts, List.length_map]
    exact List.length_filter_le _ _
  · rw [State.claimItems_of_dissenting hdissent]
    exact Nat.zero_le _

/-! ### Room for the claim items (R3) -/

theorem encodeItem_claim_le (i : ClaimItem) : (encodeItem (.claim i)).length ≤ 8 := by
  have hdetail : (detailByte i.detail).length ≤ 1 := by
    unfold detailByte
    split <;> simp
  simp only [encodeItem, encodeItemBody, encodeClaim, bytes2, List.length_cons, List.length_append, List.length_nil]
  omega

/-- Claim items first in a body are all carried where there is room for 8 bytes of each. -/
theorem fitItems_claims {room : Nat} {l : List ClaimItem} (hroom : 8 * l.length ≤ room) (r : List Item) :
    ∃ rest, fitItems room (l.map .claim ++ r) = l.map .claim ++ rest ∧ rest <+: r := by
  induction l generalizing room with
  | nil => exact ⟨_, rfl, fitItems_prefix room r⟩
  | cons i l ih =>
    have hitem := encodeItem_claim_le i
    simp only [List.length_cons] at hroom
    obtain ⟨rest, hrest, hprefix⟩ := ih (room := room - (encodeItem (.claim i)).length) (by omega)
    refine ⟨rest, ?_, hprefix⟩
    rw [List.map_cons, List.cons_append, fitItems]
    rw [if_pos (by omega), hrest]
    rfl

/-- An own frame carries every claim item of a list that is no longer than it can be (R3, R28). -/
theorem State.buildTurn_claims {s : State} (hlength : s.own.length ≤ 18) (opening : Bool) (round : Word16) :
    (s.buildTurn opening round).claims = s.claimItems := by
  have hitems := s.claimItems_length_le
  obtain ⟨rest, hfit, hprefix⟩ := fitItems_claims (room := bodyRoom) (l := s.claimItems) (by unfold bodyRoom; omega)
    s.otherItems
  have hnone := prefix_of_cons rfl claimsOf_cons hprefix
  rw [s.claimsOf_otherItems, List.prefix_nil] at hnone
  show Sys2Proof.claimsOf (fitItems bodyRoom s.bodyItems) = _
  rw [State.bodyItems_eq, hfit, append_of_cons rfl claimsOf_cons, hnone, map_of_own (k := id) rfl claimsOf_cons fun _ => rfl,
    List.append_nil, List.map_id]

/-! ### The turn slot (R15) -/

/-- The MEMBER at its slot: the silence stands at it at least. -/
def State.atSlot (s : State) (p : Nat) : State := s.modLine fun l => { l with silence := max l.silence ((p + 1) * slot) }

theorem State.takesTurn_of_place {s : State} {p : Nat} (hmember : s.line.state = .member) (hsend : s.maySend = true)
    (hfree : s.line.turnTaken = false) (hturns : s.line.roundPart = .turns) (hplace : s.turnPlace = some p) :
    s.takesTurn = (s.atSlot p).startTurn false false s.line.round := by
  unfold State.takesTurn
  rw [hplace]
  exact if_pos (by simp [hmember, hsend, hfree, hturns])

/-- What a turn's start leaves of the line: where the frame began, and the frame. -/
theorem State.startTurn_line (s : State) (round : Word16) : (s.startTurn false false round).line = { s.line with
    sending := some (.turn (s.buildTurn false round) false s.turnerOk), turnTaken := true, onLine := some s.frameStart
    joinBlocked := s.line.joinBlocked || s.position == .inWindow } := by
  simp [State.startTurn, State.startFrame, State.modLine]

/-- The lists keep their items, and mark what the frame carries of them. -/
theorem State.startTurn_lists (s : State) (opening cold : Bool) (round : Word16) :
    let t := s.startTurn opening cold round
    let f := s.buildTurn opening round
    t.replies.map (·.item) = s.replies.map (·.item) ∧ (t.replies.filter (·.inFrame)).map (·.item) = f.replies
      ∧ t.castends.map (·.item) = s.castends.map (·.item) ∧ (t.castends.filter (·.inFrame)).map (·.item) = f.castends
      ∧ t.turner.turnends.map (·.item) = s.turner.turnends.map (·.item)
      ∧ (t.turner.turnends.filter (·.inFrame)).map (·.item) = f.turnends := by
  obtain ⟨hreplies, hcastends, hturnends⟩ := s.buildTurn_prefix opening round
  exact ⟨markFirst_items _ _, markFirst_of_prefix hreplies, markFirst_items _ _, markFirst_of_prefix hcastends,
    markFirst_items _ _, markFirst_of_prefix hturnends⟩

theorem State.startTurn_own (s : State) (opening cold : Bool) (round : Word16) :
    (s.startTurn opening cold round).own.map (fun o => { o with sent := .fresh })
        = s.own.map (fun o => { o with sent := .fresh })
      ∧ (s.startTurn opening cold round).own.map (·.state) = s.own.map (·.state) := by
  simp [State.startTurn]

/-- The item of an own claim: its HOLD is for what is HELD or may be taken, its shed flag for what may not (R31, R46). -/
theorem State.judgeItem_spec {s : State} {o : OwnClaim} {d : ClaimItem} (a : Applied) (hd : d = s.draftItem o) :
    let i := s.judgeItem a o d
    let ok := lawful s.cfg s.turnerOk a.table (entryOf s.cfg.address i .waiting i.shed)
    o.channel.val = i.channel ∧ o.slot = i.slot
      ∧ (i.hold = true → o.state = .held
          ∨ (o.state = .waiting ∧ s.line.clean = true ∧ s.line.record.isolation = false ∧ ok = true))
      ∧ (i.shed = true ↔ o.state ≠ .held ∧ (o.resource = .water ∨ o.resource = .power) ∧ 6 ≤ o.priority ∧ ok = false) := by
  intro i ok
  have hok : ok = lawful s.cfg s.turnerOk a.table (entryOf s.cfg.address d .waiting false) := rfl
  refine ⟨by rw [show i.channel = d.channel from rfl, hd]; rfl, by rw [show i.slot = d.slot from rfl, hd]; rfl,
    fun hhold => ?_, ?_⟩
  · have hhold' : (o.state == .held || (o.state == .waiting && s.mayTake && ok)) = true := hhold
    simpa [State.mayTake, and_assoc] using hhold'
  · have hshed : i.shed = (o.state != .held && (o.resource == .water || o.resource == .power) && 6 ≤ o.priority && !ok) := rfl
    rw [hshed]
    simp [and_assoc]

/-- Each item that a frame carries was judged in the table as the items before it leave it. -/
theorem State.claimItems_judged {s : State} {pre : List ClaimItem} {i : ClaimItem} {post : List ClaimItem}
    (hsplit : s.claimItems = pre ++ i :: post) :
    ∃ o ∈ s.own, i = s.judgeItem (pre.foldl (applyItem s.cfg s.turnerOk s.claims s.cfg.address s.claimItems)
      (removalStep s.cfg.address s.claimItems s.claims)) o (s.draftItem o) := by
  cases hdissent : s.line.dissenting
  · obtain ⟨hstart, hitem⟩ := applied_of_drafts (s.judged_drafts (s.drafts.map (·.2))
      (removalStep s.cfg.address (s.drafts.map (·.2)) s.claims) s.drafts) s.cfg s.turnerOk s.cfg.address s.claims
    rw [← State.claimItems_eq hdissent] at hstart hitem
    rw [State.claimItems_eq hdissent] at hsplit
    obtain ⟨x, hx, heq⟩ := State.judged_split hsplit
    obtain ⟨o, ho, rfl⟩ := List.mem_map.mp hx
    refine ⟨o, List.mem_of_mem_filter ho, ?_⟩
    rw [hstart, hitem]
    exact heq
  · rw [State.claimItems_of_dissenting hdissent] at hsplit
    exact absurd hsplit (by simp)

/-- Settles O18, by the frame as it is built and by the marks its start leaves. -/
theorem turnSlotSendsTurn : Obligations.TurnSlotSendsTurn := by
  intro s p hmember hsend hfree hturns hplace
  have hexec : exec .turnSlotReached s = .next ((s.atSlot p).startTurn false false s.line.round) := by
    show Host.Outcome.next s.takesTurn = _
    rw [State.takesTurn_of_place hmember hsend hfree hturns hplace]
  have hline := (s.atSlot p).startTurn_line s.line.round
  have hposition : (s.atSlot p).position = .inRound := by simp [State.position, State.atSlot, State.modLine, hturns]
  obtain ⟨hopening, hround, hsender, hdigest, hcount⟩ := (s.atSlot p).buildTurn_header false s.line.round
  obtain ⟨hclaims, hentries⟩ := (s.atSlot p).buildTurn_claims_entries false s.line.round
  obtain ⟨hfresh, hstates⟩ := (s.atSlot p).startTurn_own false false s.line.round
  obtain ⟨hreplies, hreplied, hcastends, hcast, hturnends, hturned⟩ := (s.atSlot p).startTurn_lists false false s.line.round
  refine ⟨_, (s.atSlot p).buildTurn false s.line.round, (s.atSlot p).turnerOk, hexec, ?_, hopening, hround, hsender, hdigest,
    hcount, ?_, fun hdissents => ⟨?_, ?_⟩, fun hunclean => ?_, ?_, ?_, ?_, ?_, hfresh, hreplies, hreplied, hcastends, hcast,
    hturnends, hturned, hstates, fun hlength => ⟨?_, fun pre i post hsplit => ?_⟩⟩
  · rw [hline]
  · rw [hline]
  · rwa [State.claimItems_of_dissenting (s := s.atSlot p) hdissents, List.prefix_nil] at hclaims
  · rwa [State.entryItems_of_dissenting (s := s.atSlot p) hdissents, List.prefix_nil] at hentries
  · rwa [State.entryItems_of_unclean (s := s.atSlot p) hunclean, List.prefix_nil] at hentries
  · rw [hline, hposition]
    simp [State.atSlot, State.modLine]
  · rw [hline]
    rfl
  · rw [hline]
    exact Nat.le_max_left _ _
  · exact State.eq_of_fields (by simp [State.atSlot, State.modLine, State.startTurn])
  · exact State.buildTurn_claims (s := s.atSlot p) hlength false s.line.round
  · rw [State.buildTurn_claims (s := s.atSlot p) hlength] at hsplit ⊢
    obtain ⟨o, ho, rfl⟩ := State.claimItems_judged hsplit
    exact ⟨o, ho, State.judgeItem_spec _ rfl⟩

end Sys2Proof.Machine

/-! ## Proofs: a frame at which no station is lost (R2 to R4, R16, R34)

What the header, the charges and the claims of a frame change where no charge reaches its third, and the turner is
another station's: the line, the Peer Table, the faults recorded, and the Claim Table. -/

namespace Sys2Proof.Machine

/-! ### The header and the charges -/

/-- The line, the Peer Table and the faults recorded have changed, and nothing else. -/
structure State.Noted (s t : State) : Prop where
  rest : t = { s with line := t.line, peers := t.peers, panel := t.panel }
  events : t.panel.events = s.panel.events
  overflow : t.panel.overflow = s.panel.overflow

theorem State.Noted.refl (s : State) : s.Noted s := ⟨rfl, rfl, rfl⟩

theorem State.Noted.trans {s t u : State} (hst : s.Noted t) (htu : t.Noted u) : s.Noted u := by
  refine ⟨?_, htu.events.trans hst.events, htu.overflow.trans hst.overflow⟩
  rw [htu.rest, hst.rest]

theorem State.Noted.of_line {s t : State} (h : t = { s with line := t.line }) : s.Noted t := by
  refine ⟨?_, ?_, ?_⟩
  all_goals rw [h]

theorem State.Noted.fields {s t : State} (h : s.Noted t) : t.tb = s.tb ∧ t.loader = s.loader ∧ t.cfg = s.cfg
    ∧ t.claims = s.claims ∧ t.own = s.own ∧ t.chans = s.chans ∧ t.turner = s.turner ∧ t.replies = s.replies
    ∧ t.castends = s.castends ∧ t.book = s.book ∧ t.elock = s.elock ∧ t.free = s.free ∧ t.pending = s.pending := by
  rw [h.rest]
  simp

theorem State.hearHeader_noted (s : State) (f : TurnFrame) : s.Noted (s.hearHeader f) := by
  unfold State.hearHeader
  dsimp only
  split
  · exact ⟨State.eq_of_fields (by simp), by simp, by simp⟩
  · exact ⟨State.eq_of_fields (by simp), by simp, by simp⟩

theorem State.charge_noted {s : State} {a : Nat} (hfew : (s.peer a).missed ≤ 1) : s.Noted (s.charge a) := by
  unfold State.charge
  split
  · exact .refl s
  · dsimp only
    rw [if_neg (by omega)]
    exact ⟨rfl, rfl, rfl⟩

/-- No station of a list reaches its third missed turn where each stands at 1 at most. -/
theorem State.chargeAll_noted {l : List Nat} (hl : ∀ a ∈ l, 1 ≤ a) (hnodup : l.Nodup) {s : State}
    (hfew : ∀ a ∈ l, (s.peer a).missed ≤ 1) : s.Noted (s.chargeAll l) := by
  induction l generalizing s with
  | nil => exact .refl s
  | cons a r ih =>
    obtain ⟨hnew, hrest⟩ := List.nodup_cons.mp hnodup
    refine (State.charge_noted (hfew a List.mem_cons_self)).trans
      (ih (fun b hb => hl b (List.mem_cons_of_mem a hb)) hrest fun b hb => ?_)
    rw [s.charge_peer_other (ne_of_mem_of_not_mem hb hnew) (hl a List.mem_cons_self) (hl b (List.mem_cons_of_mem a hb))]
    exact hfew b (List.mem_cons_of_mem a hb)

theorem State.chargedBy_nodup (s : State) (x : Nat) (opening : Bool) : (s.chargedBy x opening).Nodup := by
  unfold State.chargedBy
  split
  · exact (addresses_nodup.filter _).filter _
  · split
    · exact (s.ladder_nodup _).filter _
    · exact List.nodup_nil

theorem State.peer_missed_le {s : State} (hfew : ∀ p ∈ s.peers, p.missed ≤ 1) (a : Nat) : (s.peer a).missed ≤ 1 := by
  unfold State.peer
  rw [List.getD_eq_getElem?_getD]
  cases hp : s.peers[a - 1]? with
  | none => exact Nat.zero_le 1
  | some p => exact hfew p (List.mem_of_getElem? hp)

/-- The header of a frame clears its sender's count and raises none. -/
theorem State.hearHeader_missed_le {s : State} (hfew : ∀ p ∈ s.peers, p.missed ≤ 1) (f : TurnFrame) (a : Nat) :
    ((s.hearHeader f).peer a).missed ≤ 1 := by
  rw [State.hearHeader_peer, State.peer_modPeer]
  split
  · exact Nat.zero_le 1
  · exact s.peer_missed_le hfew a

/-- The state in which the header of an own frame has been taken and its charges made (R4, R16, R18). -/
def State.ownHeader (s : State) (f : TurnFrame) : State := (s.hearHeader f).chargeAll (s.chargedBy f.sender f.opening)

theorem State.ownHeader_noted {s : State} (hfew : ∀ p ∈ s.peers, p.missed ≤ 1) (f : TurnFrame) : s.Noted (s.ownHeader f) :=
  (s.hearHeader_noted f).trans (State.chargeAll_noted (fun _ ha => (State.lt_of_mem_chargedBy ha).2)
    (s.chargedBy_nodup _ _) fun a _ => State.hearHeader_missed_le hfew f a)

/-- The state in which the header of another station's frame has been taken and its charges made (R2, R16, R18, R22). -/
def State.otherHeader (s : State) (f : TurnFrame) : State :=
  ((s.hearHeader f).heardOther).chargeAll (s.chargedBy f.sender f.opening)

theorem State.otherHeader_noted {s : State} (hfew : ∀ p ∈ s.peers, p.missed ≤ 1) (f : TurnFrame) :
    s.Noted (s.otherHeader f) := by
  have hheard : (s.hearHeader f).heardOther = { s.hearHeader f with line := (s.hearHeader f).heardOther.line } :=
    State.eq_of_fields (by simp)
  refine ((s.hearHeader_noted f).trans (.of_line hheard)).trans (State.chargeAll_noted
    (fun _ ha => (State.lt_of_mem_chargedBy ha).2) (s.chargedBy_nodup _ _) fun a _ => ?_)
  rw [State.peer_of_peers (s := s.hearHeader f) (by simp)]
  exact State.hearHeader_missed_le hfew f a

/-! ### The claims of a frame, with the turner elsewhere -/

theorem State.listFaults_noted (s : State) (sender : Nat) (a : Applied) : s.Noted (s.listFaults sender a) := by
  have hconflicts (l : List Nat) (t : State) :
      t.Noted (l.foldl (fun t c => t.recordFault .claimConflict (some sender) (some c)) t) := by
    induction l generalizing t with
    | nil => exact .refl t
    | cons c r ih =>
      have hfault : t.Noted (t.recordFault .claimConflict (some sender) (some c)) := ⟨rfl, rfl, rfl⟩
      exact hfault.trans (ih _)
  unfold State.listFaults
  dsimp only
  split
  · exact (hconflicts a.conflicts s).trans ⟨rfl, rfl, rfl⟩
  · exact hconflicts a.conflicts s

theorem State.reportAll_of_away {s : State} (haway : s.cfg.homeTurner = false) (l : List TurnerReport) :
    s.reportAll l = s := by
  induction l with
  | nil => rfl
  | cons r rest ih =>
    have hreport : s.report r = s := by
      unfold State.report
      rw [haway, if_neg Bool.false_ne_true]
    rw [State.reportAll, List.foldl_cons, hreport]
    exact ih

/-- The table as the frame's claims leave it. -/
def State.heardClaims (s : State) (sender : Nat) (items : List ClaimItem) (ok : Bool) : List ClaimEntry :=
  posted s.cfg (applyList s.cfg ok sender items s.claims).table

/-- On a station that is not the home station the claims of a frame change the table and the faults recorded alone. -/
theorem State.applyClaims_of_away {s : State} (haway : s.cfg.homeTurner = false) (sender : Nat) (items : List ClaimItem)
    (ok : Bool) : (s.applyClaims sender items ok).claims = s.heardClaims sender items ok
      ∧ s.Noted { s.applyClaims sender items ok with claims := s.claims } := by
  have hnoted := s.listFaults_noted sender (applyList s.cfg ok sender items s.claims)
  obtain ⟨_, _, hcfg, _⟩ := hnoted.fields
  unfold State.applyClaims State.setClaims
  dsimp only
  rw [hcfg, State.reportAll_of_away (hcfg ▸ haway)]
  exact ⟨rfl, State.eq_of_fields (by simp), hnoted.events, hnoted.overflow⟩

end Sys2Proof.Machine

/-! ## Proofs: the read-back of an own TURN frame (R4, R32) -/

namespace Sys2Proof.Machine

/-! ### The own claims brought up to date -/

/-- Bringing a claim up to date looks at the table and the own address alone. -/
theorem State.broughtUp_of_claims {s t : State} (hclaims : t.claims = s.claims) (hcfg : t.cfg = s.cfg) :
    t.broughtUp = s.broughtUp := by
  funext items o
  simp only [State.broughtUp, State.entryOfOwn, hclaims, hcfg]

/-- The state with the merges of the frame completed (R41). -/
def State.mergedOwn (s : State) : State := channels.foldl (fun t c => t.applyMerge c) s

theorem State.mergedOwn_rest (s : State) : s.mergedOwn = { s with own := s.mergedOwn.own } := by
  have hfold (l : List (Fin 6)) (t : State) : l.foldl (fun t c => t.applyMerge c) t =
      { t with own := (l.foldl (fun t c => t.applyMerge c) t).own } := by
    induction l generalizing t with
    | nil => rfl
    | cons c r ih =>
      have hone : t.applyMerge c = { t with own := (t.applyMerge c).own } := State.eq_of_fields (by simp)
      rw [List.foldl_cons, ih, hone]
  exact hfold channels s

theorem State.updateOwn_own (s : State) (items : List ClaimItem) :
    (s.updateOwn items).own = s.mergedOwn.own.map (s.broughtUp items) := by
  have hsame : s.mergedOwn.broughtUp = s.broughtUp := by
    rw [s.mergedOwn_rest]
    exact State.broughtUp_of_claims rfl rfl
  unfold State.updateOwn
  dsimp only
  refine (foldl_own _ _ _ fun t c => by simp).trans ((foldl_own _ _ _ fun t o => by simp).trans ?_)
  rw [← hsame]
  rfl

theorem State.applyMerge_of_none {s : State} (hnone : ∀ o ∈ s.own, o.sent ≠ .merged) (c : Fin 6) : s.applyMerge c = s := by
  have htop : (s.claimsOf c).find? (fun o => o.sent == .merged) = none := by
    refine List.find?_eq_none.mpr fun o ho => ?_
    simpa using hnone o (List.mem_of_mem_filter ho)
  unfold State.applyMerge
  simp only [htop]
  split
  · next heq => cases heq
  · rfl

theorem State.mergedOwn_of_none {s : State} (hnone : ∀ o ∈ s.own, o.sent ≠ .merged) : s.mergedOwn = s := by
  have hfold (l : List (Fin 6)) : l.foldl (fun t c => t.applyMerge c) s = s := by
    induction l with
    | nil => rfl
    | cons c r ih => rw [List.foldl_cons, State.applyMerge_of_none hnone, ih]
  exact hfold channels

theorem State.broughtUp_fields (s : State) (items : List ClaimItem) (o : OwnClaim) :
    (s.broughtUp items o).channel = o.channel ∧ (s.broughtUp items o).slot = o.slot
      ∧ (s.broughtUp items o).resource = o.resource ∧ (s.broughtUp items o).amount = o.amount
      ∧ (s.broughtUp items o).priority = o.priority := by
  unfold State.broughtUp updatedClaim
  cases o.sent <;> dsimp only <;> (repeat' split) <;> simp

theorem State.broughtUp_of_take {o : OwnClaim} (htake : o.sent = .take) (s : State) (items : List ClaimItem) :
    (s.broughtUp items o).state = .held ∧ (s.broughtUp items o).age = 0 ∧ (s.broughtUp items o).voided = false
      ∧ (s.broughtUp items o).restartAsk = false := by
  simp only [State.broughtUp, htake, and_self]

theorem State.broughtUp_of_gone {s : State} {o : OwnClaim} (hwait : o.sent = .wait) (hgone : s.entryOfOwn o = none)
    (items : List ClaimItem) : (s.broughtUp items o).state = .asked := by
  simp [State.broughtUp, hwait, hgone, updatedClaim]

theorem State.broughtUp_of_placed {s : State} {o : OwnClaim} (hwait : o.sent = .wait)
    (hplaced : (s.entryOfOwn o).isSome = true) (hasked : o.state = .asked) (items : List ClaimItem) :
    (s.broughtUp items o).state = .waiting := by
  unfold State.broughtUp updatedClaim
  simp only [hwait, hplaced, Bool.not_true, Bool.false_eq_true, if_false]
  split <;> simp [hasked]

theorem State.broughtUp_of_fresh {o : OwnClaim} (hfresh : o.sent = .fresh) (s : State) (items : List ClaimItem) :
    s.broughtUp items o = o := by
  simp only [State.broughtUp, hfresh]

/-! ### The steps of a read-back -/

/-- The line after the frame's end, with the opening time or the round number compared (R4, R13, R14). -/
def State.ownEnded (s : State) (f : TurnFrame) : State :=
  if f.opening then s.ownEnd.openingTime else s.ownEnd.compareRound f.round

/-- The claims of the frame have been applied to the own table (R34). -/
def State.ownListed (s : State) (f : TurnFrame) (ok : Bool) : State :=
  ((s.ownEnded f).ownHeader f).applyClaims f.sender f.claims ok

/-- What the frame carried has left its lists, and every own claim is up to date (R32). -/
def State.ownUpdated (s : State) (f : TurnFrame) (ok : Bool) : State :=
  ((s.ownListed f ok).updateOwn f.claims).removeCarried

theorem State.turnRead_eq (s : State) (f : TurnFrame) (ok : Bool) : s.turnRead f ok =
    ((((s.ownUpdated f ok).transferItems f true).ownEntries f).serve).takeSender (some f.sender) := rfl

theorem exec_ownTurnReadBack {s : State} {f : TurnFrame} {ok : Bool} (hsending : s.line.sending = some (.turn f false ok)) :
    exec .ownTurnReadBack s = .next (s.turnRead f ok) := by
  show execOwnTurnReadBack s = _
  rw [execOwnTurnReadBack, hsending]

theorem State.ownEnded_line (s : State) (f : TurnFrame) : s.ownEnded f = { s with line := (s.ownEnded f).line } := by
  unfold State.ownEnded
  split <;> exact State.eq_of_fields (by simp)

theorem State.ownEnded_fields (s : State) (f : TurnFrame) : (s.ownEnded f).line.sending = none
    ∧ (s.ownEnded f).line.aborts = 0 ∧ (s.ownEnded f).line.silence = 0 ∧ (s.ownEnded f).line.onLine = none
    ∧ (s.ownEnded f).line.round = if f.opening = true then s.line.round else f.round := by
  unfold State.ownEnded
  split <;> simp [State.ownEnd, State.stopSending]

/-- A frame that carries claims alone: nothing of it is left to handle but the book's count. -/
theorem State.transferItems_of_none {f : TurnFrame} (hcarries : CarriesJust f [] [] [] []) (s : State) (own : Bool) :
    s.transferItems f own = s := by
  obtain ⟨hoffers, hreplies, hcastends, hturnends⟩ := hcarries
  simp [State.transferItems, hoffers, hreplies, hcastends, hturnends]

theorem State.ownEntries_of_none {f : TurnFrame} (hentries : f.entries = []) (s : State) : s.ownEntries f =
    (s.numberBook f.count).compareCount f.count false f.sender f.round := by
  rw [State.ownEntries, hentries]
  rfl

/-- Where no station is lost, what stands before the claims of an own frame are applied differs in the line, the Peer
Table and the faults recorded. -/
theorem State.ownHeader_ended_noted {s : State} (hfew : ∀ p ∈ s.peers, p.missed ≤ 1) (f : TurnFrame) :
    s.Noted ((s.ownEnded f).ownHeader f) := by
  have hended := s.ownEnded_line f
  refine (State.Noted.of_line hended).trans (State.ownHeader_noted ?_ f)
  rw [hended]
  exact hfew

theorem State.ownListed_of_away {s : State} (hfew : ∀ p ∈ s.peers, p.missed ≤ 1) (haway : s.cfg.homeTurner = false)
    (f : TurnFrame) (ok : Bool) : (s.ownListed f ok).claims = s.heardClaims f.sender f.claims ok
      ∧ s.Noted { s.ownListed f ok with claims := s.claims } := by
  have hheader := State.ownHeader_ended_noted hfew f
  obtain ⟨_, _, hcfg, hclaims, _⟩ := hheader.fields
  obtain ⟨hlisted, hnoted⟩ := State.applyClaims_of_away (s := (s.ownEnded f).ownHeader f) (hcfg ▸ haway) f.sender f.claims ok
  rw [hclaims] at hnoted
  refine ⟨hlisted.trans ?_, hheader.trans hnoted⟩
  simp only [State.heardClaims, hcfg, hclaims]

/-- The own claims after the read-back of a frame that carries claims alone. -/
theorem State.turnRead_own {f : TurnFrame} (hcarries : CarriesJust f [] [] [] []) (hentries : f.entries = []) (s : State)
    (ok : Bool) : (s.turnRead f ok).own = (s.ownListed f ok).mergedOwn.own.map ((s.ownListed f ok).broughtUp f.claims) := by
  rw [State.turnRead_eq, State.transferItems_of_none hcarries, State.ownEntries_of_none hentries]
  simp [State.ownUpdated, State.updateOwn_own]

theorem State.turnRead_peer_sender {s : State} {f : TurnFrame} (hlow : 1 ≤ f.sender) (hhigh : f.sender ≤ s.peers.length)
    (ok : Bool) : (s.turnRead f ok).peer f.sender = heardPeer (s.peer f.sender) f.home f.available := by
  have hended : (s.ownEnded f).peers = s.peers := by rw [s.ownEnded_line]
  have hpeers : (s.turnRead f ok).peer f.sender = ((s.ownEnded f).ownHeader f).peer f.sender :=
    State.peer_of_peers (by simp [State.turnRead_eq, State.ownUpdated, State.ownListed]) _
  rw [hpeers, State.ownHeader, State.chargedBy_peer_sender _ _ hlow, State.hearHeader_sender hlow (by rw [hended]; exact hhigh),
    State.peer_of_peers hended]

/-- Settles O21, by the steps of the read-back, and by the claims brought up to date with the table they leave. -/
theorem ownTurnReadBackTakesEffect : Obligations.OwnTurnReadBackTakesEffect := by
  refine ⟨fun s f ok hsending hlow hhigh => ?line, fun s f ok hsending hcarries hentries haway hfew hunmerged => ?claims⟩
  case line =>
    obtain ⟨hquiet, haborts, hsilence, honLine, hround⟩ := s.ownEnded_fields f
    have hpeer := State.turnRead_peer_sender hlow hhigh ok
    refine ⟨_, exec_ownTurnReadBack hsending, ?_, ?_, ?_, ?_, State.takeSender_lastSender _ _, ?_, ?_, ?_, ?_, ?_, by simp,
      by simp, by simp⟩
    · simpa [State.turnRead_eq, State.ownUpdated, State.ownListed, State.ownHeader] using hquiet
    · simpa [State.turnRead_eq, State.ownUpdated, State.ownListed, State.ownHeader] using haborts
    · simpa [State.turnRead_eq, State.ownUpdated, State.ownListed, State.ownHeader] using hsilence
    · simpa [State.turnRead_eq, State.ownUpdated, State.ownListed, State.ownHeader] using honLine
    · simpa [State.turnRead_eq, State.ownUpdated, State.ownListed, State.ownHeader] using hround
    · rw [hpeer]
      rfl
    · rw [hpeer]
      rfl
    · rw [hpeer]
      rfl
    · rw [hpeer]
      rfl
  case claims =>
    obtain ⟨hlisted, hnoted⟩ := State.ownListed_of_away hfew haway f ok
    obtain ⟨_, _, hcfg, _, hown, _⟩ := hnoted.fields
    have htable : (s.turnRead f ok).claims = (s.ownListed f ok).claims := by simp [State.turnRead_eq, State.ownUpdated]
    have hbrought : (s.turnRead f ok).broughtUp = (s.ownListed f ok).broughtUp :=
      State.broughtUp_of_claims htable (by simp [State.turnRead_eq, State.ownUpdated])
    have hmerged : (s.ownListed f ok).mergedOwn.own = s.own := by
      rw [State.mergedOwn_of_none, ← hown]
      intro o ho
      exact (hunmerged o (hown ▸ ho)).1
    refine ⟨_, exec_ownTurnReadBack hsending, htable.trans hlisted, ?_, fun o _ => ?_⟩
    · rw [State.turnRead_own hcarries hentries, hmerged, hbrought]
    · generalize (s.turnRead f ok) = t
      obtain ⟨hchannel, hslot, _, hamount, _⟩ := t.broughtUp_fields f.claims o
      refine ⟨hchannel, hslot, fun htake => ?_, fun hwait hgone => State.broughtUp_of_gone hwait hgone _,
        fun hwait hplaced hasked => State.broughtUp_of_placed hwait hplaced hasked _,
        fun hfresh => State.broughtUp_of_fresh hfresh t _⟩
      obtain ⟨hheld, hage, hunvoided, _⟩ := State.broughtUp_of_take htake t f.claims
      exact ⟨hheld, hage, hunvoided, hamount⟩

end Sys2Proof.Machine

/-! ## Proofs: the limits of a transfer, and what the Panel Port takes (R133, R142, R178, R179) -/

namespace Sys2Proof.Machine

/-! ### Orphans and unanswered offers -/

/-- The channel to which a piece has come (R139 steps 1 to 4). -/
def placedChannel (h : Channel) (content : Piece) (orphan : Bool) : Channel :=
  { h with
    piece := some (arrivedPiece content h.xfer.loadout orphan), completedHere := false, lastEnd := none, xfer := {} }

@[simp] theorem State.placePiece_ch_self (s : State) (c : Fin 6) (content : Piece) (orphan : Bool) :
    (s.placePiece c content orphan).ch c = placedChannel (s.ch c) content orphan := by
  simp [State.placePiece, placedChannel]

/-- The state a channel takes with an orphan: PAUSED from READY, STARVED from IDLE, else the one it has (R142). -/
def orphanedChannel (h : Channel) : Channel :=
  match h.state with
  | .ready => pausedChannel h .orphan none
  | .idle => { h with state := .starved, pause := none, resume := none }
  | _ => h

theorem State.makeOrphan_of_copy {s : State} {c : Fin 6} {p : Piece} (hcopy : (s.ch c).xfer.copy = some p) (value : Nat) :
    s.makeOrphan c value = if (s.ch c).state = .ready then
        ((s.placePiece c p true).chEvent c .orphan [value, 0, 0, 0]).pause c .orphan none
      else ((s.placePiece c p true).chEvent c .orphan [value, 0, 0, 0]).settlePiece c := by
  have hstate : (((s.placePiece c p true).chEvent c .orphan [value, 0, 0, 0]).ch c).state = (s.ch c).state := by
    simp [placedChannel]
  unfold State.makeOrphan
  simp only [hcopy]
  rw [hstate]

theorem State.makeOrphan_ch_self {s : State} {c : Fin 6} {p : Piece} (hcopy : (s.ch c).xfer.copy = some p) (value : Nat) :
    (s.makeOrphan c value).ch c = orphanedChannel (placedChannel (s.ch c) p true) := by
  rw [State.makeOrphan_of_copy hcopy]
  cases hstate : (s.ch c).state
  all_goals simp [State.settlePiece, orphanedChannel, placedChannel, hstate]

theorem State.makeOrphan_book {s : State} {c : Fin 6} {p : Piece} (hcopy : (s.ch c).xfer.copy = some p) (value : Nat) :
    (s.makeOrphan c value).book = { s.book with received := raise 65535 s.book.received } := by
  rw [State.makeOrphan_of_copy hcopy]
  split
  · rfl
  · unfold State.settlePiece
    split <;> rfl

theorem orphanedChannel_fields (h : Channel) (p : Piece) :
    (orphanedChannel (placedChannel h p true)).piece = some (arrivedPiece p h.xfer.loadout true)
      ∧ (orphanedChannel (placedChannel h p true)).xfer = {} ∧ (orphanedChannel (placedChannel h p true)).lastEnd = none
      ∧ (orphanedChannel (placedChannel h p true)).state =
          (if h.state = .ready then .paused else if h.state = .idle then .starved else h.state)
      ∧ (orphanedChannel (placedChannel h p true)).pause =
          (if h.state = .ready then some .orphan else if h.state = .idle then none else h.pause) := by
  cases hstate : h.state
  all_goals simp [orphanedChannel, placedChannel, hstate, pausedChannel]

/-- Settles O26, by the orphan that the limit makes, and by the pause of the source. -/
theorem transferLimitsAct : Obligations.TransferLimitsAct := by
  refine ⟨fun s c p hruns hcopy => ?orphan, fun s c hvessel hcounts hlast => ?unanswered⟩
  case orphan =>
    have hexec : exec (.orphanAcceptLimit c) s = .next (s.makeOrphan c 2) := by
      show execOrphanAcceptLimit c s = _
      rw [execOrphanAcceptLimit, if_pos hruns]
    have hch := State.makeOrphan_ch_self hcopy 2
    obtain ⟨hpiece, hxfer, _, hstate, hpause⟩ := orphanedChannel_fields (s.ch c) p
    refine ⟨_, hexec, ?_, ?_, ?_, ?_, State.makeOrphan_book hcopy 2, State.eq_of_fields (by simp), fun d hd => by simp [hd]⟩
    · rw [hch, hpiece]
      rfl
    · rw [hch, hxfer]
    · rw [hch, hstate]
    · rw [hch, hpause]
  case unanswered =>
    have hexec : exec (.offerUnanswered c) s = .next (s.offerUnanswered c) := by
      show execOfferUnanswered c s = _
      rw [execOfferUnanswered, if_pos (by simp [hvessel, hcounts, hlast])]
    refine ⟨_, hexec, ?_, ?_, ?_, ?_, ?_, ?_, State.eq_of_fields (by simp), fun d hd => by simp [hd]⟩
    all_goals simp [State.offerUnanswered, pausedChannel]

/-! ### What the port takes -/

theorem State.channelRequest_of_busy {s : State} (hbusy : s.busy = true) (code : Byte) (n : Nat) (turner : State → State)
    (f : Fin 6 → State → State) : s.channelRequest code n turner f = .next s := State.request_of_busy hbusy _

theorem State.vesselRequest_of_busy {s : State} (hbusy : s.busy = true) (code : Byte) (n : Nat)
    (f : Fin 6 → State → State) : s.vesselRequest code n f = .next s := State.channelRequest_of_busy hbusy ..

theorem State.readChannel_of_busy {s : State} (hbusy : s.busy = true) (n : Nat) (f : Fin 6 → State → List Nat) :
    s.readChannel n f = .next s := State.request_of_busy hbusy _

theorem State.readIndex_of_busy {s : State} (hbusy : s.busy = true) (ok : Bool) (f : State → List Nat) :
    s.readIndex ok f = .next s := State.request_of_busy hbusy _

theorem exec_of_busy {i : Instr} {s : State} (hbusy : s.busy = true) (hrequest : panelRequest i = true) :
    exec i s = .next s := by
  cases i with
  | loadPhase a b => simp only [exec, execLoadPhase, State.vesselRequest_of_busy hbusy]
  | hold a => simp only [exec, execHold, State.vesselRequest_of_busy hbusy]
  | release a => simp only [exec, execRelease, State.vesselRequest_of_busy hbusy]
  | setStep a b => simp only [exec, execSetStep, State.vesselRequest_of_busy hbusy]
  | clearHalt a => simp only [exec, execClearHalt, State.channelRequest_of_busy hbusy]
  | channelReset a => simp only [exec, execChannelReset, State.vesselRequest_of_busy hbusy]
  | withdrawOffer a => simp only [exec, execWithdrawOffer, State.vesselRequest_of_busy hbusy]
  | discard a b => simp only [exec, execDiscard, State.vesselRequest_of_busy hbusy]
  | handGauge a b c d => simp only [exec, execHandGauge, State.vesselRequest_of_busy hbusy]
  | takeBook a => simp only [exec, execTakeBook, State.request_of_busy hbusy]
  | setRestartHold a => simp only [exec, execSetRestartHold, State.request_of_busy hbusy]
  | readStationStatus a => simp only [exec, execReadStationStatus, State.request_of_busy hbusy]
  | readChannelStatus a => simp only [exec, execReadChannelStatus, State.readChannel_of_busy hbusy]
  | readPhaseRecord a b => simp only [exec, execReadPhaseRecord, State.readChannel_of_busy hbusy]
  | readPieceRecord a => simp only [exec, execReadPieceRecord, State.readChannel_of_busy hbusy]
  | readCompletionRecord a b => simp only [exec, execReadCompletionRecord, State.readChannel_of_busy hbusy,
      State.request_of_busy hbusy, ite_self]
  | readClaimTableEntry a => simp only [exec, execReadClaimTableEntry, State.readIndex_of_busy hbusy]
  | readPeerTable => simp only [exec, execReadPeerTable, State.request_of_busy hbusy]
  | readBookEntry a => simp only [exec, execReadBookEntry, State.readIndex_of_busy hbusy]
  | readLineCounters => simp only [exec, execReadLineCounters, State.request_of_busy hbusy]
  | readPieceCounters => simp only [exec, execReadPieceCounters, State.request_of_busy hbusy]
  | clearChanges a => simp only [exec, execClearChanges, State.request_of_busy hbusy]
  | setAttentionMask a => simp only [exec, execSetAttentionMask, State.request_of_busy hbusy]
  | popEvent => simp only [exec, execPopEvent, State.request_of_busy hbusy]
  | readFault => simp only [exec, execReadFault, State.request_of_busy hbusy]
  | badRequest a => simp only [exec, execBadRequest, State.request_of_busy hbusy]
  | _ => cases hrequest

theorem raise_top : raise 65535 65535 = 65535 := rfl

/-- A counter at its top stays there when missed turns are charged (R23). -/
theorem State.chargeAll_missedTurns_top {s : State} (htop : s.line.missedTurns = 65535) (l : List Nat) :
    (s.chargeAll l).line.missedTurns = 65535 := by
  induction l generalizing s with
  | nil => exact htop
  | cons a r ih =>
    refine ih (s := s.charge a) ?_
    unfold State.charge
    split
    · exact htop
    · dsimp only
      split <;> simp [State.modLine, htop, raise, counterTop]

/-- Settles O39, by how a request is taken, and by the counters at their tops. -/
theorem portAnswersWhatItTakes : Obligations.PortAnswersWhatItTakes := by
  refine ⟨fun i s hbusy hrequest => exec_of_busy hbusy hrequest, fun s b l hfree => ⟨?code, ?cutShort⟩,
    fun s hfree => ?counters, fun s hhearing htop => ?failures, fun s other hsending htop => ?aborted,
    fun s x hhears hidle hturns hlast htop => ?missed⟩
  case code =>
    show execBadRequest (b :: l) s = _
    exact State.request_of_not_busy hfree _
  case cutShort =>
    have hexec : exec (.badRequest []) s =
        .next (({ s with free := s.free + 1 } : State).bad (Config.cutShortCode s.free)) := by
      show execBadRequest [] s = _
      exact State.request_of_not_busy hfree _
    exact ⟨_, hexec, rfl, rfl⟩
  case counters =>
    show execReadLineCounters s = _
    exact State.request_of_not_busy hfree _
  case failures =>
    have hexec : exec .garbledFrame s = .next s.hearGarbled := by
      show execGarbledFrame s = _
      rw [execGarbledFrame, if_pos hhearing]
    exact ⟨_, hexec, by rw [s.hearGarbled_counted.1, htop, raise_top]⟩
  case aborted =>
    obtain ⟨own, hown⟩ := Option.isSome_iff_exists.mp hsending
    obtain ⟨t, hexec, _, hcount, _⟩ := abortedFrameTakesNoEffect.1 s own other hown
    exact ⟨t, hexec, by rw [hcount, htop, if_neg (Nat.lt_irrefl _)]⟩
  case missed =>
    have hexec : exec .joinWindowOpens s = .next ((s.chargeAll (s.ladder x)).openWindow) := by
      show Host.Outcome.next s.windowBySilence = _
      simp [State.windowBySilence, hlast, hhears, hidle, hturns]
    exact ⟨_, hexec, State.chargeAll_missedTurns_top htop _⟩

end Sys2Proof.Machine

/-! ## Proofs: an arrival before the rules of its kind (R166 to R170, R67, R71, R29) -/

namespace Sys2Proof.Machine

/-! ### What is held does not see an ask (R29, R49, R50) -/

/-- The claims of a channel HELD on a resource. -/
def State.heldOn (s : State) (c : Fin 6) (r : Resource) : List OwnClaim :=
  s.own.filter fun o => o.channel == c && o.resource == r && o.state == .held

theorem State.hasHeld_eq (s : State) (c : Fin 6) (r : Resource) : s.hasHeld c r = !(s.heldOn c r).isEmpty := by
  rw [State.hasHeld, State.heldOn, Bool.eq_iff_iff]
  simp [List.filter_eq_nil_iff, and_assoc]

theorem State.heldAmount_eq (s : State) (c : Fin 6) (r : Resource) :
    s.heldAmount c r = total ((s.heldOn c r).map (·.amount)) := by
  have hfilter : (s.own.filter fun o => o.state == .held && (o.channel == c && o.resource == r)) = s.heldOn c r :=
    List.filter_congr fun o _ => Bool.and_comm _ _
  rw [State.heldAmount, State.claimsOn, List.filter_filter, hfilter]

theorem State.hasHeld_of_heldOn {s t : State} {c : Fin 6} {r : Resource} (h : t.heldOn c r = s.heldOn c r) :
    t.hasHeld c r = s.hasHeld c r := by rw [State.hasHeld_eq, h, ← State.hasHeld_eq]

theorem State.heldAmount_of_heldOn {s t : State} {c : Fin 6} {r : Resource} (h : t.heldOn c r = s.heldOn c r) :
    t.heldAmount c r = s.heldAmount c r := by rw [State.heldAmount_eq, h, ← State.heldAmount_eq]

theorem State.heldOn_of_own {s t : State} (h : t.own = s.own) (c : Fin 6) (r : Resource) :
    t.heldOn c r = s.heldOn c r := by rw [State.heldOn, h, ← State.heldOn]

/-- A claim of a new identity that a filter does not take leaves the rest of the list to it. -/
theorem insertOwn_filter {q : OwnClaim → Bool} {o : OwnClaim} {l : List OwnClaim} (hleft : q o = false)
    (hnew : ∀ x ∈ l, ¬ (x.channel = o.channel ∧ x.slot = o.slot)) : (insertOwn o l).filter q = l.filter q := by
  induction l with
  | nil => simp [insertOwn, hleft]
  | cons a r ih =>
    unfold insertOwn
    split
    · simp [hleft]
    · split
      · next hsame => exact absurd ⟨hsame.1.symm, hsame.2.symm⟩ (hnew a List.mem_cons_self)
      · rw [List.filter_cons, List.filter_cons, ih fun x hx => hnew x (List.mem_cons_of_mem a hx)]

theorem State.freeSlot_new {s : State} {c : Fin 6} {n : Nat} (hfree : s.freeSlot c = some n) :
    ∀ x ∈ s.own, ¬ (x.channel = c ∧ x.slot = n) := by
  have hslot : s.slotFree c n = true := List.find?_some hfree
  rw [State.slotFree, Option.isNone_iff_eq_none, State.ownAt, List.find?_eq_none] at hslot
  intro x hx hsame
  exact hslot x hx (by simp [hsame])

/-- A claim asked in a free slot leaves what any filter finds that takes no fresh claim. -/
theorem State.askAt_filter {s : State} {c : Fin 6} {n : Nat} (hfree : s.freeSlot c = some n) (a : Ask)
    {q : OwnClaim → Bool} (hleft : q (askedClaim c n a) = false) : (s.askAt c n a).own.filter q = s.own.filter q :=
  insertOwn_filter hleft (State.freeSlot_new hfree)

theorem State.ask_filter {c : Fin 6} {a : Ask} {q : OwnClaim → Bool} (hleft : ∀ n, q (askedClaim c n a) = false)
    (s : State) : (s.ask c a).own.filter q = s.own.filter q := by
  unfold State.ask
  split
  · next n hfree => exact State.askAt_filter hfree a (hleft n)
  · rfl

theorem State.repeatAsks_filter {c : Fin 6} {q : OwnClaim → Bool} (hleft : ∀ n a, q (askedClaim c n a) = false)
    (s : State) : (s.repeatAsks c).own.filter q = s.own.filter q := by
  have hfold (l : List Ask) (t : State) : (l.foldl (fun t a => t.ask c a) t).own.filter q = t.own.filter q := by
    induction l generalizing t with
    | nil => rfl
    | cons a r ih => exact (ih (t.ask c a)).trans (State.ask_filter (fun n => hleft n a) t)
  unfold State.repeatAsks
  split
  · rfl
  · exact hfold _ _

theorem State.repeatAsks_heldOn (s : State) (c d : Fin 6) (r : Resource) : (s.repeatAsks c).heldOn d r = s.heldOn d r :=
  State.repeatAsks_filter (fun n a => by simp [askedClaim]) s

/-- The asks of a channel go to the list or wait with the channel, which changes in nothing else. -/
theorem State.ask_ch (s : State) (c : Fin 6) (a : Ask) :
    ∃ l, (s.ask c a).ch c = { s.ch c with asksDue := l } := by
  unfold State.ask
  split
  · exact ⟨_, rfl⟩
  · exact ⟨_, by rw [State.ch_modCh_self]⟩

theorem State.foldl_ask_ch (c : Fin 6) (l : List Ask) (s : State) :
    ∃ due, (l.foldl (fun t a => t.ask c a) s).ch c = { s.ch c with asksDue := due } := by
  induction l generalizing s with
  | nil => exact ⟨_, rfl⟩
  | cons a r ih =>
    obtain ⟨due, hdue⟩ := ih (s.ask c a)
    obtain ⟨first, hfirst⟩ := s.ask_ch c a
    exact ⟨due, by rw [List.foldl_cons, hdue, hfirst]⟩

theorem State.repeatAsks_ch (s : State) (c : Fin 6) :
    ∃ due, (s.repeatAsks c).ch c = { s.ch c with asksDue := due } := by
  unfold State.repeatAsks
  split
  · exact ⟨_, rfl⟩
  · obtain ⟨due, hdue⟩ := State.foldl_ask_ch c (s.ch c).asksDue (s.modCh c fun h => { h with asksDue := [] })
    exact ⟨due, by rw [hdue, State.ch_modCh_self]⟩

/-- With no ask refused earlier there is nothing to repeat. -/
theorem State.repeatAsks_of_none {s : State} {c : Fin 6} (hnone : (s.ch c).asksDue = []) :
    (s.repeatAsks c).own = s.own ∧ (s.repeatAsks c).ch c = s.ch c := by
  unfold State.repeatAsks
  split
  · exact ⟨rfl, rfl⟩
  · rw [hnone]
    refine ⟨rfl, ?_⟩
    rw [List.foldl_nil, State.ch_modCh_self, ← hnone]

/-! ### The front end, the setpoint and the statistics -/

/-- The arrival's inputs are in and the setpoint is computed. -/
def State.arrived (s : State) (c : Fin 6) (raw : RawArrival) : State :=
  (s.sample c raw).modCh c fun h => setpointAtArrival { h with clock := some 0 }

/-- The arrival up to the rules of the channel's kind. -/
def State.ready (s : State) (c : Fin 6) (raw : RawArrival) : State := ((s.arrived c raw).accumulate c).repeatAsks c

theorem State.arrival_eq (s : State) (c : Fin 6) (raw : RawArrival) :
    s.arrival c raw = ((s.ready c raw).kindArrival c raw).judgeInputs c := rfl

theorem exec_measurementArrival {s : State} {c : Fin 6} (hlive : s.live = true) (hkind : (s.ch c).kind ≠ .unused)
    (raw : RawArrival) : exec (.measurementArrival c raw) s = .next (s.arrival c raw) := by
  show execMeasurementArrival c raw s = _
  rw [execMeasurementArrival, if_pos (by simp [State.arrives, hlive, hkind])]

theorem State.sample_ch_self (s : State) (c : Fin 6) (raw : RawArrival) :
    (s.sample c raw).ch c = sampledChannel (s.cfg.cal.get c) raw (s.ch c) := by
  unfold State.sample
  dsimp only
  rw [foldl_ch _ _ _ _ fun t i => t.sensorChange_ch c i _ _ c, State.ch_modCh_self]

/-- The channel as the front end and the setpoint leave it. -/
def arrivedChannel (cal : ChannelCal) (raw : RawArrival) (h : Channel) : Channel :=
  setpointAtArrival { sampledChannel cal raw h with clock := some 0 }

theorem State.arrived_ch_self (s : State) (c : Fin 6) (raw : RawArrival) :
    (s.arrived c raw).ch c = arrivedChannel (s.cfg.cal.get c) raw (s.ch c) := by
  rw [State.arrived, State.ch_modCh_self, State.sample_ch_self]
  rfl

/-- The channel is in the same phase and step, with the same clocks, piece and unit; the inputs, the setpoint, the
statistics, the asks kept and what a ramp starts from aside. -/
abbrev Channel.SameRun (h k : Channel) : Prop :=
  k.kind = h.kind ∧ k.state = h.state ∧ k.pause = h.pause ∧ k.resume = h.resume ∧ k.halt = h.halt ∧ k.wait = h.wait
    ∧ k.current = h.current ∧ k.started = h.started ∧ k.next = h.next ∧ k.timer = h.timer ∧ k.lastEnd = h.lastEnd
    ∧ k.due = h.due ∧ k.records = h.records ∧ k.piece = h.piece ∧ k.completed = h.completed
    ∧ k.completedHere = h.completedHere ∧ k.step = h.step ∧ k.standMark = h.standMark ∧ k.blower = h.blower
    ∧ k.blowerOn = h.blowerOn ∧ k.restEdges = h.restEdges ∧ k.steady = h.steady ∧ k.captures = h.captures
    ∧ k.limited = h.limited ∧ k.fanCommand = h.fanCommand ∧ k.firing = h.firing ∧ k.peat = h.peat ∧ k.flame = h.flame
    ∧ k.breakCount = h.breakCount ∧ k.readings = h.readings ∧ k.xfer = h.xfer ∧ k.stepFlag = h.stepFlag

theorem Channel.SameRun.trans {h k j : Channel} (hk : h.SameRun k) (hj : k.SameRun j) : h.SameRun j := by
  simp only [Channel.SameRun, hk, hj, and_self]

theorem takeRampStart_sameRun (h : Channel) : h.SameRun (takeRampStart h) := by
  unfold takeRampStart
  split <;> simp [Channel.SameRun]

theorem setpointAtArrival_sameRun (h : Channel) : h.SameRun (setpointAtArrival h) := by
  have hramp := takeRampStart_sameRun h
  unfold setpointAtArrival
  split
  · dsimp only
    split
    · exact hramp
    · exact hramp
  · simp [Channel.SameRun]

theorem arrivedChannel_sameRun (cal : ChannelCal) (raw : RawArrival) (h : Channel) :
    h.SameRun (arrivedChannel cal raw h) := by
  refine Channel.SameRun.trans (k := { sampledChannel cal raw h with clock := some 0 }) ?_ (setpointAtArrival_sameRun _)
  simp [Channel.SameRun, sampledChannel]

theorem State.accumulate_ch_self (s : State) (c : Fin 6) :
    ∃ x, (s.accumulate c).ch c = { s.ch c with stats := x } := by
  unfold State.accumulate
  split
  · exact ⟨_, by rw [State.ch_modCh_self]⟩
  · exact ⟨_, rfl⟩

/-- The channel at the rules of its kind: as the front end left it but for its statistics and its asks. -/
theorem State.ready_ch_self (s : State) (c : Fin 6) (raw : RawArrival) : ∃ x due,
    (s.ready c raw).ch c = { arrivedChannel (s.cfg.cal.get c) raw (s.ch c) with stats := x, asksDue := due } := by
  obtain ⟨due, hdue⟩ := ((s.arrived c raw).accumulate c).repeatAsks_ch c
  obtain ⟨x, hx⟩ := (s.arrived c raw).accumulate_ch_self c
  exact ⟨x, due, by rw [State.ready, hdue, hx, State.arrived_ch_self]⟩

theorem State.ready_sameRun (s : State) (c : Fin 6) (raw : RawArrival) : (s.ch c).SameRun ((s.ready c raw).ch c) := by
  obtain ⟨x, due, hch⟩ := s.ready_ch_self c raw
  rw [hch]
  exact arrivedChannel_sameRun _ raw _

theorem takeRampStart_mdActive (h : Channel) : (takeRampStart h).mdActive = h.mdActive := by
  unfold takeRampStart
  split <;> rfl

theorem setpointAtArrival_mdActive (h : Channel) : (setpointAtArrival h).mdActive = h.mdActive := by
  rw [← takeRampStart_mdActive h]
  unfold setpointAtArrival
  split
  · dsimp only
    split
    · rfl
    · rfl
  · exact (takeRampStart_mdActive h).symm

theorem arrivedChannel_inputs (cal : ChannelCal) (raw : RawArrival) (h : Channel) :
    (arrivedChannel cal raw h).ma = sampleInput h.kind .ma cal raw.ma h.ma
      ∧ (arrivedChannel cal raw h).mb = sampleInput h.kind .mb cal raw.mb h.mb
      ∧ (arrivedChannel cal raw h).mc = sampleInput h.kind .mc cal raw.mc h.mc
      ∧ (arrivedChannel cal raw h).clock = some 0
      ∧ (arrivedChannel cal raw h).mdActive = ((h.kind == .kiln || h.kind == .turner) && raw.active) := by
  unfold arrivedChannel
  rw [setpointAtArrival_mdActive]
  simp [sampledChannel]

theorem State.ready_heldOn (s : State) (c d : Fin 6) (raw : RawArrival) (r : Resource) :
    (s.ready c raw).heldOn d r = s.heldOn d r := by
  rw [State.ready, State.repeatAsks_heldOn]
  exact State.heldOn_of_own (by simp [State.arrived]) d r

theorem State.ready_rest (s : State) (c : Fin 6) (raw : RawArrival) : (s.ready c raw).tb = s.tb
    ∧ (s.ready c raw).loader = s.loader ∧ (s.ready c raw).cfg = s.cfg ∧ (s.ready c raw).line = s.line
    ∧ (s.ready c raw).claims = s.claims ∧ (s.ready c raw).turner = s.turner ∧ (s.ready c raw).castends = s.castends
    ∧ (s.ready c raw).book = s.book := by
  simp [State.ready, State.arrived]

/-! ### The inputs of an arrival (R166 to R169) -/

theorem clip_within (low high x : Int) (hle : low ≤ high) : low ≤ clip low high x ∧ clip low high x ≤ high := by
  unfold clip
  split
  · omega
  · split <;> omega

/-- An input its kind uses is replaced by its last good value where the reading is at a rail. -/
theorem sampleInput_of_rail {k : Kind} {i : Input} (hused : (quantityOf k i).isSome = true) {r : Nat}
    (hrail : r = 0 ∨ 4095 ≤ r) (cal : ChannelCal) (x : InputState) : sampleInput k i cal r x = { x with
      outCount := raise 3 x.outCount, faulted := x.faulted || 3 ≤ raise 3 x.outCount, value := x.lastGood
      replaced := true } := by
  obtain ⟨q, hq⟩ := Option.isSome_iff_exists.mp hused
  have hout : inRange r = false := by
    rw [inRange, Bool.and_eq_false_iff]
    rcases hrail with rfl | hhigh
    · exact .inl (by decide)
    · exact .inr (decide_eq_false (by omega))
  rw [sampleInput, hq, hout]
  rfl

/-- Settles O27, by the front end, which the rest of the arrival leaves. -/
theorem arrivalReadsInputs : Obligations.ArrivalReadsInputs := by
  refine ⟨fun s c raw hlive hkind => ?arrival, fun lo hi r => ?ranges, fun k i cal r x hused hrail hfew => ?rail⟩
  case arrival =>
    obtain ⟨x, due, hch⟩ := s.ready_ch_self c raw
    obtain ⟨hma, hmb, hmc, hclock, _⟩ := arrivedChannel_inputs (s.cfg.cal.get c) raw (s.ch c)
    refine ⟨_, exec_measurementArrival hlive hkind raw, ?_, ?_, ?_, ?_, State.eq_of_fields (by simp)⟩
    · simpa [State.arrival_eq, hch] using hma
    · simpa [State.arrival_eq, hch] using hmb
    · simpa [State.arrival_eq, hch] using hmc
    · simpa [State.arrival_eq, hch] using hclock
  case ranges =>
    have htemperature := clip_within (-500) 2000 (convertLine (signed16 lo) (signed16 hi) r) (by omega)
    have hlevel := clip_within 0 4000 (convertLine lo hi r) (by omega)
    have hmoisture := clip_within 0 1000 (convertLine lo hi r) (by omega)
    exact ⟨htemperature.1, htemperature.2, hlevel.1, hlevel.2, hmoisture.1, hmoisture.2⟩
  case rail =>
    rw [sampleInput_of_rail hused hrail]
    refine ⟨rfl, rfl, rfl, ?_, ?_⟩
    · show raise 3 x.outCount = _
      unfold raise
      split <;> omega
    · have hthird : 3 ≤ raise 3 x.outCount ↔ 2 ≤ x.outCount := by
        unfold raise
        split <;> omega
      simp only [hthird]

end Sys2Proof.Machine

/-! ## Proofs: a fire that is out stays out (R118, R119)

Only the burner law lights a fire and feeds peat; every other operation leaves a channel whose fire is out without
fire. -/

namespace Sys2Proof.Machine

/-- Neither fire nor peat feed in the channel. -/
def Channel.FireOut (h : Channel) : Prop := h.firing = 0 ∧ h.peat = false

theorem State.fireOut_of_ch {s t : State} {d : Fin 6} (hch : t.ch d = s.ch d) (hout : (s.ch d).FireOut) :
    (t.ch d).FireOut := by rw [hch]; exact hout

theorem State.modCh_fireOut {s : State} {c d : Fin 6} {f : Channel → Channel} (hf : (s.ch d).FireOut → (f (s.ch d)).FireOut)
    (hout : (s.ch d).FireOut) : ((s.modCh c f).ch d).FireOut := by
  rw [State.ch_modCh]
  split
  · next hd => subst hd; exact hf hout
  · exact hout

theorem foldl_fireOut {α : Type} {f : State → α → State} {d : Fin 6}
    (hf : ∀ (t : State) a, (t.ch d).FireOut → ((f t a).ch d).FireOut) (l : List α) {s : State}
    (hout : (s.ch d).FireOut) : ((l.foldl f s).ch d).FireOut := by
  induction l generalizing s with
  | nil => exact hout
  | cons a r ih => exact ih (hf s a hout)

theorem State.follow_fireOut {s : State} {c d : Fin 6} (hout : (s.ch d).FireOut) : ((s.follow c).ch d).FireOut :=
  State.follow_fire_out hout.1 hout.2

theorem State.dropAll_fireOut {s : State} {c d : Fin 6} (hout : (s.ch d).FireOut) : ((s.dropAll c).ch d).FireOut :=
  State.dropAll_fire_out hout.1 hout.2

/-! ### The claims -/

theorem State.ask_fireOut {s : State} {c d : Fin 6} (a : Ask) (hout : (s.ch d).FireOut) : ((s.ask c a).ch d).FireOut := by
  unfold State.ask
  split
  · exact hout
  · exact State.modCh_fireOut id hout

theorem State.dropClaim_fireOut {s : State} {c d : Fin 6} (slot : Nat) (hout : (s.ch d).FireOut) :
    ((s.dropClaim c slot).ch d).FireOut :=
  State.follow_fireOut (s := { s with own := s.own.filter fun o => !(o.channel == c && o.slot == slot) }) hout

theorem State.dropOn_fireOut {s : State} {c d : Fin 6} (r : Resource) (hout : (s.ch d).FireOut) :
    ((s.dropOn c r).ch d).FireOut :=
  State.follow_fireOut (State.modCh_fireOut
    (s := { s with own := s.own.filter fun o => !(o.channel == c && o.resource == r) }) id hout)

theorem State.lowerBy_fireOut {s : State} {c d : Fin 6} (e : Nat) (l : List OwnClaim) (hout : (s.ch d).FireOut) :
    ((s.lowerBy c e l).ch d).FireOut := by
  induction l generalizing s e with
  | nil => exact hout
  | cons o r ih =>
    unfold State.lowerBy
    split
    · exact hout
    · split
      · exact State.follow_fireOut (s := s.modOwn c o.slot _) hout
      · exact ih _ (State.dropClaim_fireOut o.slot hout)

theorem State.carry_fireOut {s : State} {c d : Fin 6} (r : PhaseRecord) (res : Resource) (hout : (s.ch d).FireOut) :
    ((s.carry c r res).ch d).FireOut := by
  have hretag : ((s.retag c res r).ch d).FireOut := hout
  unfold State.carry
  split
  · exact hout
  · split
    · exact State.ask_fireOut _ hout
    · dsimp only
      split
      · exact State.lowerBy_fireOut _ _ hretag
      · split
        · exact State.ask_fireOut _ hretag
        · exact hretag

theorem State.carryClaims_fireOut {s : State} {c d : Fin 6} (r : PhaseRecord) (hout : (s.ch d).FireOut) :
    ((s.carryClaims c r).ch d).FireOut := by
  unfold State.carryClaims
  refine State.carry_fireOut r .water (State.carry_fireOut r .power ?_)
  exact foldl_fireOut (f := fun t res => t.dropOn c res) (fun t res => State.dropOn_fireOut res) _
    (State.modCh_fireOut id hout)

/-! ### Phases -/

theorem State.halt_fireOut {s : State} {c : Fin 6} (r : HaltReason) (hout : (s.ch c).FireOut) :
    ((s.halt c r).ch c).FireOut := by
  by_cases hstate : (s.ch c).state.haltable = true
  · have hhalted := State.halt_haltedFrom hstate r
    simp only [Channel.FireOut, hhalted, and_self]
  · rw [State.halt, if_neg hstate]
    exact hout

theorem startedChannel_fireOut {h : Channel} (hout : h.FireOut) (r : PhaseRecord) (orphan : Bool) :
    (startedChannel h r orphan).FireOut := by
  have hfiring : (if burns r.kind then min h.firing (r.burnerMax.getD 0) else 0) = 0 := by simp [hout.1]
  unfold startedChannel startSetpoint
  split
  · exact ⟨hfiring, rfl⟩
  · dsimp only
    split
    · exact ⟨hfiring, rfl⟩
    · exact ⟨hfiring, rfl⟩

theorem kindStart_fireOut {h : Channel} (hout : h.FireOut) (r : PhaseRecord) : (kindStart h r).FireOut := by
  unfold kindStart
  cases r.kind
  all_goals exact hout

theorem State.startedAt_fireOut {s : State} {c : Fin 6} (hout : (s.ch c).FireOut) (r : PhaseRecord) (orphan : Bool) :
    ((s.startedAt c r orphan).ch c).FireOut := by
  have hstarted := startedChannel_fireOut hout r orphan
  unfold State.startedAt
  simp only [State.ch_modCh_self]
  split
  · rw [State.createPiece_ch_self, State.ch_modCh_self]
    refine kindStart_fireOut ?_ r
    exact hstarted
  · rw [State.ch_modCh_self]
    exact kindStart_fireOut hstarted r

theorem State.startAsks_fireOut {s : State} {c : Fin 6} (r : PhaseRecord) (hout : (s.ch c).FireOut) :
    ((s.startAsks c r).ch c).FireOut := by
  have hclaims := State.carryClaims_fireOut (c := c) r hout
  unfold State.startAsks
  dsimp only
  split
  · exact State.ask_fireOut _ hclaims
  · rw [State.startOffer_ch_self]; exact hclaims
  · rw [State.startOffer_ch_self]; exact hclaims
  · exact hclaims

theorem State.begin_fireOut {s : State} {c : Fin 6} (afterFinal orphan : Bool) (hout : (s.ch c).FireOut) :
    ((s.begin c afterFinal orphan).ch c).FireOut := by
  cases hcurrent : (s.ch c).current with
  | none =>
    simp only [State.begin, hcurrent]
    exact hout
  | some r =>
    cases hcheck : startCheck (s.ch c) r afterFinal with
    | some reason =>
      rw [State.begin_of_failed hcurrent hcheck]
      exact State.halt_fireOut _ hout
    | none =>
      rw [State.begin_of_check hcurrent hcheck]
      exact State.follow_fireOut (State.modCh_fireOut id (State.startAsks_fireOut r (State.startedAt_fireOut hout r orphan)))

theorem State.endPiece_fireOut {s : State} {c : Fin 6} (hout : (s.ch c).FireOut) : ((s.endPiece c).ch c).FireOut := by
  unfold State.endPiece
  split
  · exact hout
  · simpa [Channel.FireOut] using hout

theorem State.afterFinal_fireOut {s : State} {c : Fin 6} (k : PhaseKind) (hout : (s.ch c).FireOut) :
    ((s.afterFinal c k).ch c).FireOut := by
  have hended : ((s.endedAt c k).ch c).FireOut := by
    have hdropped := State.dropAll_fireOut (c := c) hout
    unfold State.endedAt
    split
    · exact State.endPiece_fireOut hdropped
    · exact hdropped
  rw [State.afterFinal_eq]
  split
  · exact State.modCh_fireOut (fun _ => ⟨rfl, rfl⟩) hended
  · exact State.begin_fireOut true false hended

theorem State.complete_fireOut {s : State} {c : Fin 6} (reason : EndReason) (hout : (s.ch c).FireOut) :
    ((s.complete c reason).ch c).FireOut := by
  cases hcurrent : (s.ch c).current with
  | none =>
    simp only [State.complete, hcurrent]
    exact hout
  | some r =>
    have hmoved : ((s.movedOnAt c r reason).ch c).FireOut := by
      rw [State.movedOnAt_ch_self]
      exact ⟨hout.1, rfl⟩
    rw [State.complete_of_current hcurrent]
    split
    · exact State.afterFinal_fireOut r.kind hmoved
    · split
      · rw [State.starve_ch_self]
        exact hmoved
      · split
        · rw [State.pause_ch_self]
          have hfiring := hmoved.1
          exact ⟨by rw [pausedChannel, hfiring, ite_self], rfl⟩
        · exact State.begin_fireOut false false hmoved

/-! ### The rest of a kiln's arrival -/

theorem State.offerCaptures_fireOut {s : State} {c : Fin 6} (items : List EntryItem) (hout : (s.ch c).FireOut) :
    ((s.offerCaptures c items).ch c).FireOut := by
  unfold State.offerCaptures
  split
  · exact hout
  · exact State.modCh_fireOut (s := { s with book := _ }) id hout

theorem State.judgeBreak_fireOut {s : State} {c : Fin 6} (r : PhaseRecord) (hout : (s.ch c).FireOut) :
    ((s.judgeBreak c r).ch c).FireOut := by
  unfold State.judgeBreak
  split
  · exact hout
  · split
    · split
      · exact State.complete_fireOut _ (State.modCh_fireOut id hout)
      · exact State.modCh_fireOut id hout
    · exact State.modCh_fireOut id hout

theorem State.readMoisture_fireOut {s : State} {c : Fin 6} (hout : (s.ch c).FireOut) :
    ((s.readMoisture c).ch c).FireOut := by
  unfold State.readMoisture State.addReading State.makeMoisture
  split
  · exact State.modCh_fireOut id hout
  · dsimp only
    split
    · split
      · exact hout
      · exact State.offerCaptures_fireOut _ (State.modCh_fireOut (s := { s with book := _ }) id hout)
    · exact State.modCh_fireOut id hout

/-- What follows the burner law at a kiln's arrival lights no fire. -/
theorem State.kilnArrival_fireOut {s : State} {c : Fin 6} (hout : ((s.burnerArrival c).ch c).FireOut) :
    ((s.kilnArrival c).ch c).FireOut := by
  unfold State.kilnArrival
  dsimp only
  split
  · split
    · exact State.judgeBreak_fireOut _ hout
    · split
      · exact State.readMoisture_fireOut hout
      · exact hout
    · exact hout
  · exact hout

theorem State.judgeInputs_fireOut {s : State} {c : Fin 6} (hout : (s.ch c).FireOut) :
    ((s.judgeInputs c).ch c).FireOut := by
  rcases s.judgeInputs_cases c with ⟨heq, _⟩ | ⟨i, _, heq⟩
  · rw [heq]
    exact hout
  · rw [heq]
    exact State.halt_fireOut _ hout

/-! ### The fan condition -/

theorem State.outputs_of_kiln {s : State} {c : Fin 6} (hlive : s.live = true) (hkind : (s.ch c).kind = .kiln)
    (hstate : (s.ch c).state ≠ .halted) :
    s.outputs c = { kilnCommand (s.ch c) with d0 := min (kilnFanCommand (s.ch c)) (s.cap c) } := by
  have hfree : s.forcedOff c = false := by simp [State.forcedOff, hlive, hkind, hstate]
  unfold State.outputs
  simp only [hfree, Bool.false_eq_true, if_false, hkind, State.command, hlive, if_true]
  rfl

theorem State.live_of_kept {s t : State} (hloader : t.loader = s.loader) (hline : t.line = s.line) :
    t.live = s.live := by
  rw [State.live, State.live, State.busy, State.busy, hloader, hline]

/-- The fan condition of a kiln is that of its run, its settings and what it holds. -/
theorem State.fanCondition_of_kept {s t : State} {c : Fin 6} (hlive : s.live = true) (hkind : (s.ch c).kind = .kiln)
    (hloader : t.loader = s.loader) (hline : t.line = s.line) (hcfg : t.cfg = s.cfg)
    (hheld : t.heldOn c .power = s.heldOn c .power) (hkept : (t.ch c).kind = (s.ch c).kind)
    (hstate : (t.ch c).state = (s.ch c).state) (hdrives : (t.ch c).drivesBy = (s.ch c).drivesBy) :
    t.fanCondition c = s.fanCondition c := by
  have hfan : t.fanOutput c = s.fanOutput c := by
    by_cases hhalted : (s.ch c).state = .halted
    · rw [State.fanOutput, State.fanOutput, State.outputs_of_halted hhalted,
        State.outputs_of_halted (hstate.trans hhalted)]
    · rw [State.fanOutput, State.fanOutput, State.outputs_of_kiln hlive hkind hhalted,
        State.outputs_of_kiln ((State.live_of_kept hloader hline).trans hlive) (hkept.trans hkind)
          (hstate.trans_ne hhalted), State.cap, State.cap, hcfg, State.heldAmount_of_heldOn hheld,
        kilnFanCommand, kilnFanCommand, hdrives]
  rw [State.fanCondition, State.fanCondition, hfan, State.hasHeld_of_heldOn hheld]

theorem Channel.SameRun.drivesBy {h k : Channel} (hrun : h.SameRun k) : k.drivesBy = h.drivesBy := by
  obtain ⟨_, hstate, hpause, hresume, _, _, hcurrent, hstarted, _, _, _, _, _, _, hcompleted, _⟩ := hrun
  simp only [Channel.drivesBy, Channel.fromStarved, hstate, hpause, hresume, hcurrent, hstarted, hcompleted]
  rfl

/-- The front end, the statistics and the asks repeated leave the fan condition as it stands (R117). -/
theorem State.ready_fanCondition {s : State} {c : Fin 6} (hlive : s.live = true) (hkind : (s.ch c).kind = .kiln)
    (raw : RawArrival) : (s.ready c raw).fanCondition c = s.fanCondition c := by
  have hrun := s.ready_sameRun c raw
  obtain ⟨_, hloader, hcfg, hline, _⟩ := s.ready_rest c raw
  exact State.fanCondition_of_kept hlive hkind hloader hline hcfg (s.ready_heldOn c c raw .power) (by simp only [hrun])
    (by simp only [hrun]) hrun.drivesBy

/-! ### A failed flame and a fan below 30 % (R118, R117) -/

theorem State.fire_of_condition {s : State} {c : Fin 6} (hcond : s.fanCondition c = false) (r : PhaseRecord) :
    ((s.fire c r).ch c).FireOut := by
  unfold State.fire
  rw [hcond, State.ch_modCh_self]
  exact ⟨rfl, rfl⟩

theorem burnsBy_state {h : Channel} (hburns : (burnsBy h).isSome = true) :
    h.state = .running ∨ h.state = .starved ∨ h.state = .paused := by
  cases hstate : h.state <;> simp [burnsBy, hstate] at hburns ⊢

theorem burnsBy_haltable {h : Channel} {r : PhaseRecord} (hburns : burnsBy h = some r) : h.state.haltable = true := by
  rcases burnsBy_state (h := h) (by rw [hburns]; rfl) with hstate | hstate | hstate
  all_goals rw [hstate]; rfl

/-- The flame count is no part of the fan condition. -/
theorem State.flamed_fanCondition {s : State} {c : Fin 6} (hlive : s.live = true) (hkind : (s.ch c).kind = .kiln)
    (n : Nat) : (s.modCh c fun h => { h with flame := n }).fanCondition c = s.fanCondition c :=
  State.fanCondition_of_kept hlive hkind rfl rfl rfl rfl (by rw [State.ch_modCh_self]) (by rw [State.ch_modCh_self])
    (by rw [State.ch_modCh_self]; rfl)

theorem State.flamed_halt {s : State} {c : Fin 6} (hstate : (s.ch c).state.haltable = true) (n : Nat) :
    (s.ch c).HaltedFrom (((s.modCh c fun h => { h with flame := n }).halt c .flameFail).ch c) .flameFail := by
  have hch := s.ch_modCh_self c fun h => { h with flame := n }
  have hhalted := State.halt_haltedFrom (s := s.modCh c fun h => { h with flame := n }) (c := c) (by rw [hch]; exact hstate)
    .flameFail
  simp only [Channel.HaltedFrom, hhalted, hch, and_self]

/-- The burner at an arrival without the fan condition: out by the law, by the halt, or where no law runs. -/
theorem State.burnerArrival_fireOut {s : State} {c : Fin 6} (hlive : s.live = true) (hkind : (s.ch c).kind = .kiln)
    (hcond : s.fanCondition c = false) : ((s.burnerArrival c).ch c).FireOut := by
  unfold State.burnerArrival
  split
  · next r hburns =>
    unfold State.burnerLaw
    dsimp only
    split
    · have hhalted := State.flamed_halt (burnsBy_haltable hburns) (flameNext (s.ch c))
      simp only [Channel.FireOut, hhalted, and_self]
    · exact State.fire_of_condition ((State.flamed_fanCondition hlive hkind _).trans hcond) r
  · rw [State.ch_modCh_self]
    exact ⟨rfl, rfl⟩

/-- Settles O31, by the halt of the third arrival without flame, and by what lights a fire. -/
theorem flameFailHalts : Obligations.FlameFailHalts := by
  refine ⟨fun s c hnearly => ?fail, fun s c raw hlive hkind hcond => ?fan⟩
  case fail =>
    have hexec : exec (.flameFail c) s = .next ((s.modCh c fun h => { h with flame := 3 }).halt c .flameFail) := by
      show execFlameFail c s = _
      rw [execFlameFail, if_pos hnearly]
    obtain ⟨r, hburns⟩ : ∃ r, burnsBy (s.ch c) = some r := by
      simp only [State.nearlyOut, Bool.and_eq_true] at hnearly
      obtain ⟨⟨⟨_, hsome⟩, _⟩, _⟩ := hnearly
      exact Option.isSome_iff_exists.mp hsome
    have hstate := burnsBy_haltable hburns
    have hhaltable : ((s.modCh c fun h => { h with flame := 3 }).ch c).state.haltable = true := by
      rw [State.ch_modCh_self]
      exact hstate
    have hhalted := State.flamed_halt hstate 3
    refine ⟨_, hexec, ?_, ?_, ?_, ?_, State.halt_noClaims hhaltable _, State.outputs_of_halted ?_, ?_,
      State.eq_of_fields (by simp), fun d hd => by simp [hd], ?_⟩
    · simp only [hhalted]
    · simp only [hhalted]
    · simp only [hhalted]
    · simp only [hhalted]
    · simp only [hhalted]
    · simp only [hhalted]
    · exact (s.modCh_otherClaims c _ c).trans (State.halt_otherClaims _ c _)
  case fan =>
    have hrun := s.ready_sameRun c raw
    have hkiln : ((s.ready c raw).ch c).kind = .kiln := by simp only [hrun, hkind]
    obtain ⟨_, hloader, _, hline, _⟩ := s.ready_rest c raw
    have hburner := State.burnerArrival_fireOut ((State.live_of_kept hloader hline).trans hlive) hkiln
      ((State.ready_fanCondition hlive hkind raw).trans hcond)
    refine ⟨_, exec_measurementArrival hlive (by simp [hkind]) raw, ?_⟩
    rw [State.arrival_eq]
    refine State.judgeInputs_fireOut ?_
    rw [State.kindArrival, hkiln]
    exact State.kilnArrival_fireOut hburner

end Sys2Proof.Machine

/-! ## Proofs: the fan law and the burner law at an arrival (R95, R96, R117) -/

namespace Sys2Proof.Machine

/-- With the inputs on which its kind halts sound, an arrival's judgment halts no channel (R171). -/
theorem State.judgeInputs_of_sound {s : State} {c : Fin 6}
    (hsound : ∀ i, haltsOn (s.ch c) i = true → ((s.ch c).input i).faulted = false) : s.judgeInputs c = s := by
  rcases s.judgeInputs_cases c with ⟨heq, _⟩ | ⟨i, hi, _⟩
  · exact heq
  · rw [Channel.haltedBy, Bool.and_eq_true] at hi
    exact absurd (hsound i hi.2) (by simp [hi.1])

theorem haltsOn_box {h : Channel} {i : Input} (hkind : h.kind = .box) (hhalts : haltsOn h i = true) :
    i = .ma ∨ i = .mb := by
  cases i <;> simp [haltsOn, hkind] at hhalts ⊢

theorem haltsOn_kiln {h : Channel} {i : Input} (hkind : h.kind = .kiln) (hhalts : haltsOn h i = true) :
    i = .ma ∨ i = .mc := by
  cases i <;> simp [haltsOn, hkind] at hhalts ⊢

/-! ### The shed point leaves the run (R48) -/

/-- The channel runs by the same record, in the same step, to the same setpoint. -/
abbrev Channel.SameLaw (h k : Channel) : Prop :=
  k.kind = h.kind ∧ k.state = h.state ∧ k.pause = h.pause ∧ k.resume = h.resume ∧ k.current = h.current
    ∧ k.started = h.started ∧ k.completed = h.completed ∧ k.setpoint = h.setpoint ∧ k.lastEnd = h.lastEnd
    ∧ k.ma = h.ma ∧ k.mb = h.mb ∧ k.mc = h.mc ∧ k.step = h.step ∧ k.standMark = h.standMark

theorem Channel.SameLaw.trans {h k j : Channel} (hk : h.SameLaw k) (hj : k.SameLaw j) : h.SameLaw j := by
  simp only [Channel.SameLaw, hk, hj, and_self]

theorem Channel.SameLaw.drivesBy {h k : Channel} (hlaw : h.SameLaw k) : k.drivesBy = h.drivesBy := by
  obtain ⟨_, hstate, hpause, hresume, hcurrent, hstarted, hcompleted, _⟩ := hlaw
  simp only [Channel.drivesBy, Channel.fromStarved, hstate, hpause, hresume, hcurrent, hstarted, hcompleted]
  rfl

theorem Channel.SameLaw.lawSetpoint {h k : Channel} (hlaw : h.SameLaw k) :
    Machine.lawSetpoint k = Machine.lawSetpoint h := by
  simp only [Machine.lawSetpoint, hlaw]

theorem State.follow_sameLaw (s : State) (c d : Fin 6) : (s.ch d).SameLaw ((s.follow c).ch d) := by
  have hkept := s.follow_runKept c d
  have hinputs : ((s.follow c).ch d).kind = (s.ch d).kind ∧ ((s.follow c).ch d).ma = (s.ch d).ma
    ∧ ((s.follow c).ch d).mb = (s.ch d).mb ∧ ((s.follow c).ch d).mc = (s.ch d).mc := by simp
  simp only [Channel.SameLaw, hkept, hinputs, and_self]

theorem State.shedOne_sameLaw (s : State) (c : Fin 6) (o : OwnClaim) (d : Fin 6) :
    (s.ch d).SameLaw ((s.shedOne c o).ch d) := by
  have hcount (t : State) : (t.ch d).SameLaw ((t.countShed c).ch d) := by
    rw [State.countShed, State.ch_modCh]
    split
    · next hd =>
      subst hd
      split <;> simp [Channel.SameLaw]
    · simp [Channel.SameLaw]
  unfold State.shedOne
  dsimp only
  refine Channel.SameLaw.trans ?_ (State.follow_sameLaw _ c d)
  rw [State.chEvent_ch]
  exact hcount _

theorem State.shedPoint_sameLaw (s : State) (c : Fin 6) (rs : List Resource) (d : Fin 6) :
    (s.ch d).SameLaw ((s.shedPoint c rs).ch d) := by
  have hfold (l : List OwnClaim) (t : State) : (t.ch d).SameLaw ((l.foldl (fun t o => t.shedOne c o) t).ch d) := by
    induction l generalizing t with
    | nil => simp [Channel.SameLaw]
    | cons o r ih => exact (t.shedOne_sameLaw c o d).trans (ih _)
  exact hfold _ s

/-! ### The fan law (R95, R96) -/

theorem State.judgeLimited_ch_self (s : State) (c : Fin 6) : ∃ n, (s.judgeLimited c).ch c = { s.ch c with limited := n } := by
  unfold State.judgeLimited State.askTopUp
  split
  · exact ⟨_, by rw [State.ch_modCh_self]⟩
  · split
    · split
      · exact ⟨_, State.ch_modCh_self _ c _⟩
      · exact ⟨_, by rw [State.ch_modCh_self]⟩
    · exact ⟨_, by rw [State.ch_modCh_self]⟩

theorem State.fanLaw_ch_self (s : State) (c : Fin 6) (r : PhaseRecord) : (s.ch c).SameLaw ((s.fanLaw c r).ch c)
    ∧ ∃ k, (s.ch c).SameLaw k ∧ ((s.fanLaw c r).ch c).fanCommand = fanNext k r := by
  have hlaw := s.shedPoint_sameLaw c [.power, .water] c
  obtain ⟨n, hn⟩ := ((s.shedPoint c [.power, .water]).modCh c fun h => { h with fanCommand := fanNext h r }).judgeLimited_ch_self c
  rw [State.ch_modCh_self] at hn
  rw [State.fanLaw, hn]
  exact ⟨hlaw, _, hlaw, rfl⟩

theorem fanNext_of_law {h : Channel} {m sp : Int} (hvalue : h.ma.value = some m) (hset : lawSetpoint h = some sp)
    (r : PhaseRecord) : fanNext h r = fanDemand (r.fanBase.getD 0) (r.fanGain.getD 0) m sp := by
  simp only [fanNext, hvalue, hset]

theorem drivesBy_state {h : Channel} {r : PhaseRecord} (hdrives : h.drivesBy = some r) : h.state ≠ .halted := by
  intro hhalted
  simp [Channel.drivesBy, hhalted] at hdrives

theorem State.outputs_of_box {s : State} {c : Fin 6} {r : PhaseRecord} (hlive : s.live = true)
    (hkind : (s.ch c).kind = .box) (hdrives : (s.ch c).drivesBy = some r) (hfan : fanLawKind r.kind = true) :
    (s.outputs c).d0 = min (s.ch c).fanCommand (s.cap c) := by
  have hfree : s.forcedOff c = false := by simp [State.forcedOff, hlive, hkind, drivesBy_state hdrives]
  have hlaw : ((s.ch c).drivesKind.map fanLawKind).getD false = true := by simp [Channel.drivesKind, hdrives, hfan]
  unfold State.outputs
  simp only [hfree, Bool.false_eq_true, if_false, hkind, State.command, hlive, if_true, boxCommand, hlaw]

theorem lawSetpoint_eq (h : Channel) : lawSetpoint h =
    if h.started = true ∧ (h.state = .running ∨ h.state = .paused) then h.setpoint else h.lastEnd := by
  simp [lawSetpoint]

theorem State.ready_sameSetpoint (s : State) (c : Fin 6) (raw : RawArrival) :
    lawSetpoint ((s.ready c raw).ch c) = if (s.ch c).started = true ∧ ((s.ch c).state = .running ∨ (s.ch c).state = .paused)
      then ((s.ready c raw).ch c).setpoint else (s.ch c).lastEnd := by
  have hrun := s.ready_sameRun c raw
  simp only [lawSetpoint_eq, hrun]

/-- The fan at a box's arrival, its inputs sound (R95). -/
theorem State.arrival_fan {s : State} {c : Fin 6} {raw : RawArrival} {r : PhaseRecord} (hlive : s.live = true)
    (hkind : (s.ch c).kind = .box) (hdrives : (s.ch c).drivesBy = some r) (hfan : fanLawKind r.kind = true)
    (hma : ((s.arrival c raw).ch c).ma.faulted = false) (hmb : ((s.arrival c raw).ch c).mb.faulted = false) {m sp : Int}
    (hvalue : ((s.arrival c raw).ch c).ma.value = some m)
    (hset : (if (s.ch c).started = true ∧ ((s.ch c).state = .running ∨ (s.ch c).state = .paused)
      then ((s.arrival c raw).ch c).setpoint else (s.ch c).lastEnd) = some sp) :
    ((s.arrival c raw).ch c).fanCommand = fanDemand (r.fanBase.getD 0) (r.fanGain.getD 0) m sp
      ∧ ((s.arrival c raw).outputs c).d0 = min ((s.arrival c raw).ch c).fanCommand ((s.arrival c raw).cap c)
      ∧ ((s.arrival c raw).ch c).state = (s.ch c).state := by
  have hrun := s.ready_sameRun c raw
  obtain ⟨_, hloader, _, hline, _⟩ := s.ready_rest c raw
  have hbox : ((s.ready c raw).ch c).kind = .box := by simp only [hrun, hkind]
  have hrecord : ((s.ready c raw).ch c).drivesBy = some r := hrun.drivesBy.trans hdrives
  have hrules : (s.ready c raw).kindArrival c raw = (s.ready c raw).fanLaw c r := by
    simp only [State.kindArrival, hbox, State.boxArrival, hrecord, hfan, if_true]
  obtain ⟨hlaw, k, hk, hcommand⟩ := (s.ready c raw).fanLaw_ch_self c r
  have hsound : s.arrival c raw = (s.ready c raw).fanLaw c r := by
    have hjudged : s.arrival c raw = ((s.ready c raw).fanLaw c r).judgeInputs c := by rw [State.arrival_eq, hrules]
    rw [hjudged] at hma hmb ⊢
    refine State.judgeInputs_of_sound fun i hi => ?_
    rcases haltsOn_box (by simp only [hlaw, hbox]) hi with rfl | rfl
    · simpa [Channel.input] using hma
    · simpa [Channel.input] using hmb
  rw [hsound] at hvalue hset ⊢
  have hmaValue : k.ma.value = some m := by
    simp only [hlaw] at hvalue
    simp only [hk, hvalue]
  have hsetpoint : lawSetpoint k = some sp := by
    simp only [hlaw] at hset
    rw [hk.lawSetpoint, State.ready_sameSetpoint, hset]
  have hstill : ((s.ready c raw).fanLaw c r).live = true :=
    (State.live_of_kept (by simp [hloader]) (by simp [hline])).trans hlive
  refine ⟨hcommand.trans (fanNext_of_law hmaValue hsetpoint r),
    State.outputs_of_box hstill (by simp only [hlaw, hbox]) (hlaw.drivesBy.trans hrecord) hfan, ?_⟩
  simp only [hlaw, hrun]

/-! ### The burner law (R117, R118, R123) -/

/-- The rules of a kiln after the burner law, a breakthrough aside: the counts, the reading set and the capture. -/
theorem State.readMoisture_ch_self (s : State) (c : Fin 6) : ∃ st cs w rs, (s.readMoisture c).ch c =
    { s.ch c with step := st, captures := cs, wait := w, readings := rs } := by
  have hoffer (t : State) (items : List EntryItem) : ∃ cs w, (t.offerCaptures c items).ch c =
      { t.ch c with captures := cs, wait := w } := by
    unfold State.offerCaptures
    split
    · exact ⟨_, _, rfl⟩
    · exact ⟨_, _, State.ch_modCh_self _ c _⟩
  unfold State.readMoisture State.addReading State.makeMoisture
  split
  · exact ⟨_, _, _, _, State.ch_modCh_self _ c _⟩
  · next v _ =>
    dsimp only
    split
    · split
      · exact ⟨_, _, _, _, rfl⟩
      · next p hp =>
        obtain ⟨cs, w, hch⟩ := hoffer (s.sampled c ((s.ch c).readings ++ [v])) (sampleCaptures c p
          (nextSample s.book.sample) (meanOfTen (((s.ch c).readings ++ [v]).foldl (· + ·) 0)).toNat)
        exact ⟨some .captured, cs, w, (s.ch c).readings ++ [v], hch.trans (by rw [State.sampled, State.ch_modCh_self]; rfl)⟩
    · exact ⟨_, _, _, _, State.ch_modCh_self _ c _⟩

theorem State.judgeBreak_ch_self {s : State} {c : Fin 6} (hfew : (s.ch c).breakCount < 9) (r : PhaseRecord) :
    ∃ n, (s.judgeBreak c r).ch c = { s.ch c with breakCount := n } := by
  unfold State.judgeBreak
  split
  · exact ⟨_, rfl⟩
  · rw [if_neg (Nat.not_le.mpr hfew)]
    split
    · exact ⟨_, State.ch_modCh_self _ c _⟩
    · exact ⟨_, State.ch_modCh_self _ c _⟩

/-- What follows the burner law at a kiln's arrival, where no breakthrough completes its DRY. -/
theorem State.kilnArrival_ch_self {s : State} {c : Fin 6}
    (hfew : ((s.burnerArrival c).ch c).state = .running → ((s.burnerArrival c).ch c).inPhase .dry = true →
      ((s.burnerArrival c).ch c).breakCount < 9) :
    ∃ n st cs w rs, (s.kilnArrival c).ch c =
      { (s.burnerArrival c).ch c with breakCount := n, step := st, captures := cs, wait := w, readings := rs } := by
  unfold State.kilnArrival
  dsimp only
  generalize s.burnerArrival c = u at hfew ⊢
  split
  · next hruns =>
    split
    · next r hphase hcurrent =>
      obtain ⟨n, hn⟩ := State.judgeBreak_ch_self (hfew hruns (by simp [Channel.inPhase, hphase])) r
      exact ⟨n, _, _, _, _, hn⟩
    · split
      · obtain ⟨st, cs, w, rs, hch⟩ := u.readMoisture_ch_self c
        exact ⟨_, st, cs, w, rs, hch⟩
      · exact ⟨_, _, _, _, _, rfl⟩
    · exact ⟨_, _, _, _, _, rfl⟩
  · exact ⟨_, _, _, _, _, rfl⟩

/-- The channel after the burner law, the fan condition given and the flame not failed (R117, R118, R123). -/
def firedChannel (h : Channel) (r : PhaseRecord) : Channel :=
  { h with flame := flameNext h, firing := firingNext h r, peat := h.state == .running && h.inPhase .peat }

theorem State.burnerArrival_fired {s : State} {c : Fin 6} {r : PhaseRecord} (hlive : s.live = true)
    (hkind : (s.ch c).kind = .kiln) (hburns : burnsBy (s.ch c) = some r) (hcond : s.fanCondition c = true)
    (hflame : flameNext (s.ch c) < 3) : (s.burnerArrival c).ch c = firedChannel (s.ch c) r := by
  have hstill := (State.flamed_fanCondition hlive hkind (flameNext (s.ch c))).trans hcond
  unfold State.burnerArrival
  simp only [hburns, State.burnerLaw, if_neg (Nat.not_le.mpr hflame), State.fire, hstill, State.ch_modCh_self, if_true]
  rfl

theorem flameNext_of_lit {h : Channel} (hlit : (h.firing = 0 ∨ h.mdActive = true) ∨ h.flame < 2) : flameNext h < 3
    ∧ flameNext h = if h.firing = 0 ∨ h.mdActive = true then 0 else h.flame + 1 := by
  unfold flameNext raise
  by_cases hout : h.firing = 0 ∨ h.mdActive = true
  · rw [if_pos (by simpa using hout), if_pos hout]
    exact ⟨by decide, rfl⟩
  · have hfew : h.flame < 2 := hlit.resolve_left hout
    rw [if_neg (by simpa using hout), if_neg hout]
    split
    · exact ⟨by omega, rfl⟩
    · omega

theorem firingNext_of_law {h : Channel} {m sp : Int} (hvalue : h.ma.value = some m) (hset : lawSetpoint h = some sp)
    (r : PhaseRecord) : (m < sp - 5 → firingNext h r = min (h.firing + 5) (r.burnerMax.getD 0))
      ∧ (sp + 5 < m → firingNext h r = h.firing - 5)
      ∧ (sp - 5 ≤ m → m ≤ sp + 5 → firingNext h r = min h.firing (r.burnerMax.getD 0)) := by
  simp only [firingNext, hvalue, hset]
  refine ⟨fun hlow => ?_, fun hhigh => ?_, fun hnear habove => ?_⟩
  · rw [if_pos hlow]
  · rw [if_neg (by omega), if_pos hhigh]
  · rw [if_neg (by omega), if_neg (by omega)]

/-- The record by which a kiln burns: the phase in progress, or the one completed in STARVED and PAUSED(STEP). -/
abbrev Channel.BurnsBy (h : Channel) (r : PhaseRecord) : Prop :=
  h.state = .running ∧ h.started = true ∧ h.current = some r
    ∨ (h.state = .starved ∨ h.state = .paused ∧ h.pause = some .step) ∧ h.completed = some r

theorem burnsBy_of_burnsBy {h : Channel} {r : PhaseRecord} (hkind : burns r.kind = true) (hby : h.BurnsBy r) :
    burnsBy h = some r := by
  rcases hby with ⟨hruns, hstarted, hcurrent⟩ | ⟨hstarved | ⟨hpaused, hstep⟩, hcompleted⟩
  · simp [burnsBy, hruns, hstarted, hcurrent, hkind]
  · simp [burnsBy, hstarved, hcompleted, hkind]
  · simp [burnsBy, hpaused, hstep, hcompleted, hkind]

/-- The fields that an arrival of a burning kiln brings, its inputs sound and its flame not failed. -/
theorem State.arrival_fired {s : State} {c : Fin 6} {raw : RawArrival} {r : PhaseRecord} (hlive : s.live = true)
    (hkind : (s.ch c).kind = .kiln) (hburning : burns r.kind = true) (hby : (s.ch c).BurnsBy r)
    (hcond : s.fanCondition c = true) (hfew : (s.ch c).inPhase .dry = true → (s.ch c).breakCount < 9)
    (hma : ((s.arrival c raw).ch c).ma.faulted = false) (hmc : ((s.arrival c raw).ch c).mc.faulted = false)
    (hflame : flameNext ((s.ready c raw).ch c) < 3) : ∃ n st cs w rs, (s.arrival c raw).ch c =
      { firedChannel ((s.ready c raw).ch c) r with breakCount := n, step := st, captures := cs, wait := w, readings := rs } := by
  have hrun := s.ready_sameRun c raw
  obtain ⟨_, hloader, _, hline, _⟩ := s.ready_rest c raw
  have hkiln : ((s.ready c raw).ch c).kind = .kiln := by simp only [hrun, hkind]
  have hburns : burnsBy ((s.ready c raw).ch c) = some r :=
    burnsBy_of_burnsBy hburning (by simpa only [Channel.BurnsBy, hrun] using hby)
  have hfired := State.burnerArrival_fired ((State.live_of_kept hloader hline).trans hlive) hkiln hburns
    ((State.ready_fanCondition hlive hkind raw).trans hcond) hflame
  have hcount : ((s.ready c raw).ch c).inPhase .dry = true → ((s.ready c raw).ch c).breakCount < 9 := by
    simpa only [Channel.inPhase, Channel.phase, hrun] using hfew
  obtain ⟨n, st, cs, w, rs, hch⟩ := State.kilnArrival_ch_self (s := s.ready c raw) (c := c) (fun _ => by rw [hfired]; exact hcount)
  rw [hfired] at hch
  refine ⟨n, st, cs, w, rs, ?_⟩
  have hjudged : s.arrival c raw = ((s.ready c raw).kilnArrival c).judgeInputs c := by
    rw [State.arrival_eq, State.kindArrival, hkiln]
  rw [hjudged] at hma hmc ⊢
  rw [State.judgeInputs_of_sound, hch]
  intro i hi
  rcases haltsOn_kiln (by rw [hch]; exact hkiln) hi with rfl | rfl
  · simpa [Channel.input] using hma
  · simpa [Channel.input] using hmc

/-- Settles O46, by the fan law's rounding and by the three cases of the burner law. -/
theorem arrivalRunsFanAndBurner : Obligations.ArrivalRunsFanAndBurner := by
  refine ⟨fun s c raw r m sp hlive hkind hdrives hfan => ?fan, fun s c raw r m sp hlive hkind hburning hby hcond hfew => ?burner⟩
  case fan =>
    refine ⟨_, exec_measurementArrival hlive (by simp [hkind]) raw, fun hma hmb hvalue hset => ?_⟩
    have hlaw : fanLawKind r.kind = true := by
      rcases hfan with hgrow | hturn
      · rw [hgrow]; rfl
      · rw [hturn]; rfl
    obtain ⟨hcommand, hout, hstate⟩ := State.arrival_fan hlive hkind hdrives hlaw hma hmb hvalue hset
    obtain ⟨hlow, hmid, hhigh⟩ := fanDemand_spec (r.fanBase.getD 0) (r.fanGain.getD 0) m sp
    refine ⟨fun h => ?_, fun h0 h1 => ?_, fun h => ?_, hout, hstate⟩
    · rw [hcommand, hlow h]
    · rw [hcommand]
      exact hmid h0 h1
    · rw [hcommand, hhigh h]
  case burner =>
    refine ⟨_, exec_measurementArrival hlive (by simp [hkind]) raw, fun hma hmc hvalue hlit hset hrunning => ?_⟩
    have hrun := s.ready_sameRun c raw
    have hactive : ((s.ready c raw).ch c).mdActive = raw.active := by
      obtain ⟨x, due, hready⟩ := s.ready_ch_self c raw
      obtain ⟨_, _, _, _, hmd⟩ := arrivedChannel_inputs (s.cfg.cal.get c) raw (s.ch c)
      rw [hready]
      simpa [hkind] using hmd
    obtain ⟨hfew3, hflame⟩ := flameNext_of_lit (h := (s.ready c raw).ch c) (by simpa only [hrun, hactive] using hlit)
    obtain ⟨n, st, cs, w, rs, hch⟩ := State.arrival_fired hlive hkind hburning hby hcond hfew hma hmc hfew3
    rw [hch] at hvalue hset
    have hsetpoint : lawSetpoint ((s.ready c raw).ch c) = some sp := by
      rw [State.ready_sameSetpoint, ← hset]
      refine if_congr ⟨fun hs => ?_, fun hs => ⟨hs.1, .inl hs.2⟩⟩ rfl rfl
      exact ⟨hs.1, hs.2.resolve_right fun hpaused => hrunning ⟨hpaused, hs.1⟩⟩
    have hsampled : ((s.ready c raw).ch c).ma.value = some m := hvalue
    obtain ⟨hlow, hhigh, hnear⟩ := firingNext_of_law hsampled hsetpoint r
    have hfired : firingNext ((s.ready c raw).ch c) r = ((s.arrival c raw).ch c).firing := by rw [hch]; rfl
    have hstate : ((s.arrival c raw).ch c).state ≠ .halted := by
      rw [hch]
      show ((s.ready c raw).ch c).state ≠ .halted
      simp only [hrun]
      rcases hby with ⟨hs, _⟩ | ⟨hs | ⟨hs, _⟩, _⟩
      all_goals rw [hs]; decide
    have hstill : (s.arrival c raw).live = true :=
      (State.live_of_kept (by simp [State.arrival]) (by simp [State.arrival])).trans hlive
    have hkiln : ((s.arrival c raw).ch c).kind = .kiln := by
      rw [hch]
      show ((s.ready c raw).ch c).kind = .kiln
      simp only [hrun, hkind]
    rw [hfired] at hlow hhigh hnear
    simp only [hrun] at hlow hhigh hnear
    refine ⟨?_, hlow, hhigh, hnear, ?_, by rw [State.outputs_of_kiln hstill hkiln hstate]; rfl⟩
    · simp only [hrun, hactive] at hflame
      rw [hch]
      exact hflame
    · rw [hch]
      show (((s.ready c raw).ch c).state == .running && ((s.ready c raw).ch c).inPhase .peat) = _
      simp only [Channel.inPhase, Channel.phase, hrun]
      rcases hby with ⟨hs, hstarted, hcurrent⟩ | ⟨hs | ⟨hs, _⟩, _⟩
      · simp [hs, hstarted, hcurrent]
      · rw [hs]; rfl
      · rw [hs]; rfl

end Sys2Proof.Machine

/-! ## Proofs: the steps that an arrival ends (R80 to R87, R94, R101) -/

namespace Sys2Proof.Machine

/-! ### What the rules of a steep and a box leave of other claims -/

theorem State.shedOne_otherClaims (s : State) {c : Fin 6} (o : OwnClaim) : s.OtherClaimsKept (s.shedOne c o) c := by
  unfold State.shedOne
  dsimp only
  exact (s.askAt_otherClaims c o.slot ⟨o.resource, o.amount, o.priority, o.sheddable, o.detail, o.base⟩).trans
    (.of_own (by simp) c)

theorem State.shedPoint_otherClaims (s : State) (c : Fin 6) (rs : List Resource) :
    s.OtherClaimsKept (s.shedPoint c rs) c := .foldl (fun t o => t.shedOne_otherClaims o) _ s

theorem State.judgeLevel_otherClaims (s : State) (c : Fin 6) (level : Option Int) :
    s.OtherClaimsKept (s.judgeLevel c level) c := .of_own (by simp) c

/-- The channel whose fill is at its end: it stands (R80). -/
def stoodChannel (h : Channel) : Channel := { h with step := some .standing, standMark := some h.timer }

/-- The channel whose blower clock starts (R80). -/
def blowerStarted (h : Channel) : Channel := { h with blower := some 0, blowerOn := true }

/-- The end of a fill up to the blower: the channel stands and its WATER is dropped. -/
def State.fillStopped (s : State) (c : Fin 6) : State := (s.modCh c stoodChannel).dropOn c .water

theorem State.fillEnd_eq (s : State) (c : Fin 6) (r : PhaseRecord) : s.fillEnd c r =
    if r.blowerOn.isSome then
      ((s.fillStopped c).modCh c blowerStarted).ask c (phaseAsk r .power (r.power.getD 0))
    else s.fillStopped c := rfl

theorem State.fillEnd_otherClaims (s : State) (c : Fin 6) (r : PhaseRecord) : s.OtherClaimsKept (s.fillEnd c r) c := by
  have hdrop : s.OtherClaimsKept (s.fillStopped c) c := State.dropOn_otherClaims (s.modCh c stoodChannel) c .water
  rw [State.fillEnd_eq]
  split
  · exact hdrop.trans (State.ask_otherClaims ((s.fillStopped c).modCh c blowerStarted) c _)
  · exact hdrop

theorem State.fillShed_otherClaims (s : State) (c : Fin 6) : s.OtherClaimsKept (s.fillShed c) c := by
  unfold State.fillShed
  split
  · exact .of_own rfl c
  · exact s.shedPoint_otherClaims c [.water]

theorem State.castEnd_otherClaims (s : State) (c : Fin 6) : s.OtherClaimsKept (s.castEnd c) c := by
  rw [State.castEnd_eq]
  exact (State.dropAll_otherClaims (s.modCh c castStopped) c).trans (.of_own (by simp) c)

theorem State.steepArrival_otherClaims (s : State) (c : Fin 6) : s.OtherClaimsKept (s.steepArrival c) c := by
  unfold State.steepArrival
  dsimp only
  split
  · split
    · unfold State.steepRunning
      dsimp only
      split
      · split
        · exact s.fillEnd_otherClaims c _
        · exact s.fillShed_otherClaims c
      · split
        · exact .of_own rfl c
        · exact .of_own rfl c
      · exact s.judgeLevel_otherClaims c _
      · split
        · exact s.castEnd_otherClaims c
        · exact .of_own rfl c
      · exact .of_own rfl c
    · split
      · exact s.fillShed_otherClaims c
      · exact .of_own rfl c
  · exact .of_own rfl c

theorem State.fanLaw_otherClaims (s : State) (c : Fin 6) (r : PhaseRecord) : s.OtherClaimsKept (s.fanLaw c r) c := by
  have hlimited (t : State) : t.OtherClaimsKept (t.judgeLimited c) c := by
    unfold State.judgeLimited
    split
    · exact .of_own rfl c
    · split
      · exact t.askTopUp_otherClaims c
      · exact .of_own rfl c
  exact (s.shedPoint_otherClaims c _).trans (hlimited _)

theorem State.boxArrival_otherClaims (s : State) (c : Fin 6) : s.OtherClaimsKept (s.boxArrival c) c := by
  unfold State.boxArrival
  dsimp only
  split
  · exact .of_own rfl c
  · split
    · exact s.fanLaw_otherClaims c _
    · split
      · split
        · exact s.judgeLevel_otherClaims c _
        · split
          · exact s.castEnd_otherClaims c
          · exact .of_own rfl c
        · exact .of_own rfl c
      · exact .of_own rfl c

theorem State.ready_otherClaims (s : State) (c : Fin 6) (raw : RawArrival) : s.OtherClaimsKept (s.ready c raw) c := by
  have harrived : s.OtherClaimsKept ((s.arrived c raw).accumulate c) c := .of_own (by simp [State.arrived]) c
  exact harrived.trans (State.repeatAsks_otherClaims _ c)

/-- An arrival of a steep or a box leaves the other channels and their claims. -/
theorem State.arrival_others {s : State} {c : Fin 6} (hkind : (s.ch c).kind = .steep ∨ (s.ch c).kind = .box)
    (raw : RawArrival) : s.OthersKept (s.arrival c raw) c ∧ s.OtherClaimsKept (s.arrival c raw) c := by
  have hrun := s.ready_sameRun c raw
  have hready : s.OthersKept (s.ready c raw) c := fun d hd => by simp [State.ready, State.arrived, hd]
  rw [State.arrival_eq, State.kindArrival]
  simp only [hrun]
  rcases hkind with hkind | hkind
  · rw [hkind]
    exact ⟨fun d hd => by simp [hd, hready d hd],
      ((s.ready_otherClaims c raw).trans (State.steepArrival_otherClaims _ c)).trans (State.judgeInputs_otherClaims _ c)⟩
  · rw [hkind]
    exact ⟨fun d hd => by simp [hd, hready d hd],
      ((s.ready_otherClaims c raw).trans (State.boxArrival_otherClaims _ c)).trans (State.judgeInputs_otherClaims _ c)⟩

/-! ### From the arrival to the rules of the kind -/

theorem haltsOn_steep {h : Channel} {i : Input} (hkind : h.kind = .steep) (hhalts : haltsOn h i = true) :
    i = .ma ∨ i = .mb := by
  cases i <;> simp [haltsOn, hkind] at hhalts ⊢

theorem State.arrival_ready_inputs (s : State) (c : Fin 6) (raw : RawArrival) :
    ((s.arrival c raw).ch c).ma = ((s.ready c raw).ch c).ma ∧ ((s.arrival c raw).ch c).mb = ((s.ready c raw).ch c).mb
      ∧ ((s.arrival c raw).ch c).kind = ((s.ready c raw).ch c).kind := by
  simp [State.arrival_eq]

/-- With its MA and MB sound, the arrival of a steep or a box is the rules of its kind (R171). -/
theorem State.arrival_of_sound {s : State} {c : Fin 6} {raw : RawArrival}
    (hkind : (s.ch c).kind = .steep ∨ (s.ch c).kind = .box) (hma : ((s.arrival c raw).ch c).ma.faulted = false)
    (hmb : ((s.arrival c raw).ch c).mb.faulted = false) : s.arrival c raw = (s.ready c raw).kindArrival c raw := by
  have hrun := s.ready_sameRun c raw
  have hrules : (((s.ready c raw).kindArrival c raw).ch c).kind = (s.ch c).kind := by
    simp only [State.kindArrival_inputs, hrun]
  rw [State.arrival_eq] at hma hmb ⊢
  refine State.judgeInputs_of_sound fun i hi => ?_
  have hi : i = .ma ∨ i = .mb := by
    rcases hkind with hkind | hkind
    · exact haltsOn_steep (hrules.trans hkind) hi
    · exact haltsOn_box (hrules.trans hkind) hi
  rcases hi with rfl | rfl
  · simpa [Channel.input] using hma
  · simpa [Channel.input] using hmb

/-- In RUNNING the rules of a steep are those of its step. -/
theorem State.kindArrival_steep {s : State} {c : Fin 6} {r : PhaseRecord} (hkind : (s.ch c).kind = .steep)
    (hstate : (s.ch c).state = .running) (hstarted : (s.ch c).started = true) (hcurrent : (s.ch c).current = some r)
    (raw : RawArrival) : s.kindArrival c raw = s.steepRunning c r := by
  rw [State.kindArrival, hkind]
  show s.steepArrival c = _
  simp only [State.steepArrival, hstarted, hcurrent, hstate, if_true]

theorem drivesBy_of_running {h : Channel} {r : PhaseRecord} (hstate : h.state = .running) (hstarted : h.started = true)
    (hcurrent : h.current = some r) : h.drivesBy = some r := by
  simp [Channel.drivesBy, hstate, hstarted, hcurrent]

/-- Where no fan law runs, the rules of a box in RUNNING are those of its step. -/
theorem State.kindArrival_box {s : State} {c : Fin 6} {r : PhaseRecord} (hkind : (s.ch c).kind = .box)
    (hstate : (s.ch c).state = .running) (hstarted : (s.ch c).started = true) (hcurrent : (s.ch c).current = some r)
    (hfan : fanLawKind r.kind = false) (raw : RawArrival) :
    ((s.ch c).step = some .steadying → s.kindArrival c raw = s.judgeLevel c (steadyLevel (s.ch c).mb))
      ∧ ((s.ch c).step = some .loading → s.kindArrival c raw =
        if s.castHeld c && isEmpty10 (s.ch c).mb then s.castEnd c else s) := by
  have hbox : s.kindArrival c raw = s.boxArrival c := by rw [State.kindArrival, hkind]
  have hdrives := drivesBy_of_running hstate hstarted hcurrent
  refine ⟨fun hstep => ?_, fun hstep => ?_⟩
  all_goals
    rw [hbox]
    simp only [State.boxArrival, hdrives, hfan, Bool.false_eq_true, if_false, hstate, if_true, hstep]

/-! ### The claims at the rules of the kind -/

/-- What a filter finds at the rules of the kind, where it takes no fresh claim of the channel (R29). -/
theorem State.ready_filter {c : Fin 6} {q : OwnClaim → Bool} (hleft : ∀ n a, q (askedClaim c n a) = false) (s : State)
    (raw : RawArrival) : (s.ready c raw).own.filter q = s.own.filter q := by
  rw [State.ready, State.repeatAsks_filter hleft]
  have hown : ((s.arrived c raw).accumulate c).own = s.own := by simp [State.arrived]
  rw [hown]

theorem setpointAtArrival_asksDue (h : Channel) : (setpointAtArrival h).asksDue = h.asksDue := by
  have hramp : (takeRampStart h).asksDue = h.asksDue := by
    unfold takeRampStart
    split <;> rfl
  unfold setpointAtArrival
  split
  · dsimp only
    split
    · exact hramp
    · exact hramp
  · rfl

theorem State.ready_own {s : State} {c : Fin 6} (hnone : (s.ch c).asksDue = []) (raw : RawArrival) :
    (s.ready c raw).own = s.own := by
  obtain ⟨x, hx⟩ := (s.arrived c raw).accumulate_ch_self c
  have hdue : (((s.arrived c raw).accumulate c).ch c).asksDue = [] := by
    rw [hx, State.arrived_ch_self]
    exact (setpointAtArrival_asksDue _).trans hnone
  rw [State.ready, (State.repeatAsks_of_none hdue).1]
  simp [State.arrived]

theorem State.ready_postedOf (s : State) (c : Fin 6) (raw : RawArrival) (rs : List Resource) :
    (s.ready c raw).postedOf c rs = s.postedOf c rs := by
  obtain ⟨_, _, hcfg, _, hclaims, _⟩ := s.ready_rest c raw
  have hmark : (s.ready c raw).postedMark = s.postedMark := by
    funext o
    rw [State.postedMark, State.postedMark, hcfg, hclaims]
  have hposted (t : State) : t.postedOf c rs =
      t.own.filter fun o => (rs.contains o.resource && t.postedMark o) && o.channel == c := by
    rw [State.postedOf, State.claimsOf, List.filter_filter]
  rw [hposted, hposted, hmark]
  exact State.ready_filter (fun n a => by simp [askedClaim, State.postedMark]) s raw

end Sys2Proof.Machine

/-! ## Proofs: the steps that an arrival ends, one by one (R80, R82, R84, R87, R94, R101) -/

namespace Sys2Proof.Machine

/-! ### The waits that follow from the claims (R54) -/

theorem State.followFan_wait (s : State) (c d : Fin 6) : ((s.followFan c).ch d).wait = (s.ch d).wait := by
  unfold State.followFan
  split
  · rw [State.ch_modCh]
    split
    · next hd => rw [hd]
    · rfl
  · rfl

theorem State.followCast_wait (s : State) (c d : Fin 6) : ((s.followCast c).ch d).wait = (s.ch d).wait := by
  unfold State.followCast
  split
  · rw [State.ch_modCh]
    split
    · next hd => rw [hd]
    · rfl
  · rfl

theorem State.follow_wait (s : State) (c : Fin 6) : ((s.follow c).ch c).wait = { (s.ch c).wait with
    line := (s.ch c).wait.line && s.hasVoided c
    claim := (s.ch c).wait.claim && (s.kindNeeds c || s.restartNeeds c) } := by
  rw [State.follow, State.followCast_wait, State.followFan_wait, State.followWaits, State.ch_modCh_self]

theorem State.ask_wait (s : State) (c : Fin 6) (a : Ask) : ((s.ask c a).ch c).wait = (s.ch c).wait := by
  obtain ⟨l, hl⟩ := s.ask_ch c a
  rw [hl]

/-! ### The end of a fill (R80) -/

/-- The claims of the channel on a resource are gone; what follows from it is still to come. -/
def State.withoutOn (s : State) (c : Fin 6) (r : Resource) : State :=
  ({ s with own := s.own.filter fun o => !(o.channel == c && o.resource == r) } : State).modCh c
    fun h => { h with asksDue := h.asksDue.filter fun a => a.resource != r }

theorem State.dropOn_eq (s : State) (c : Fin 6) (r : Resource) : s.dropOn c r = (s.withoutOn c r).follow c := rfl

theorem State.withoutOn_ch_self (s : State) (c : Fin 6) (r : Resource) : (s.withoutOn c r).ch c =
    { s.ch c with asksDue := (s.ch c).asksDue.filter fun a => a.resource != r } := by
  rw [State.withoutOn, State.ch_modCh_self]
  rfl

theorem State.withoutOn_claims {s : State} {c : Fin 6} {r : Resource} {o : OwnClaim}
    (ho : o ∈ (s.withoutOn c r).claimsOf c) : o ∈ s.own ∧ o.channel = c ∧ o.resource ≠ r := by
  rw [State.claimsOf, List.mem_filter] at ho
  obtain ⟨hmem, hc⟩ := ho
  obtain ⟨hmem, hleft⟩ := List.mem_filter.mp hmem
  rw [beq_iff_eq] at hc
  exact ⟨hmem, hc, fun hr => by simp [hc, hr] at hleft⟩

theorem State.fillStopped_own (s : State) (c : Fin 6) :
    (s.fillStopped c).own = s.own.filter fun o => !(o.channel == c && o.resource == .water) := by
  simp [State.fillStopped, State.dropOn]

theorem State.fillStopped_runKept (s : State) (c : Fin 6) :
    (stoodChannel (s.ch c)).RunKept ((s.fillStopped c).ch c) := by
  have hkept := State.dropOn_runKept (s.modCh c stoodChannel) c .water c
  rw [State.ch_modCh_self] at hkept
  exact hkept

/-- Of the waits of a fill only those of other claims are left at its end. -/
theorem State.fillStopped_wait {s : State} {c : Fin 6} {r : PhaseRecord} (hstarted : (s.ch c).started = true)
    (hcurrent : (s.ch c).current = some r) (hwet : r.kind = .wet) :
    ((∀ o ∈ s.own, o.channel = c → o.resource ≠ .water → o.restartAsk = false) →
        ((s.fillStopped c).ch c).wait.claim = false)
      ∧ ((∀ o ∈ s.own, o.channel = c → o.resource ≠ .water → o.voided = false) →
        ((s.fillStopped c).ch c).wait.line = false) := by
  have hacting : (stoodChannel (s.ch c)).actingKind = some .wet := by
    simp [Channel.actingKind, Channel.phase, stoodChannel, hstarted, hcurrent, hwet]
  have hch := (s.modCh c stoodChannel).withoutOn_ch_self c .water
  have hclaims (o : OwnClaim) (ho : o ∈ ((s.modCh c stoodChannel).withoutOn c .water).claimsOf c) :
      o ∈ s.own ∧ o.channel = c ∧ o.resource ≠ .water := State.withoutOn_claims ho
  rw [State.ch_modCh_self] at hch
  rw [State.fillStopped, State.dropOn_eq, State.follow_wait]
  generalize (s.modCh c stoodChannel).withoutOn c .water = u at hch hclaims
  refine ⟨fun hrestart => ?_, fun hvoided => ?_⟩
  · have hneeds : u.kindNeeds c = false := by
      have hkind : (u.ch c).actingKind = some .wet := by rw [hch]; exact hacting
      have hstep : (u.ch c).step = some .standing := by rw [hch]; rfl
      simp only [State.kindNeeds, hkind, hstep]
      rfl
    have hasks : u.restartNeeds c = false := by
      rw [State.restartNeeds, List.any_eq_false]
      intro o ho
      obtain ⟨hmem, hc, hr⟩ := hclaims o ho
      simp [hrestart o hmem hc hr]
    simp [hneeds, hasks]
  · have hmarks : u.hasVoided c = false := by
      rw [State.hasVoided, List.any_eq_false]
      intro o ho
      obtain ⟨hmem, hc, hr⟩ := hclaims o ho
      simp [hvoided o hmem hc hr]
    simp [hmarks]

/-- A claim put into a list without claims that a filter takes is the one it finds. -/
theorem insertOwn_filter_self {q : OwnClaim → Bool} {o : OwnClaim} {l : List OwnClaim} (hself : q o = true)
    (hnone : l.filter q = []) : (insertOwn o l).filter q = [o] := by
  induction l with
  | nil => simp [insertOwn, hself]
  | cons a r ih =>
    obtain ⟨ha, hr⟩ : q a = false ∧ r.filter q = [] := by
      cases hq : q a
      · exact ⟨rfl, by simpa [hq] using hnone⟩
      · simp [hq] at hnone
    unfold insertOwn
    split
    · simp [hself, ha, hr]
    · split
      · simp [hself, hr]
      · simp [ha, ih hr]

theorem State.ask_claimsOf_of_none {s : State} {c : Fin 6} (hnone : s.claimsOf c = []) (a : Ask) :
    (s.ask c a).claimsOf c = [askedClaim c 0 a] := by
  have hfree : s.freeSlot c = some 0 := by
    have hslot : s.slotFree c 0 = true := by
      rw [State.slotFree, Option.isNone_iff_eq_none, State.ownAt, List.find?_eq_none]
      intro o ho hboth
      rw [Bool.and_eq_true] at hboth
      exact List.filter_eq_nil_iff.mp hnone o ho hboth.1
    simp [State.freeSlot, hslot]
  simp only [State.ask, hfree]
  exact insertOwn_filter_self (by simp [askedClaim]) hnone

theorem State.ask_claimsOn_of_other {s : State} {c : Fin 6} {a : Ask} {r : Resource} (hother : a.resource ≠ r) :
    (s.ask c a).claimsOn c r = s.claimsOn c r :=
  State.ask_filter (fun n => by simp [askedClaim, hother]) s

theorem State.fillStopped_claimsOn (s : State) (c : Fin 6) : (s.fillStopped c).claimsOn c .water = [] := by
  rw [State.claimsOn, State.fillStopped_own, List.filter_filter, List.filter_eq_nil_iff]
  intro o _
  simp

theorem State.fillStopped_claimsOf (s : State) (c : Fin 6) :
    (s.fillStopped c).claimsOf c = (s.claimsOf c).filter fun o => o.resource != .water := by
  rw [State.claimsOf, State.fillStopped_own, State.claimsOf, List.filter_filter, List.filter_filter]
  refine List.filter_congr fun o _ => ?_
  by_cases hc : o.channel = c
  · simp [hc, bne]
  · have hother : (o.channel == c) = false := by simpa using hc
    simp [hother]

/-- The channel at the end of a fill: it stands with its blower as the phase has one. -/
theorem State.fillEnd_spec {s : State} {c : Fin 6} {r : PhaseRecord} (hstarted : (s.ch c).started = true)
    (hcurrent : (s.ch c).current = some r) (hwet : r.kind = .wet) :
    let t := s.fillEnd c r
    (t.ch c).step = some .standing ∧ (t.ch c).standMark = some (s.ch c).timer ∧ (t.ch c).state = (s.ch c).state
      ∧ (t.ch c).kind = (s.ch c).kind ∧ t.claimsOn c .water = []
      ∧ ((∀ o ∈ s.own, o.channel = c → o.resource ≠ .water → o.restartAsk = false) → (t.ch c).wait.claim = false)
      ∧ ((∀ o ∈ s.own, o.channel = c → o.resource ≠ .water → o.voided = false) → (t.ch c).wait.line = false)
      ∧ (r.blowerOn = none → (t.ch c).blower = (s.ch c).blower
        ∧ t.claimsOf c = (s.claimsOf c).filter fun o => o.resource != .water)
      ∧ (r.blowerOn.isSome = true → (t.ch c).blower = some 0 ∧ (t.ch c).blowerOn = true
        ∧ ((∀ o ∈ s.claimsOf c, o.resource = .water) → t.claimsOf c =
          [askedClaim c 0 ⟨.power, r.power.getD 0, r.priority, r.sheddable, none, none⟩])) := by
  dsimp only
  have hkept := s.fillStopped_runKept c
  have hwater := s.fillStopped_claimsOn c
  have hclaims := s.fillStopped_claimsOf c
  have hkind : ((s.fillStopped c).ch c).kind = (s.ch c).kind := by simp [State.fillStopped, stoodChannel]
  obtain ⟨hclaim, hline⟩ := State.fillStopped_wait hstarted hcurrent hwet
  rw [State.fillEnd_eq]
  cases hblower : r.blowerOn with
  | none =>
    rw [if_neg (by simp)]
    refine ⟨?_, ?_, ?_, hkind, hwater, hclaim, hline, fun _ => ⟨?_, hclaims⟩, by simp⟩
    all_goals
      simp only [hkept]
      rfl
  | some n =>
    rw [if_pos (by rfl)]
    set u := (s.fillStopped c).modCh c blowerStarted with hu
    have hch : u.ch c = blowerStarted ((s.fillStopped c).ch c) := State.ch_modCh_self _ c _
    have hpower : phaseAsk r .power (r.power.getD 0) = ⟨.power, r.power.getD 0, r.priority, r.sheddable, none, none⟩ := by
      simp [phaseAsk, shedFlag, hwet, kilnFanKind, burns]
    obtain ⟨l, hl⟩ := u.ask_ch c (phaseAsk r .power (r.power.getD 0))
    rw [hch] at hl
    rw [hl]
    refine ⟨?_, ?_, ?_, hkind, ?_, hclaim, hline, by simp, fun _ => ⟨rfl, rfl, fun honly => ?_⟩⟩
    · show ((s.fillStopped c).ch c).step = _
      simp only [hkept]
      rfl
    · show ((s.fillStopped c).ch c).standMark = _
      simp only [hkept]
      rfl
    · show ((s.fillStopped c).ch c).state = _
      simp only [hkept]
      rfl
    · rw [State.ask_claimsOn_of_other (by simp [phaseAsk])]
      exact hwater
    · rw [← hpower]
      refine State.ask_claimsOf_of_none ?_ _
      have hnone : (s.fillStopped c).claimsOf c = [] := by
        rw [hclaims, List.filter_eq_nil_iff]
        intro o ho
        simp [honly o ho]
      exact hnone

/-- A fill below its level goes on; a shed sets CLAIM_WAIT (R80). -/
theorem State.fillShed_spec (s : State) (c : Fin 6) :
    ((s.fillShed c).ch c).step = (s.ch c).step ∧ ((s.fillShed c).ch c).standMark = (s.ch c).standMark
      ∧ (s.postedOf c [.water] = [] → s.fillShed c = s)
      ∧ (s.postedOf c [.water] ≠ [] → ((s.fillShed c).ch c).wait.claim = true) := by
  have hlaw := s.shedPoint_sameLaw c [.water] c
  unfold State.fillShed
  cases hposted : s.postedOf c [.water] with
  | nil => simp
  | cons o l =>
    simp only [List.isEmpty_cons, Bool.false_eq_true, if_false, State.ch_modCh_self, hlaw, true_and]
    simp

/-! ### The end of a drain (R82) -/

theorem State.drainEnd_ch_self (s : State) (c : Fin 6) : (s.drainEnd c).ch c = { s.ch c with
    step := some .resting, standMark := some (s.ch c).timer, blower := some 0, restEdges := 0
    wait := { (s.ch c).wait with claim := (s.ch c).wait.claim || !s.hasHeld c .power } } := by
  rw [State.drainEnd, State.ch_modCh_self]

theorem isEmpty10_of_value {x : InputState} {v : Int} (hvalue : x.value = some v) : isEmpty10 x = decide (v ≤ 10) := by
  rw [isEmpty10, hvalue]

theorem isFull_of_values {x : InputState} {r : PhaseRecord} {v : Int} {level : Nat} (hvalue : x.value = some v)
    (hlevel : r.fillLevel = some level) : isFull x r = decide ((level : Int) ≤ v) := by
  simp only [isFull, hvalue, hlevel]

/-! ### The drives at the end of a step (R172) -/

theorem State.outputs_of_steep {s : State} {c : Fin 6} (hkind : (s.ch c).kind = .steep) :
    ((s.ch c).step ≠ some .filling → (s.outputs c).d0 = 0) ∧ ((s.ch c).step ≠ some .draining → (s.outputs c).d1 = 0)
      ∧ (s.hasHeld c .power = false → (s.outputs c).d2 = 0) ∧ ((s.ch c).step ≠ some .casting → (s.outputs c).d3 = 0) := by
  cases hoff : s.forcedOff c
  · have hlive : s.live = true := by
      simp only [State.forcedOff, Bool.or_eq_false_iff] at hoff
      obtain ⟨⟨hlive, _⟩, _⟩ := hoff
      simpa using hlive
    rw [State.outputs_of_running hoff, hkind]
    simp only [State.command, hlive, if_true, hkind, steepCommand]
    refine ⟨fun hstep => ?_, fun hstep => ?_, fun hpower => ?_, fun hstep => ?_⟩
    · simp [hstep, bit, gated]
    · simp [hstep, bit]
    · rw [hpower, gated_false]
    · simp [hstep, bit, gated]
  · rw [State.outputs_of_forcedOff hoff]
    simp [allOff]

theorem State.outputs_of_box_loads {s : State} {c : Fin 6} (hkind : (s.ch c).kind = .box)
    (hstep : (s.ch c).step ≠ some .loading) : (s.outputs c).d2 = 0 ∧ (s.outputs c).d3 = 0 := by
  cases hoff : s.forcedOff c
  · have hlive : s.live = true := by
      simp only [State.forcedOff, Bool.or_eq_false_iff] at hoff
      obtain ⟨⟨hlive, _⟩, _⟩ := hoff
      simpa using hlive
    rw [State.outputs_of_running hoff, hkind]
    simp only [State.command, hlive, if_true, hkind, boxCommand]
    exact ⟨by simp [hstep, bit, gated], trivial⟩
  · rw [State.outputs_of_forcedOff hoff]
    exact ⟨rfl, rfl⟩

theorem State.NoClaims.hasHeld {s : State} {c : Fin 6} (hnone : s.NoClaims c) (r : Resource) :
    s.hasHeld c r = false := by
  rw [State.hasHeld, List.any_eq_false]
  intro o ho hheld
  simp only [Bool.and_eq_true, beq_iff_eq] at hheld
  exact hnone o ho hheld.1.1

/-! ### A level that steadies (R84, R85, R94) -/

theorem State.judgeLevel_of_few {s : State} {c : Fin 6} {level : Option Int}
    (hfew : (steadyNext (s.ch c).steady level).count < 10) :
    s.judgeLevel c level = s.modCh c fun h => { h with steady := steadyNext (s.ch c).steady level } := by
  rw [State.judgeLevel, if_neg (Nat.not_le.mpr hfew)]

/-- A steady level captures: the entry goes into the pending list, or waits with the channel (R159). -/
theorem State.captureLevel_spec (s : State) (c : Fin 6) (run : SteadyRun) :
    let e := gaugeCapture s.cfg c (s.ch c) run.sum
    ((s.captureLevel c run).ch c).step = some .captured
      ∧ (s.book.waiting = [] → s.canTake 1 = true →
        (s.captureLevel c run).book = { s.book with pend := s.book.pend ++ [⟨e, true⟩] }
          ∧ ((s.captureLevel c run).ch c).wait.gauge = (s.ch c).wait.gauge)
      ∧ (¬ (s.book.waiting = [] ∧ s.canTake 1 = true) →
        ((s.captureLevel c run).ch c).captures = [e] ∧ ((s.captureLevel c run).ch c).wait.gauge = true
          ∧ c ∈ (s.captureLevel c run).book.waiting) := by
  dsimp only
  set u := s.modCh c fun h => { h with step := some .captured, steady := run } with hu
  have hch : u.ch c = { s.ch c with step := some .captured, steady := run } := State.ch_modCh_self s c _
  have heq : s.captureLevel c run = u.offerCaptures c [gaugeCapture s.cfg c (s.ch c) run.sum] := rfl
  have hcan : u.canTake 1 = s.canTake 1 := rfl
  rw [heq]
  refine ⟨?_, fun hempty htake => ?_, fun hwaits => ?_⟩
  · rw [State.offerCaptures_step, hch]
  · rw [State.offerCaptures_taken (s := u) hempty (by exact hcan.trans htake)]
    exact ⟨rfl, by show (u.ch c).wait.gauge = _; rw [hch]⟩
  · rw [State.offerCaptures_held (s := u) (by exact hwaits), State.ch_modCh_self]
    refine ⟨rfl, rfl, ?_⟩
    show c ∈ joinList s.book.waiting c
    unfold joinList
    split
    · next hin => simpa using hin
    · simp

end Sys2Proof.Machine

/-! ## Proofs: an arrival ends the step of a RUNNING phase (R80 to R87, R94, R101) -/

namespace Sys2Proof.Machine

/-- What the front end and the statistics leave the rules of the kind to go on from. -/
theorem State.ready_fields (s : State) (c : Fin 6) (raw : RawArrival) : (s.ready c raw).castends = s.castends
    ∧ (s.ready c raw).book = s.book ∧ (s.ready c raw).cfg = s.cfg ∧ (s.ready c raw).canTake 1 = s.canTake 1 := by
  obtain ⟨_, _, hcfg, hline, _, _, hcastends, hbook⟩ := s.ready_rest c raw
  exact ⟨hcastends, hbook, hcfg, by rw [State.canTake, hline, hbook, ← State.canTake]⟩

/-- A mark that only a claim of the channel itself can bring is no fresh ask's. -/
theorem State.ready_unmarked {s : State} {c : Fin 6} {mark : OwnClaim → Bool}
    (hfresh : ∀ n a, mark (askedClaim c n a) = false) (raw : RawArrival)
    (hnone : ∀ o ∈ s.claimsOf c, o.resource ≠ .water → mark o = false) :
    ∀ o ∈ (s.ready c raw).own, o.channel = c → o.resource ≠ .water → mark o = false := by
  have hsame := State.ready_filter (c := c) (q := fun o => o.channel == c && mark o) (fun n a => by simp [hfresh]) s raw
  intro o ho hc hr
  cases hmark : mark o
  · rfl
  · have hmem : o ∈ (s.ready c raw).own.filter fun o => o.channel == c && mark o :=
      List.mem_filter.mpr ⟨ho, by simp [hc, hmark]⟩
    rw [hsame, List.mem_filter] at hmem
    have hzero := hnone o (List.mem_filter.mpr ⟨hmem.1, by simp [hc]⟩) hr
    rw [hmark] at hzero
    exact absurd hzero Bool.noConfusion

/-- A steep's fill at its level, at an arrival. -/
theorem State.arrival_fillEnd {s : State} {c : Fin 6} {raw : RawArrival} {r : PhaseRecord}
    (hstate : (s.ch c).state = .running) (hstarted : (s.ch c).started = true) (hcurrent : (s.ch c).current = some r)
    (hkind : (s.ch c).kind = .steep) (hwet : r.kind = .wet)
    (harrival : s.arrival c raw = (s.ready c raw).fillEnd c r) :
    let t := s.arrival c raw
    (t.ch c).step = some .standing ∧ (t.ch c).standMark = some (s.ch c).timer ∧ t.claimsOn c .water = []
      ∧ (t.outputs c).d0 = 0 ∧ (t.ch c).state = .running ∧ t.castends = s.castends ∧ t.book = s.book
      ∧ ((∀ o ∈ s.claimsOf c, o.resource ≠ .water → o.restartAsk = false) → (t.ch c).wait.claim = false)
      ∧ ((∀ o ∈ s.claimsOf c, o.resource ≠ .water → o.voided = false) → (t.ch c).wait.line = false)
      ∧ (r.blowerOn = none → (t.ch c).blower = (s.ch c).blower
          ∧ ((s.ch c).asksDue = [] → t.claimsOf c = (s.claimsOf c).filter fun o => o.resource != .water))
      ∧ (r.blowerOn.isSome = true → (t.ch c).blower = some 0 ∧ (t.ch c).blowerOn = true
          ∧ ((s.ch c).asksDue = [] → (∀ o ∈ s.claimsOf c, o.resource = .water) → t.claimsOf c =
              [askedClaim c 0 ⟨.power, r.power.getD 0, r.priority, r.sheddable, none, none⟩])) := by
  dsimp only
  have hrun := s.ready_sameRun c raw
  obtain ⟨hcastends, hbook, _, _⟩ := s.ready_fields c raw
  obtain ⟨hstep, hstand, hstill, hsteep, hwater, hclaim, hline, hplain, hblown⟩ :=
    State.fillEnd_spec (s := s.ready c raw) (c := c) (r := r) (by simp only [hrun, hstarted])
      (by simp only [hrun, hcurrent]) hwet
  simp only [hrun] at hstand hstill hsteep hplain hblown
  have hclaimsOf (hnone : (s.ch c).asksDue = []) : (s.ready c raw).claimsOf c = s.claimsOf c := by
    rw [State.claimsOf, State.ready_own hnone, ← State.claimsOf]
  rw [harrival]
  refine ⟨hstep, hstand, hwater, (State.outputs_of_steep (hsteep.trans hkind)).1 (by simp [hstep]), hstill.trans hstate,
    by simp [hcastends], by simp [hbook], fun hmarks => hclaim ?_, fun hmarks => hline ?_, fun hnone => ?_, fun hsome => ?_⟩
  · exact State.ready_unmarked (mark := fun o => o.restartAsk) (fun _ _ => rfl) raw hmarks
  · exact State.ready_unmarked (mark := fun o => o.voided) (fun _ _ => rfl) raw hmarks
  · obtain ⟨hblower, hleft⟩ := hplain hnone
    exact ⟨hblower, fun hdue => by rw [hleft, hclaimsOf hdue]⟩
  · obtain ⟨hblower, hon, hleft⟩ := hblown hsome
    exact ⟨hblower, hon, fun hdue honly => hleft (by rw [hclaimsOf hdue]; exact honly)⟩

/-- The channel at the rules of its kind is RUNNING in the same phase. -/
theorem State.ready_running {s : State} {c : Fin 6} {r : PhaseRecord} (hstate : (s.ch c).state = .running)
    (hstarted : (s.ch c).started = true) (hcurrent : (s.ch c).current = some r) (raw : RawArrival) :
    ((s.ready c raw).ch c).state = .running ∧ ((s.ready c raw).ch c).started = true
      ∧ ((s.ready c raw).ch c).current = some r := by
  have hrun := s.ready_sameRun c raw
  simp only [hrun, hstate, hstarted, hcurrent, and_self]

/-- A drain at an arrival. -/
theorem State.arrival_drain {s : State} {c : Fin 6} {raw : RawArrival} {r : PhaseRecord} {v : Int}
    (hkind : (s.ch c).kind = .steep) (hstep : (s.ch c).step = some .draining)
    (hvalue : ((s.ready c raw).ch c).mb.value = some v)
    (harrival : s.arrival c raw = (s.ready c raw).steepRunning c r) :
    let t := s.arrival c raw
    (v ≤ 10 → (t.ch c).step = some .resting ∧ (t.ch c).standMark = some (s.ch c).timer ∧ (t.ch c).blower = some 0
        ∧ (t.ch c).restEdges = 0
        ∧ (t.ch c).wait = { (s.ch c).wait with claim := (s.ch c).wait.claim || !s.hasHeld c .power }
        ∧ (t.outputs c).d1 = 0)
      ∧ (10 < v → (t.ch c).step = some .draining ∧ (t.ch c).standMark = (s.ch c).standMark
        ∧ (t.ch c).wait = (s.ch c).wait)
      ∧ t.castends = s.castends ∧ t.book = s.book ∧ ((s.ch c).asksDue = [] → t.own = s.own) := by
  dsimp only
  have hrun := s.ready_sameRun c raw
  obtain ⟨hcastends, hbook, _, _⟩ := s.ready_fields c raw
  have hheld := State.hasHeld_of_heldOn (s.ready_heldOn c c raw .power)
  have hrules : s.arrival c raw =
      if v ≤ 10 then (s.ready c raw).drainEnd c else s.ready c raw := by
    rw [harrival]
    simp only [State.steepRunning, hrun, hstep, isEmpty10_of_value hvalue, decide_eq_true_eq]
  by_cases hempty : v ≤ 10
  · rw [if_pos hempty] at hrules
    have hch := (s.ready c raw).drainEnd_ch_self c
    rw [hrules]
    refine ⟨fun _ => ⟨?_, ?_, ?_, ?_, ?_, ?_⟩, fun hfull => absurd hempty (by omega), by simp [hcastends], by simp [hbook],
      fun hdue => ?_⟩
    · rw [hch]
    · rw [hch]
      simp only [hrun]
    · rw [hch]
    · rw [hch]
    · rw [hch]
      simp only [hrun, hheld]
    · refine (State.outputs_of_steep (s := (s.ready c raw).drainEnd c) ?_).2.1 (by rw [hch]; simp)
      rw [hch]
      simp only [hrun, hkind]
    · exact (State.ready_own hdue raw : (s.ready c raw).own = s.own)
  · rw [if_neg hempty] at hrules
    rw [hrules]
    exact ⟨fun hless => absurd hless hempty, fun _ => by simp only [hrun, hstep, and_self], hcastends, hbook,
      fun hdue => State.ready_own hdue raw⟩

/-- The claims of a cast or a load-out at the rules of the kind. -/
theorem State.ready_castHeld {s : State} {c : Fin 6} (hkind : (s.ch c).kind = .steep ∨ (s.ch c).kind = .box)
    (raw : RawArrival) : (s.ready c raw).castHeld c = true ↔ s.hasHeld c .power = true
      ∧ s.hasHeld c (if (s.ch c).kind = .steep then .castway else .loader) = true := by
  have hrun := s.ready_sameRun c raw
  have hheld (r : Resource) := State.hasHeld_of_heldOn (s.ready_heldOn c c raw r)
  rw [State.castHeld, hheld, hheld, Bool.and_eq_true]
  simp only [hrun]
  rcases hkind with hkind | hkind
  · simp [hkind, and_comm]
  · simp [hkind, and_comm]

/-- A cast or a load-out at an arrival. -/
theorem State.arrival_cast {s : State} {c : Fin 6} {raw : RawArrival} {v : Int} {p : Piece} {d : Pair}
    (hkind : (s.ch c).kind = .steep ∨ (s.ch c).kind = .box) (hstate : (s.ch c).state = .running)
    (hvalue : ((s.ready c raw).ch c).mb.value = some v) (hpiece : (s.ch c).piece = some p)
    (hpartner : (s.ch c).xfer.partner = some d) (harrival : s.arrival c raw =
      if (s.ready c raw).castHeld c && isEmpty10 ((s.ready c raw).ch c).mb then (s.ready c raw).castEnd c
      else s.ready c raw) :
    let t := s.arrival c raw
    let held := s.hasHeld c .power = true ∧ s.hasHeld c (if (s.ch c).kind = .steep then .castway else .loader) = true
    (held → v ≤ 10 → (t.ch c).step = some (if (s.ch c).kind = .steep then .castEnded else .loadEnded)
        ∧ (t.ch c).xfer.state = .ended ∧ t.NoClaims c ∧ t.castends = placeCastend ⟨c.val, d, .complete p⟩ s.castends
        ∧ (t.ch c).piece = some p ∧ (t.ch c).state = .running ∧ (t.outputs c).d2 = 0 ∧ (t.outputs c).d3 = 0)
      ∧ (¬ (held ∧ v ≤ 10) → (t.ch c).step = (s.ch c).step ∧ (t.ch c).xfer = (s.ch c).xfer
        ∧ t.castends = s.castends ∧ ((s.ch c).asksDue = [] → t.claimsOf c = s.claimsOf c)) := by
  dsimp only
  have hrun := s.ready_sameRun c raw
  obtain ⟨hcastends, _, _, _⟩ := s.ready_fields c raw
  have hboth : ((s.ready c raw).castHeld c && isEmpty10 ((s.ready c raw).ch c).mb) = true ↔
      (s.hasHeld c .power = true ∧ s.hasHeld c (if (s.ch c).kind = .steep then .castway else .loader) = true) ∧ v ≤ 10 := by
    rw [Bool.and_eq_true, State.ready_castHeld hkind, isEmpty10_of_value hvalue, decide_eq_true_eq]
  refine ⟨fun hheld hempty => ?_, fun hnot => ?_⟩
  · rw [if_pos (hboth.mpr ⟨hheld, hempty⟩)] at harrival
    obtain ⟨hended, hclaims, hstep, hplaced, hstill, _, _, _⟩ := State.castEnd_spec (s := s.ready c raw) (c := c) (p := p)
      (d := d) (by simp only [hrun, hpiece]) (by simp only [hrun, hpartner])
    have hsame : (((s.ready c raw).castEnd c).ch c).state = .running := by
      simp [State.castEnd_eq, castStopped, hrun, hstate]
    have hkeeps : (((s.ready c raw).castEnd c).ch c).kind = (s.ch c).kind := by simp [hrun]
    rw [harrival]
    simp only [hrun] at hstep
    rcases hkind with hsteep | hbox
    · rw [hsteep] at hstep hkeeps
      obtain ⟨_, _, hd2, hd3⟩ := State.outputs_of_steep hkeeps
      refine ⟨?_, hended, hclaims, by rw [hplaced, hcastends], hstill, hsame, hd2 (hclaims.hasHeld _), hd3 ?_⟩
      · rw [hstep, hsteep]
        rfl
      · rw [hstep]
        simp
    · rw [hbox] at hstep hkeeps
      obtain ⟨hd2, hd3⟩ := State.outputs_of_box_loads hkeeps (by rw [hstep]; simp)
      refine ⟨?_, hended, hclaims, by rw [hplaced, hcastends], hstill, hsame, hd2, hd3⟩
      rw [hstep, hbox]
      rfl
  · rw [if_neg fun h => hnot (hboth.mp h)] at harrival
    rw [harrival]
    refine ⟨by simp only [hrun], by simp only [hrun], hcastends, fun hdue => ?_⟩
    rw [State.claimsOf, State.ready_own hdue, ← State.claimsOf]

/-- A level in STEADYING at an arrival. -/
theorem State.arrival_steady {s : State} {c : Fin 6} {raw : RawArrival} (hstep : (s.ch c).step = some .steadying)
    (harrival : s.arrival c raw = (s.ready c raw).judgeLevel c (steadyLevel ((s.ready c raw).ch c).mb)) :
    let t := s.arrival c raw
    let h := s.ch c
    let k := t.ch c
    let mb := ((s.ready c raw).ch c).mb
    (mb.replaced = true ∨ mb.value = none → k.steady = {} ∧ k.step = some .steadying)
      ∧ (∀ v, mb.replaced = false → mb.value = some v →
        (h.steady.count = 0 ∨ h.steady.count ≤ 9 ∧ 5 < (v - h.steady.first).natAbs →
          k.steady = { first := v, count := 1, sum := v } ∧ k.step = some .steadying ∧ t.book = s.book)
        ∧ (1 ≤ h.steady.count → h.steady.count ≤ 8 → (v - h.steady.first).natAbs ≤ 5 →
          k.steady = { h.steady with count := h.steady.count + 1, sum := h.steady.sum + v }
            ∧ k.step = some .steadying ∧ t.book = s.book)
        ∧ (h.steady.count = 9 → (v - h.steady.first).natAbs ≤ 5 →
          let e := gaugeCapture s.cfg c h (h.steady.sum + v)
          k.step = some .captured
          ∧ (s.book.waiting = [] → s.canTake 1 = true →
              t.book = { s.book with pend := s.book.pend ++ [⟨e, true⟩] } ∧ k.wait.gauge = h.wait.gauge)
          ∧ (¬ (s.book.waiting = [] ∧ s.canTake 1 = true) →
              k.captures = [e] ∧ k.wait.gauge = true ∧ c ∈ t.book.waiting))) := by
  dsimp only
  have hrun := s.ready_sameRun c raw
  obtain ⟨_, hbook, hcfg, hcan⟩ := s.ready_fields c raw
  have hfew {level : Option Int} {run : SteadyRun} (heq : steadyNext (s.ch c).steady level = run) (hcount : run.count < 10) :
      (((s.ready c raw).judgeLevel c level).ch c).steady = run
        ∧ (((s.ready c raw).judgeLevel c level).ch c).step = some .steadying
        ∧ ((s.ready c raw).judgeLevel c level).book = s.book := by
    have hnext : steadyNext ((s.ready c raw).ch c).steady level = run := by simp only [hrun, heq]
    rw [State.judgeLevel_of_few (by rw [hnext]; exact hcount), State.ch_modCh_self, hnext]
    exact ⟨rfl, by simp only [hrun, hstep], hbook⟩
  rw [harrival]
  refine ⟨fun habsent => ?_, fun v hsound hvalue => ?_⟩
  · have hnone : steadyLevel ((s.ready c raw).ch c).mb = none := by
      unfold steadyLevel
      rcases habsent with hreplaced | hnone
      · rw [if_pos hreplaced]
      · rw [hnone, ite_self]
    rw [hnone]
    obtain ⟨hsteady, hstill, _⟩ := hfew (level := none) (run := {}) rfl (by decide)
    exact ⟨hsteady, hstill⟩
  · have hlevel : steadyLevel ((s.ready c raw).ch c).mb = some v := by simp [steadyLevel, hsound, hvalue]
    rw [hlevel]
    refine ⟨fun hnew => ?_, fun hone height hwithin => ?_, fun hnine hwithin => ?_⟩
    · exact hfew (steadyNext_first (hnew.imp_right And.right)) (by show 1 < 10; omega)
    · exact hfew (steadyNext_within (by omega) hwithin) (by show (s.ch c).steady.count + 1 < 10; omega)
    · rw [State.judgeLevel_of_tenth (s := s.ready c raw) (by simp only [hrun, hnine]) (by simpa only [hrun] using hwithin)]
      have hcapture := (s.ready c raw).captureLevel_spec c
        { ((s.ready c raw).ch c).steady with count := 10, sum := ((s.ready c raw).ch c).steady.sum + v }
      have hitem (sum : Int) : gaugeCapture (s.ready c raw).cfg c ((s.ready c raw).ch c) sum = gaugeCapture s.cfg c (s.ch c) sum := by
        simp only [gaugeCapture, hcfg, hrun]
      simp only [hitem, hbook, hcan] at hcapture
      simp only [hrun] at hcapture ⊢
      exact hcapture

/-- Settles O12, by the rules of a steep and of a box in the step in which the arrival finds the phase. -/
theorem arrivalEndsSteps : Obligations.ArrivalEndsSteps := by
  intro s c raw r hlive hstate hstarted hcurrent hkind
  obtain ⟨hothers, hclaims⟩ := State.arrival_others hkind raw
  have hused : (s.ch c).kind ≠ .unused := by
    rcases hkind with hkind | hkind
    all_goals simp [hkind]
  refine ⟨_, exec_measurementArrival hlive hused raw, hothers, hclaims, fun hma hmb => ?_⟩
  have hsound := State.arrival_of_sound hkind hma hmb
  have hrun := s.ready_sameRun c raw
  obtain ⟨hruns, hbegun, hrecord⟩ := State.ready_running hstate hstarted hcurrent raw
  obtain ⟨_, hinput, _⟩ := s.arrival_ready_inputs c raw
  have hsteep (hk : (s.ch c).kind = .steep) : s.arrival c raw = (s.ready c raw).steepRunning c r :=
    hsound.trans (State.kindArrival_steep (by simp only [hrun, hk]) hruns hbegun hrecord raw)
  have hbox (hk : (s.ch c).kind = .box) (hfan : fanLawKind r.kind = false) :=
    State.kindArrival_box (s := s.ready c raw) (by simp only [hrun, hk]) hruns hbegun hrecord hfan raw
  rw [hinput]
  refine ⟨fun v level hk hwet hstep hvalue hlevel => ⟨fun hfull => ?_, fun hbelow => ?_⟩,
    fun v hk hair hstep hvalue => State.arrival_drain hk hstep hvalue (hsteep hk),
    fun v p d hvalue hpiece hpartner hcase => State.arrival_cast hkind hstate hvalue hpiece hpartner ?_,
    fun hstep hcase => State.arrival_steady hstep ?_⟩
  · refine State.arrival_fillEnd hstate hstarted hcurrent hk hwet ?_
    rw [hsteep hk]
    simp only [State.steepRunning, hrun, hstep, isFull_of_values hvalue hlevel, hfull, decide_true, if_true]
  · have hshed : s.arrival c raw = (s.ready c raw).fillShed c := by
      rw [hsteep hk]
      simp only [State.steepRunning, hrun, hstep, isFull_of_values hvalue hlevel,
        decide_eq_false (Int.not_le.mpr hbelow), Bool.false_eq_true, if_false]
    obtain ⟨hstill, hstand, hnone, hsome⟩ := (s.ready c raw).fillShed_spec c
    obtain ⟨_, hbook, _, _⟩ := s.ready_fields c raw
    rw [State.ready_postedOf] at hnone hsome
    rw [hshed]
    refine ⟨by rw [hstill]; simp only [hrun, hstep], by rw [hstand]; simp only [hrun], by simp [hbook], fun hp => ?_, hsome⟩
    rw [hnone hp]
    exact ⟨by simp only [hrun], fun hdue => State.ready_own hdue raw⟩
  · rcases hcase with ⟨hk, _, hstep⟩ | ⟨hk, hload, hstep⟩
    · rw [hsteep hk]
      simp only [State.steepRunning, hrun, hstep]
    · exact hsound.trans ((hbox hk (by rw [hload]; rfl)).2 (by simp only [hrun, hstep]))
  · rcases hcase with ⟨hk, _⟩ | ⟨hk, hcouch⟩
    · rw [hsteep hk]
      simp only [State.steepRunning, hrun, hstep]
    · exact hsound.trans ((hbox hk (by rw [hcouch]; rfl)).1 (by simp only [hrun, hstep]))

end Sys2Proof.Machine

/-! ## Proofs: shed postings (R47) -/

namespace Sys2Proof.Machine

/-! ### A list put in an order -/

theorem insertBy_perm {α : Type} (before : α → α → Bool) (x : α) (l : List α) : (insertBy before x l).Perm (x :: l) := by
  induction l with
  | nil => exact .refl _
  | cons a r ih =>
    unfold insertBy
    split
    · exact .refl _
    · exact (ih.cons a).trans (.swap x a r)

theorem sortBy_perm {α : Type} (before : α → α → Bool) (l : List α) : (sortBy before l).Perm l := by
  induction l with
  | nil => exact .refl _
  | cons a r ih => exact (insertBy_perm before a _).trans (ih.cons a)

theorem insertBy_pairwise {α : Type} {before : α → α → Bool} (hasymm : ∀ a b, before a b = true → before b a = false)
    (htrans : ∀ a b c, before a b = true → before b c = true → before a c = true) {l : List α}
    (hsorted : l.Pairwise fun a b => before b a = false) (x : α) :
    (insertBy before x l).Pairwise fun a b => before b a = false := by
  induction l with
  | nil => simp [insertBy]
  | cons a r ih =>
    obtain ⟨hfirst, hrest⟩ := List.pairwise_cons.mp hsorted
    unfold insertBy
    split
    · next hx =>
      refine List.pairwise_cons.mpr ⟨fun b hb => ?_, hsorted⟩
      rcases List.mem_cons.mp hb with rfl | hb
      · exact hasymm x b hx
      · cases hbx : before b x
        · rfl
        · have hba := htrans b x a hbx hx
          rw [hfirst b hb] at hba
          exact absurd hba Bool.false_ne_true
    · next hx =>
      refine List.pairwise_cons.mpr ⟨fun b hb => ?_, ih hrest⟩
      rcases List.mem_cons.mp ((insertBy_perm before x r).subset hb) with rfl | hb
      · exact eq_false_of_ne_true hx
      · exact hfirst b hb

theorem sortBy_pairwise {α : Type} {before : α → α → Bool} (hasymm : ∀ a b, before a b = true → before b a = false)
    (htrans : ∀ a b c, before a b = true → before b c = true → before a c = true) (l : List α) :
    (sortBy before l).Pairwise fun a b => before b a = false := by
  induction l with
  | nil => exact .nil
  | cons a r ih => exact insertBy_pairwise hasymm htrans ih a

/-- An order that does not see a change of the elements puts the changed list in the same order. -/
theorem sortBy_map {α : Type} {before : α → α → Bool} {f : α → α} (hf : ∀ a b, before (f a) (f b) = before a b)
    (l : List α) : sortBy before (l.map f) = (sortBy before l).map f := by
  have hinsert (x : α) (l : List α) : insertBy before (f x) (l.map f) = (insertBy before x l).map f := by
    induction l with
    | nil => rfl
    | cons a r ih =>
      rw [List.map_cons, insertBy, insertBy, hf]
      split
      · rfl
      · rw [ih, List.map_cons]
  induction l with
  | nil => rfl
  | cons a r ih => rw [List.map_cons, sortBy, ih, hinsert, sortBy]

/-! ### The victim order (R47 step 3) -/

theorem ClaimEntry.shedFirst_iff (a b : ClaimEntry) : a.shedFirst b = true ↔ a.priority < b.priority
    ∨ a.priority = b.priority ∧ (a.age < b.age ∨ a.age = b.age ∧ b.key < a.key) := by
  simp [ClaimEntry.shedFirst, firstLess]

theorem candidates_pairwise (l : List ClaimEntry) (w : ClaimEntry) :
    (candidates l w).Pairwise fun a b => b.shedFirst a = false := by
  refine sortBy_pairwise (fun a b hab => ?_) (fun a b c hab hbc => ?_) _
  · refine eq_false_of_ne_true fun hba => ?_
    rw [ClaimEntry.shedFirst_iff] at hab hba
    omega
  · rw [ClaimEntry.shedFirst_iff] at hab hbc ⊢
    omega

theorem mem_candidates (l : List ClaimEntry) (w e : ClaimEntry) : e ∈ candidates l w ↔
    e ∈ l ∧ e.holds w.resource = true ∧ e.sheddable = true ∧ e.priority < w.priority := by
  rw [candidates, (sortBy_perm _ _).mem_iff, List.mem_filter]
  simp [and_assoc]

theorem shedWaiter_mem {l : List ClaimEntry} {r : Resource} {w : ClaimEntry} (hw : shedWaiter l r = some w) :
    w ∈ l ∧ w.waits r = true ∧ w.shed = true := by
  have hmem := (sortBy_perm _ _).subset (List.mem_of_head? hw)
  rw [List.mem_filter, Bool.and_eq_true] at hmem
  obtain ⟨hin, hwaits, hshed⟩ := hmem
  exact ⟨hin, hwaits, hshed⟩

/-! ### The victims (R47 step 4) -/

/-- The amounts of entries together. -/
def amountSum (l : List ClaimEntry) : Nat := total (l.map (·.amount))

theorem amountSum_cons (e : ClaimEntry) (l : List ClaimEntry) : amountSum (e :: l) = e.amount + amountSum l := rfl

theorem victimsOf_of_short {need : Nat} {l : List ClaimEntry} (hshort : amountSum l < need) : victimsOf need l = [] := by
  induction l generalizing need with
  | nil => rfl
  | cons e r ih =>
    rw [amountSum_cons] at hshort
    rw [victimsOf, if_neg (by omega), ih (by omega)]

theorem victimsOf_of_reached {need : Nat} {l : List ClaimEntry} (hpos : 0 < need) (hreach : need ≤ amountSum l) :
    victimsOf need l <+: l ∧ need ≤ amountSum (victimsOf need l) ∧ amountSum (victimsOf need l).dropLast < need := by
  induction l generalizing need with
  | nil => exact absurd hreach (by simp [amountSum, total]; omega)
  | cons e r ih =>
    rw [amountSum_cons] at hreach
    rw [victimsOf]
    split
    · next hone =>
      exact ⟨⟨r, rfl⟩, by rw [amountSum_cons]; omega, hpos⟩
    · next hmore =>
      obtain ⟨hprefix, hsum, hlast⟩ := ih (need := need - e.amount) (by omega) (by omega)
      cases hv : victimsOf (need - e.amount) r with
      | nil =>
        rw [hv] at hsum
        have hzero : amountSum [] = 0 := rfl
        omega
      | cons v vs =>
        rw [hv] at hprefix hsum hlast
        refine ⟨List.cons_prefix_cons.mpr ⟨rfl, hprefix⟩, by rw [amountSum_cons]; omega, ?_⟩
        rw [List.dropLast_cons_of_ne_nil (List.cons_ne_nil v vs), amountSum_cons]
        omega

theorem victims_of_waiter {cfg : Settings} {l : List ClaimEntry} {r : Resource} {w : ClaimEntry}
    (hw : shedWaiter l r = some w) : victims cfg l r =
      if heldSum l r + aheadSum l w + w.amount ≤ allowance cfg r then []
      else victimsOf (heldSum l r + aheadSum l w + w.amount - allowance cfg r) (candidates l w) := by
  simp only [victims, hw]

/-- The victims of a shed waiter by the need and what the candidates hold. -/
theorem victims_spec {cfg : Settings} {l : List ClaimEntry} {r : Resource} {w : ClaimEntry}
    (hw : shedWaiter l r = some w) :
    let need := heldSum l r + aheadSum l w + w.amount - allowance cfg r
    (need = 0 ∨ amountSum (candidates l w) < need → victims cfg l r = [])
      ∧ (0 < need → need ≤ amountSum (candidates l w) → victims cfg l r <+: candidates l w
        ∧ need ≤ amountSum (victims cfg l r) ∧ amountSum (victims cfg l r).dropLast < need) := by
  dsimp only
  rw [victims_of_waiter hw]
  refine ⟨fun hnone => ?_, fun hpos hreach => ?_⟩
  · split
    · rfl
    · exact victimsOf_of_short (hnone.resolve_left (by omega))
  · rw [if_neg (by omega)]
    exact victimsOf_of_reached hpos hreach

/-! ### The posted flags of a table that carries them -/

/-- The marks of a table do not enter the evaluation of its victims. -/
theorem victims_map {f : ClaimEntry → ClaimEntry} (hf : ∀ e, ∃ b, f e = { e with posted := b }) (cfg : Settings)
    (l : List ClaimEntry) (r : Resource) : victims cfg (l.map f) r = (victims cfg l r).map f := by
  have hahead (a b : ClaimEntry) : (f a).ahead (f b) = a.ahead b := by
    obtain ⟨x, hx⟩ := hf a
    obtain ⟨y, hy⟩ := hf b
    rw [hx, hy]
    rfl
  have hfirst (a b : ClaimEntry) : (f a).shedFirst (f b) = a.shedFirst b := by
    obtain ⟨x, hx⟩ := hf a
    obtain ⟨y, hy⟩ := hf b
    rw [hx, hy]
    rfl
  have hamount (e : ClaimEntry) : (f e).amount = e.amount := by
    obtain ⟨x, hx⟩ := hf e
    rw [hx]
  have hfilter (p : ClaimEntry → Bool) (hp : ∀ e b, p { e with posted := b } = p e) (t : List ClaimEntry) :
      (t.map f).filter p = (t.filter p).map f := by
    rw [List.filter_map]
    refine congrArg (List.map f) (List.filter_congr fun e _ => ?_)
    obtain ⟨x, hx⟩ := hf e
    rw [Function.comp_apply, hx, hp]
  have hsum (p : ClaimEntry → Bool) (hp : ∀ e b, p { e with posted := b } = p e) (t : List ClaimEntry) :
      total (((t.map f).filter p).map (·.amount)) = total ((t.filter p).map (·.amount)) := by
    rw [hfilter p hp, List.map_map]
    exact congrArg total (List.map_congr_left fun e _ => hamount e)
  have hwaiter : shedWaiter (l.map f) r = (shedWaiter l r).map f := by
    rw [shedWaiter, hfilter _ fun e b => by rfl, sortBy_map hahead, List.head?_map]
    rfl
  have hvictims (need : Nat) (t : List ClaimEntry) : victimsOf need (t.map f) = (victimsOf need t).map f := by
    induction t generalizing need with
    | nil => rfl
    | cons e t ih =>
      rw [List.map_cons, victimsOf, victimsOf, hamount, ih]
      split
      · rfl
      · cases victimsOf (need - e.amount) t with
        | nil => rfl
        | cons v vs => rfl
  cases hw : shedWaiter l r with
  | none =>
    rw [hw] at hwaiter
    simp only [victims, hwaiter, hw]
    rfl
  | some w =>
    rw [hw] at hwaiter
    obtain ⟨x, hx⟩ := hf w
    have hheld : heldSum (l.map f) r = heldSum l r := hsum _ (fun e b => rfl) l
    have hwaits : aheadSum (l.map f) (f w) = aheadSum l w := by
      rw [hx]
      exact hsum (fun e => e.waits w.resource && e.key != w.key && e.ahead w) (fun e b => rfl) l
    have hcandidates : candidates (l.map f) (f w) = (candidates l w).map f := by
      rw [candidates, candidates, ← sortBy_map hfirst, ← hfilter _ fun e b => by rfl, hx]
    rw [victims_of_waiter hw, victims_of_waiter hwaiter, hheld, hwaits, hamount, hcandidates, hvictims]
    split
    · rfl
    · rfl

/-- The posted flags of a table after their evaluation, in terms of its own victims (R47). -/
theorem posted_mem (cfg : Settings) (l : List ClaimEntry) (e : ClaimEntry) (he : e ∈ posted cfg l) :
    e.posted = true ↔ e.station = cfg.address ∧ e.state = .holding
      ∧ ((∃ v ∈ victims cfg (posted cfg l) .water, v.key = e.key)
        ∨ ∃ v ∈ victims cfg (posted cfg l) .power, v.key = e.key) := by
  have hkeys (r : Resource) (k : Nat) :
      (∃ v ∈ victims cfg (posted cfg l) r, v.key = k) ↔ ∃ v ∈ victims cfg l r, v.key = k := by
    rw [posted, victims_map fun e => ⟨_, rfl⟩]
    simp only [List.mem_map, exists_exists_and_eq_and]
    rfl
  rw [hkeys, hkeys]
  obtain ⟨x, _, rfl⟩ := List.mem_map.mp he
  show (x.station == cfg.address && x.state == .holding && _) = true ↔ x.station = cfg.address ∧ x.state = .holding ∧
    ((∃ v ∈ victims cfg l .water, v.key = x.key) ∨ ∃ v ∈ victims cfg l .power, v.key = x.key)
  simp [and_assoc]

end Sys2Proof.Machine

/-! ## Proofs: the shed point of a channel (R48, R81, R83) -/

namespace Sys2Proof.Machine

/-- A shed claim as it is asked again in its slot (R48). -/
def shedAgain (c : Fin 6) (o : OwnClaim) : OwnClaim :=
  askedClaim c o.slot ⟨o.resource, o.amount, o.priority, o.sheddable, o.detail, o.base⟩

/-- In list order a claim put over one of its own identity takes its place and leaves every other. -/
theorem insertOwn_same {o : OwnClaim} {l : List OwnClaim} (hordered : l.Pairwise fun a b => a.key < b.key)
    (hslot : ∀ x ∈ l, x.slot < 3) (hself : o.slot < 3) (hin : ∃ x ∈ l, x.key = o.key) :
    insertOwn o l = l.map fun x => if x.key = o.key then o else x := by
  induction l with
  | nil =>
    obtain ⟨x, hx, _⟩ := hin
    cases hx
  | cons a r ih =>
    obtain ⟨hfirst, hrest⟩ := List.pairwise_cons.mp hordered
    obtain ⟨x, hx, hkey⟩ := hin
    have hleast : a.key ≤ o.key := by
      rcases List.mem_cons.mp hx with rfl | hx
      · omega
      · have hlt := hfirst x hx
        omega
    have hsame : (o.channel = a.channel ∧ o.slot = a.slot) ↔ a.key = o.key := by
      have ha := hslot a List.mem_cons_self
      rw [Fin.ext_iff]
      simp only [OwnClaim.key]
      omega
    rw [insertOwn, if_neg (by omega), List.map_cons]
    split
    · next hid =>
      have hk := hsame.mp hid
      have hafter : (r.map fun x => if x.key = o.key then o else x) = r := by
        refine (List.map_congr_left fun y hy => ?_).trans (List.map_id r)
        have hlt := hfirst y hy
        exact if_neg (by omega)
      rw [if_pos hk, hafter]
    · next hid =>
      have hk : a.key ≠ o.key := fun hk => hid (hsame.mpr hk)
      have hin : ∃ x ∈ r, x.key = o.key := by
        rcases List.mem_cons.mp hx with rfl | hx
        · exact absurd hkey hk
        · exact ⟨x, hx, hkey⟩
      rw [if_neg hk, ih hrest (fun y hy => hslot y (List.mem_cons_of_mem a hy)) hin]

/-! ### One shed -/

theorem State.shedOne_own (s : State) (c : Fin 6) (o : OwnClaim) :
    (s.shedOne c o).own = insertOwn (shedAgain c o) s.own := by
  unfold State.shedOne
  simp [State.askAt, State.countShed, shedAgain]

theorem State.countShed_ch_self (s : State) (c : Fin 6) : (s.countShed c).ch c =
    if (s.ch c).state = .running then { s.ch c with stats := { (s.ch c).stats with sheds := raise 255 (s.ch c).stats.sheds } }
    else { s.ch c with shedsAside := raise 255 (s.ch c).shedsAside } := by
  rw [State.countShed, State.ch_modCh_self]

/-- What a shed leaves of its channel, but for the waits: one shed more is counted. -/
theorem State.shedOne_counted (s : State) (c : Fin 6) (o : OwnClaim) :
    ((s.shedOne c o).ch c).state = (s.ch c).state ∧ ((s.shedOne c o).ch c).piece = (s.ch c).piece
      ∧ ((s.ch c).state = .running → ((s.shedOne c o).ch c).stats =
        { (s.ch c).stats with sheds := raise 255 (s.ch c).stats.sheds })
      ∧ ((s.ch c).state ≠ .running → ((s.shedOne c o).ch c).shedsAside = raise 255 (s.ch c).shedsAside
        ∧ ((s.shedOne c o).ch c).stats = (s.ch c).stats)
      ∧ ((s.shedOne c o).ch c).setpoint = (s.ch c).setpoint ∧ ((s.shedOne c o).ch c).started = (s.ch c).started := by
  have hkept (t : State) : (t.ch c).RunKept ((t.follow c).ch c) := t.follow_runKept c c
  unfold State.shedOne
  dsimp only
  simp only [hkept, State.chEvent_ch, State.countShed_ch_self]
  have hch : (s.askAt c o.slot ⟨o.resource, o.amount, o.priority, o.sheddable, o.detail, o.base⟩).ch c = s.ch c := rfl
  rw [hch]
  split
  · next hruns => exact ⟨rfl, rfl, fun _ => rfl, fun hnot => absurd hruns hnot, rfl, rfl⟩
  · next hnot => exact ⟨rfl, rfl, fun hruns => absurd hruns hnot, fun _ => ⟨rfl, rfl⟩, rfl, rfl⟩

/-- The SHED event of a claim (R48). -/
def State.shedEvent (s : State) (c : Fin 6) (o : OwnClaim) : Event :=
  ⟨.shed, some c, (s.ch c).piece.map (·.id), s.line.round, [0, 0, 0, o.amount]⟩

theorem State.shedOne_panel (s : State) (c : Fin 6) (o : OwnClaim) :
    (s.shedOne c o).panel = s.panel.queue s.line.round (s.shedEvent c o) := by
  have hpanel (t : State) : (((t.countShed c).chEvent c .shed [0, 0, 0, o.amount]).follow c).panel =
      t.panel.queue t.line.round ⟨.shed, some c, ((t.countShed c).ch c).piece.map (·.id), t.line.round, [0, 0, 0, o.amount]⟩ := by
    have hfollow (u : State) : (u.follow c).panel = u.panel := by simp
    rw [hfollow]
    rfl
  unfold State.shedOne
  dsimp only
  rw [hpanel]
  have hpiece (a : Ask) : (((s.askAt c o.slot a).countShed c).ch c).piece = (s.ch c).piece := by
    rw [State.countShed_ch_self]
    split
    · rfl
    · rfl
  rw [hpiece]
  rfl

/-! ### The shed point -/

/-- The claims of a list shed one after the other. -/
def State.shedList (s : State) (c : Fin 6) (l : List OwnClaim) : State := l.foldl (fun t o => t.shedOne c o) s

theorem State.shedPoint_eq (s : State) (c : Fin 6) (rs : List Resource) :
    s.shedPoint c rs = s.shedList c (s.postedOf c rs) := rfl

/-- Of the claims shed each stands asked again in its slot, and every other as it was. -/
theorem State.shedList_own {c : Fin 6} {l : List OwnClaim} (hl : l.Pairwise fun a b => a.key < b.key) {s : State}
    (hbounded : OwnBounded s.own) (hin : ∀ o ∈ l, o ∈ s.own ∧ o.channel = c) :
    (s.shedList c l).own = s.own.map fun x => if x ∈ l then shedAgain c x else x := by
  induction l generalizing s with
  | nil =>
    show s.own = _
    simp
  | cons o r ih =>
    obtain ⟨hfirst, hrest⟩ := List.pairwise_cons.mp hl
    obtain ⟨hmem, hc⟩ := hin o List.mem_cons_self
    obtain ⟨_, hordered, hslot⟩ := id hbounded
    have hkey : (shedAgain c o).key = o.key := by
      show c.val * 3 + o.slot = o.channel.val * 3 + o.slot
      rw [hc]
    have hself (x : OwnClaim) (hx : x ∈ s.own) : x.key = o.key ↔ x = o := by
      have hkeys : (s.own.map OwnClaim.key).Nodup :=
        List.pairwise_map.mpr (hordered.imp fun hab => Nat.ne_of_lt hab)
      exact ⟨List.inj_on_of_nodup_map hkeys hx hmem, fun h => by rw [h]⟩
    have hown : (s.shedOne c o).own = s.own.map fun x => if x = o then shedAgain c x else x := by
      rw [State.shedOne_own, insertOwn_same (o := shedAgain c o) hordered hslot (hslot o hmem) ⟨o, hmem, hkey.symm⟩]
      refine List.map_congr_left fun x hx => ?_
      rw [hkey]
      by_cases hxo : x = o
      · rw [if_pos (by rw [hxo]), if_pos hxo, hxo]
      · rw [if_neg fun hk => hxo ((hself x hx).mp hk), if_neg hxo]
    have hnext : OwnBounded (s.shedOne c o).own := by
      rw [State.shedOne_own]
      exact hbounded.insert (hslot o hmem)
    have hstill (x : OwnClaim) (hx : x ∈ r) : x ∈ (s.shedOne c o).own ∧ x.channel = c := by
      obtain ⟨hxs, hxc⟩ := hin x (List.mem_cons_of_mem o hx)
      have hne : x ≠ o := fun h => absurd (hfirst x hx) (by rw [h]; exact Nat.lt_irrefl _)
      rw [hown]
      exact ⟨List.mem_map.mpr ⟨x, hxs, if_neg hne⟩, hxc⟩
    show ((s.shedOne c o).shedList c r).own = _
    rw [ih hrest hnext hstill, hown, List.map_map]
    refine List.map_congr_left fun x hx => ?_
    rw [Function.comp_apply]
    by_cases hxo : x = o
    · subst hxo
      have hnot : shedAgain c x ∉ r := fun hr => absurd (hfirst _ hr) (by rw [hkey]; exact Nat.lt_irrefl _)
      rw [if_pos rfl, if_neg hnot, if_pos List.mem_cons_self]
    · rw [if_neg hxo]
      simp only [List.mem_cons, hxo, false_or]

theorem raise_add {n k : Nat} (hn : n ≤ 255) : min 255 (raise 255 n + k) = min 255 (n + (k + 1)) := by
  unfold raise
  split
  · omega
  · omega

theorem raise_le {top n : Nat} (hn : n ≤ top) : raise top n ≤ top := by
  unfold raise
  split
  · omega
  · exact hn

/-- The sheds of a list are counted, in the phase in progress while RUNNING, else aside (R48, R71). -/
theorem State.shedList_counted (c : Fin 6) (l : List OwnClaim) (s : State) :
    ((s.shedList c l).ch c).state = (s.ch c).state
      ∧ ((s.ch c).state = .running → (s.ch c).stats.sheds ≤ 255 → ((s.shedList c l).ch c).stats =
        { (s.ch c).stats with sheds := min 255 ((s.ch c).stats.sheds + l.length) })
      ∧ ((s.ch c).state ≠ .running → (s.ch c).shedsAside ≤ 255 →
        ((s.shedList c l).ch c).shedsAside = min 255 ((s.ch c).shedsAside + l.length)) := by
  induction l generalizing s with
  | nil =>
    refine ⟨rfl, fun _ hle => ?_, fun _ hle => ?_⟩
    · show (s.ch c).stats = { (s.ch c).stats with sheds := min 255 ((s.ch c).stats.sheds + 0) }
      rw [Nat.add_zero, Nat.min_eq_right hle]
    · show (s.ch c).shedsAside = min 255 ((s.ch c).shedsAside + 0)
      rw [Nat.add_zero, Nat.min_eq_right hle]
  | cons o r ih =>
    obtain ⟨hstate, _, hstats, haside, _, _⟩ := s.shedOne_counted c o
    obtain ⟨hfold, hruns, hother⟩ := ih (s.shedOne c o)
    refine ⟨hfold.trans hstate, fun hrun hle => ?_, fun hnot hle => ?_⟩
    · have hone := hstats hrun
      have hrest := hruns (hstate.trans hrun) (by rw [hone]; exact raise_le hle)
      rw [hone] at hrest
      show ((((s.shedOne c o).shedList c r).ch c).stats) = _
      rw [hrest]
      simp only [raise_add hle, List.length_cons]
    · obtain ⟨hone, _⟩ := haside hnot
      have hrest := hother (fun hrun => hnot (hstate.symm.trans hrun)) (by rw [hone]; exact raise_le hle)
      rw [hone, raise_add hle] at hrest
      exact hrest

theorem State.shedList_panel (c : Fin 6) (l : List OwnClaim) (s : State) :
    (s.shedList c l).panel = l.foldl (fun p o => p.queue s.line.round (s.shedEvent c o)) s.panel := by
  induction l generalizing s with
  | nil => rfl
  | cons o r ih =>
    obtain ⟨_, hpiece, _⟩ := s.shedOne_counted c o
    have hline : (s.shedOne c o).line = s.line := by simp
    have hevent (x : OwnClaim) : (s.shedOne c o).shedEvent c x = s.shedEvent c x := by
      rw [State.shedEvent, hpiece, hline, ← State.shedEvent]
    show ((s.shedOne c o).shedList c r).panel = _
    rw [ih, List.foldl_cons, ← State.shedOne_panel, hline]
    simp only [hevent]

/-- The shed point of a channel for its POWER. -/
theorem State.shedPoint_spec {s : State} {c : Fin 6} (hbounded : OwnBounded s.own) :
    (s.shedPoint c [.power]).own = s.own.map (fun o =>
        if o.channel = c ∧ o.resource = .power ∧ s.postedMark o = true then
          askedClaim c o.slot ⟨.power, o.amount, o.priority, o.sheddable, o.detail, o.base⟩
        else o) := by
  obtain ⟨_, hordered, _⟩ := id hbounded
  have hposted (o : OwnClaim) : o ∈ s.postedOf c [.power] ↔
      o ∈ s.own ∧ o.channel = c ∧ o.resource = .power ∧ s.postedMark o = true := by
    rw [State.postedOf, State.claimsOf, List.mem_filter, List.mem_filter]
    simp only [beq_iff_eq, Bool.and_eq_true, List.contains_iff_mem, List.mem_singleton]
    tauto
  have hsorted : (s.postedOf c [.power]).Pairwise fun a b => a.key < b.key := (hordered.filter _).filter _
  rw [State.shedPoint_eq, State.shedList_own hsorted hbounded fun o ho =>
    ⟨((hposted o).mp ho).1, ((hposted o).mp ho).2.1⟩]
  refine List.map_congr_left fun o ho => ?_
  by_cases hshed : o.channel = c ∧ o.resource = .power ∧ s.postedMark o = true
  · obtain ⟨_, hpower, _⟩ := id hshed
    rw [if_pos ((hposted o).mpr ⟨ho, hshed⟩), if_pos hshed, shedAgain, hpower]
  · rw [if_neg fun h => hshed ((hposted o).mp h).2, if_neg hshed]

end Sys2Proof.Machine

/-! ## Proofs: sheds and statistics (R47, R48, R71, R81, R83) -/

namespace Sys2Proof.Machine

/-! ### What leaves the statistics of an arrival

After its statistics an arrival changes a channel's by the sheds it counts alone, a completion aside. -/

/-- The statistics go on as they stand, sheds of the phase in progress aside; the setpoint stands. -/
def Channel.StatsKept (h k : Channel) : Prop :=
  (h.state ≠ .running → k.state ≠ .running ∧ k.stats = h.stats) ∧ (∃ n, k.stats = { h.stats with sheds := n })
    ∧ k.setpoint = h.setpoint

theorem Channel.StatsKept.refl (h : Channel) : h.StatsKept h := ⟨fun hnot => ⟨hnot, rfl⟩, ⟨h.stats.sheds, rfl⟩, rfl⟩

theorem Channel.StatsKept.trans {h k j : Channel} (hk : h.StatsKept k) (hj : k.StatsKept j) : h.StatsKept j := by
  obtain ⟨hstill, ⟨n, hn⟩, hset⟩ := hk
  obtain ⟨hstill', ⟨m, hm⟩, hset'⟩ := hj
  refine ⟨fun hnot => ?_, ⟨m, by rw [hm, hn]⟩, hset'.trans hset⟩
  obtain ⟨hstate, hstats⟩ := hstill hnot
  obtain ⟨hstate', hstats'⟩ := hstill' hstate
  exact ⟨hstate', hstats'.trans hstats⟩

theorem Channel.StatsKept.of_same {h k : Channel} (hstate : k.state = h.state) (hstats : k.stats = h.stats)
    (hset : k.setpoint = h.setpoint) : h.StatsKept k :=
  ⟨fun hnot => ⟨hstate.trans_ne hnot, hstats⟩, ⟨h.stats.sheds, hstats⟩, hset⟩

theorem Channel.RunKept.statsKept {h k : Channel} (hkept : h.RunKept k) : h.StatsKept k :=
  .of_same (by simp only [hkept]) (by simp only [hkept]) (by simp only [hkept])

theorem Channel.HaltedFrom.statsKept {h k : Channel} {r : HaltReason} (hhalted : h.HaltedFrom k r) : h.StatsKept k := by
  have hstate : k.state = .halted := by simp only [hhalted]
  have hstats : k.stats = h.stats := by simp only [hhalted]
  exact ⟨fun _ => ⟨by simp [hstate], hstats⟩, ⟨h.stats.sheds, hstats⟩, by simp only [hhalted]⟩

theorem State.modCh_statsKept {s : State} {c d : Fin 6} {f : Channel → Channel} (hf : (s.ch d).StatsKept (f (s.ch d))) :
    (s.ch d).StatsKept ((s.modCh c f).ch d) := by
  rw [State.ch_modCh]
  split
  · next hd => subst hd; exact hf
  · exact .refl _

theorem State.halt_statsKept (s : State) (c : Fin 6) (r : HaltReason) : (s.ch c).StatsKept ((s.halt c r).ch c) := by
  by_cases hstate : (s.ch c).state.haltable = true
  · exact (State.halt_haltedFrom hstate r).statsKept
  · rw [State.halt, if_neg hstate]
    exact .refl _

theorem State.shedOne_statsKept (s : State) (c : Fin 6) (o : OwnClaim) :
    (s.ch c).StatsKept ((s.shedOne c o).ch c) := by
  obtain ⟨hstate, _, hruns, hother, hset, _⟩ := s.shedOne_counted c o
  refine ⟨fun hnot => ⟨hstate.trans_ne hnot, (hother hnot).2⟩, ?_, hset⟩
  by_cases hrun : (s.ch c).state = .running
  · exact ⟨_, hruns hrun⟩
  · exact ⟨_, (hother hrun).2⟩

theorem State.shedPoint_statsKept (s : State) (c : Fin 6) (rs : List Resource) :
    (s.ch c).StatsKept ((s.shedPoint c rs).ch c) := by
  have hfold (l : List OwnClaim) (t : State) : (t.ch c).StatsKept ((t.shedList c l).ch c) := by
    induction l generalizing t with
    | nil => exact .refl _
    | cons o r ih => exact (t.shedOne_statsKept c o).trans (ih _)
  exact hfold _ s

theorem State.offerCaptures_statsKept (s : State) (c : Fin 6) (items : List EntryItem) :
    (s.ch c).StatsKept ((s.offerCaptures c items).ch c) := by
  by_cases htaken : s.book.waiting = [] ∧ s.canTake items.length = true
  · obtain ⟨hempty, htake⟩ := htaken
    rw [State.offerCaptures_taken hempty htake]
    exact .refl _
  · rw [State.offerCaptures_held htaken, State.ch_modCh_self]
    exact .of_same rfl rfl rfl

theorem State.judgeLevel_statsKept (s : State) (c : Fin 6) (level : Option Int) :
    (s.ch c).StatsKept ((s.judgeLevel c level).ch c) := by
  unfold State.judgeLevel State.captureLevel
  dsimp only
  split
  · exact (State.modCh_statsKept (.of_same rfl rfl rfl)).trans (State.offerCaptures_statsKept _ c _)
  · exact State.modCh_statsKept (.of_same rfl rfl rfl)

theorem State.fillEnd_statsKept (s : State) (c : Fin 6) (r : PhaseRecord) :
    (s.ch c).StatsKept ((s.fillEnd c r).ch c) := by
  have hstopped : (s.ch c).StatsKept ((s.fillStopped c).ch c) :=
    Channel.StatsKept.trans (.of_same rfl rfl rfl) (s.fillStopped_runKept c).statsKept
  rw [State.fillEnd_eq]
  split
  · exact (hstopped.trans (State.modCh_statsKept (.of_same rfl rfl rfl))).trans (State.ask_runKept _ c _ c).statsKept
  · exact hstopped

theorem State.fillShed_statsKept (s : State) (c : Fin 6) : (s.ch c).StatsKept ((s.fillShed c).ch c) := by
  unfold State.fillShed
  split
  · exact .refl _
  · exact (s.shedPoint_statsKept c _).trans (State.modCh_statsKept (.of_same rfl rfl rfl))

theorem State.castEnd_statsKept (s : State) (c : Fin 6) : (s.ch c).StatsKept ((s.castEnd c).ch c) := by
  have hdropped := (State.dropAll_runKept (s.modCh c castStopped) c c).statsKept
  rw [State.ch_modCh_self] at hdropped
  rw [State.castEnd_eq]
  refine (Channel.StatsKept.trans (.of_same rfl rfl rfl) hdropped).trans ?_
  exact .of_same (by simp) (by simp) (by simp)

theorem State.steepArrival_statsKept (s : State) (c : Fin 6) : (s.ch c).StatsKept ((s.steepArrival c).ch c) := by
  unfold State.steepArrival
  dsimp only
  split
  · split
    · unfold State.steepRunning
      dsimp only
      split
      · split
        · exact s.fillEnd_statsKept c _
        · exact s.fillShed_statsKept c
      · split
        · exact State.modCh_statsKept (.of_same rfl rfl rfl)
        · exact .refl _
      · exact s.judgeLevel_statsKept c _
      · split
        · exact s.castEnd_statsKept c
        · exact .refl _
      · exact .refl _
    · split
      · exact s.fillShed_statsKept c
      · exact .refl _
  · exact .refl _

theorem State.boxArrival_statsKept (s : State) (c : Fin 6) : (s.ch c).StatsKept ((s.boxArrival c).ch c) := by
  have hlimited (t : State) : (t.ch c).StatsKept ((t.judgeLimited c).ch c) := by
    obtain ⟨n, hn⟩ := t.judgeLimited_ch_self c
    rw [hn]
    exact .of_same rfl rfl rfl
  unfold State.boxArrival
  dsimp only
  split
  · exact .refl _
  · split
    · exact ((s.shedPoint_statsKept c _).trans (State.modCh_statsKept (.of_same rfl rfl rfl))).trans (hlimited _)
    · split
      · split
        · exact s.judgeLevel_statsKept c _
        · split
          · exact s.castEnd_statsKept c
          · exact .refl _
        · exact .refl _
      · exact .refl _

/-- The burner law keeps the statistics, and the breakthrough count of a DRY. -/
theorem State.burnerArrival_statsKept (s : State) (c : Fin 6) : (s.ch c).StatsKept ((s.burnerArrival c).ch c)
    ∧ (((s.ch c).inPhase .dry = true → (s.ch c).breakCount < 9) → ((s.burnerArrival c).ch c).state = .running →
      ((s.burnerArrival c).ch c).inPhase .dry = true → ((s.burnerArrival c).ch c).breakCount < 9) := by
  unfold State.burnerArrival
  split
  · next r hburns =>
    unfold State.burnerLaw
    dsimp only
    split
    · have hhalted := State.flamed_halt (burnsBy_haltable hburns) (flameNext (s.ch c))
      exact ⟨hhalted.statsKept, fun _ hruns => by simp only [hhalted, reduceCtorEq] at hruns⟩
    · unfold State.fire
      simp only [State.ch_modCh_self]
      exact ⟨.of_same rfl rfl rfl, fun hfew _ => hfew⟩
  · rw [State.ch_modCh_self]
    exact ⟨.of_same rfl rfl rfl, fun hfew _ => hfew⟩

theorem State.kilnArrival_statsKept {s : State} {c : Fin 6} (hfew : (s.ch c).inPhase .dry = true → (s.ch c).breakCount < 9) :
    (s.ch c).StatsKept ((s.kilnArrival c).ch c) := by
  obtain ⟨hburner, hcount⟩ := s.burnerArrival_statsKept c
  obtain ⟨n, st, cs, w, rs, hch⟩ := State.kilnArrival_ch_self (s := s) (c := c) (hcount hfew)
  rw [hch]
  exact hburner.trans (.of_same rfl rfl rfl)

theorem State.judgeOverload_statsKept (s : State) (c : Fin 6) (active : Bool) :
    (s.ch c).StatsKept ((s.judgeOverload active).ch c) := by
  have hfaults (t : State) : (t.ch c).StatsKept ((t.turnerFaults).ch c) := by
    have hdrop : (t.ch c).StatsKept ((t.dropTurner).ch c) := by
      unfold State.dropTurner
      split
      · next d _ => exact (t.dropAll_runKept d c).statsKept
      · exact .refl _
    have hch : t.turnerFaults.ch c = t.dropTurner.ch c ∨ t.turnerFaults = t := by
      unfold State.turnerFaults
      split
      · exact .inl (by simp)
      · exact .inr rfl
    rcases hch with hch | hsame
    · rw [hch]
      exact hdrop
    · rw [hsame]
      exact .refl _
  unfold State.judgeOverload
  split
  · split
    · split
      · exact hfaults (s.modTurner fun t => { t with overload := 3 })
      · exact .refl _
    · exact .refl _
  · exact .refl _

/-- What follows the statistics of an arrival leaves them, sheds aside, where no breakthrough ends a DRY. -/
theorem State.arrival_statsKept {s : State} {c : Fin 6} (hfew : (s.ch c).inPhase .dry = true → (s.ch c).breakCount < 9)
    (raw : RawArrival) : ((s.ready c raw).ch c).StatsKept ((s.arrival c raw).ch c) := by
  have hrun := s.ready_sameRun c raw
  have hcount : ((s.ready c raw).ch c).inPhase .dry = true → ((s.ready c raw).ch c).breakCount < 9 := by
    simpa only [Channel.inPhase, Channel.phase, hrun] using hfew
  have hjudged (t : State) : (t.ch c).StatsKept ((t.judgeInputs c).ch c) := by
    rcases t.judgeInputs_cases c with ⟨heq, _⟩ | ⟨i, _, heq⟩
    · rw [heq]
      exact .refl _
    · rw [heq]
      exact t.halt_statsKept c _
  have hrules : ((s.ready c raw).ch c).StatsKept (((s.ready c raw).kindArrival c raw).ch c) := by
    unfold State.kindArrival
    split
    · exact State.steepArrival_statsKept _ c
    · exact State.boxArrival_statsKept _ c
    · exact State.kilnArrival_statsKept hcount
    · exact State.judgeOverload_statsKept _ c _
    · exact .refl _
  exact hrules.trans (hjudged _)

/-! ### The statistics of an arrival (R71) -/

theorem setpointAtArrival_stats (h : Channel) : (setpointAtArrival h).stats = h.stats := by
  have hramp : (takeRampStart h).stats = h.stats := by
    unfold takeRampStart
    split <;> rfl
  unfold setpointAtArrival
  split
  · dsimp only
    split
    · exact hramp
    · exact hramp
  · rfl

theorem arrivedChannel_stats (cal : ChannelCal) (raw : RawArrival) (h : Channel) :
    (arrivedChannel cal raw h).stats = h.stats := setpointAtArrival_stats _

theorem State.arrived_own (s : State) (c : Fin 6) (raw : RawArrival) : (s.arrived c raw).own = s.own := by
  simp [State.arrived]

/-- The statistics at the rules of the kind: this arrival is in them where the phase in progress is RUNNING. -/
theorem State.ready_stats (s : State) (c : Fin 6) (raw : RawArrival) : ((s.ready c raw).ch c).stats =
    if (s.ch c).state = .running ∧ (s.ch c).started = true then
      statsAtArrival (arrivedChannel (s.cfg.cal.get c) raw (s.ch c)) (s.heldAmount c .water) (s.heldAmount c .power)
    else (s.ch c).stats := by
  have hrun := arrivedChannel_sameRun (s.cfg.cal.get c) raw (s.ch c)
  have hheld (r : Resource) : (s.arrived c raw).heldAmount c r = s.heldAmount c r :=
    State.heldAmount_of_heldOn (State.heldOn_of_own (s.arrived_own c raw) c r)
  have hasks := State.repeatAsks_runKept ((s.arrived c raw).accumulate c) c c
  rw [State.ready]
  simp only [hasks]
  unfold State.accumulate
  rw [State.arrived_ch_self]
  simp only [hrun, hheld, Bool.and_eq_true, decide_eq_true_eq]
  by_cases hruns : (s.ch c).state = .running ∧ (s.ch c).started = true
  · rw [if_pos hruns, if_pos hruns, State.ch_modCh_self, State.arrived_ch_self]
  · rw [if_neg hruns, if_neg hruns, State.arrived_ch_self, arrivedChannel_stats]

theorem State.ready_setpoint (s : State) (c : Fin 6) (raw : RawArrival) :
    ((s.ready c raw).ch c).setpoint = (arrivedChannel (s.cfg.cal.get c) raw (s.ch c)).setpoint
      ∧ ((s.ready c raw).ch c).ma = (arrivedChannel (s.cfg.cal.get c) raw (s.ch c)).ma := by
  obtain ⟨x, due, hch⟩ := s.ready_ch_self c raw
  rw [hch]
  exact ⟨rfl, rfl⟩

/-- MA's part of the statistics (R71, R169). -/
theorem maStats_of_value {h : Channel} {m : Int} (hvalue : h.ma.value = some m) (x : Stats) : maStats h x = { x with
    minMA := some (optMin x.minMA m), maxMA := some (optMax x.maxMA m), sumMA := x.sumMA + m, count := x.count + 1
    outside := if outsideBand h m then raise minuteTop x.outside else x.outside } := by
  simp only [maStats, hvalue]

theorem maStats_of_none {h : Channel} (hnone : h.ma.value = none) (x : Stats) : maStats h x = x := by
  simp only [maStats, hnone]

theorem raise_minuteTop {b : Bool} {n : Nat} : (if b then raise minuteTop n else n) =
    if b = true ∧ n < 3932100 then n + 1 else n := by
  have htop : minuteTop = 3932100 := rfl
  cases b
  · simp
  · simp [raise, htop]

/-- A reading outside the alarm band of the setpoint (R71). -/
theorem outsideBand_of_setpoint {h : Channel} {r : PhaseRecord} {sp : Int} (hcurrent : h.current = some r)
    (hset : h.setpoint = some sp) (m : Int) :
    outsideBand h m = true ↔ usesTarget r.kind = true ∧ r.band < (m - sp).natAbs := by
  simp only [outsideBand, hcurrent, hset, Bool.and_eq_true, decide_eq_true_eq]
  exact and_congr_right fun _ => Int.ofNat_lt

theorem outsideBand_of_none {h : Channel} (hnone : h.setpoint = none) (m : Int) : outsideBand h m = false := by
  unfold outsideBand
  cases h.current <;> simp only [hnone]

theorem maStats_held (h : Channel) (x : Stats) : (maStats h x).waterHeld = x.waterHeld
    ∧ (maStats h x).powerHeld = x.powerHeld ∧ (maStats h x).waiting = x.waiting := by
  unfold maStats
  split
  · exact ⟨rfl, rfl, rfl⟩
  · exact ⟨rfl, rfl, rfl⟩

/-- The statistics of an arrival in their fields, sheds aside (R71). -/
theorem statsAtArrival_spec {h : Channel} {r : PhaseRecord} (hcurrent : h.current = some r) (water power n : Nat) :
    let x := h.stats
    let y := { statsAtArrival h water power with sheds := n }
    (h.ma.value = none → y.count = x.count ∧ y.sumMA = x.sumMA ∧ y.minMA = x.minMA ∧ y.maxMA = x.maxMA
        ∧ y.outside = x.outside)
      ∧ (∀ m, h.ma.value = some m → y.count = x.count + 1 ∧ y.sumMA = x.sumMA + m
        ∧ y.minMA = some (match x.minMA with
            | some a => min a m
            | none => m)
        ∧ y.maxMA = some (match x.maxMA with
            | some a => max a m
            | none => m)
        ∧ y.outside = (match h.setpoint with
            | some sp =>
              if usesTarget r.kind = true ∧ r.band < (m - sp).natAbs ∧ x.outside < 3932100 then x.outside + 1
              else x.outside
            | none => x.outside))
      ∧ y.waterHeld = min 1006632900 (x.waterHeld + water) ∧ y.powerHeld = min 1006632900 (x.powerHeld + power)
      ∧ y.waiting = (if (h.wait.claim = true ∨ h.wait.line = true) ∧ x.waiting < 3932100 then x.waiting + 1
          else x.waiting) := by
  dsimp only
  obtain ⟨hwater, hpower, hwaiting⟩ := maStats_held h h.stats
  refine ⟨fun hnone => ?_, fun m hvalue => ?_, ?_, ?_, ?_⟩
  · simp only [statsAtArrival, maStats_of_none hnone, and_self]
  · simp only [statsAtArrival, maStats_of_value hvalue]
    refine ⟨trivial, trivial, rfl, rfl, ?_⟩
    rw [raise_minuteTop]
    cases hset : h.setpoint with
    | none => rw [outsideBand_of_none hset, if_neg (by simp)]
    | some sp => simp only [outsideBand_of_setpoint hcurrent hset, and_assoc]
  · simp only [statsAtArrival, hwater]
    rfl
  · simp only [statsAtArrival, hpower]
    rfl
  · simp only [statsAtArrival, hwaiting]
    rw [raise_minuteTop]
    simp only [Bool.or_eq_true]

/-- The statistics that an arrival in the phase in progress leaves, but for its sheds. -/
theorem State.arrival_stats {s : State} {c : Fin 6} (hstate : (s.ch c).state = .running)
    (hstarted : (s.ch c).started = true) (hfew : (s.ch c).inPhase .dry = true → (s.ch c).breakCount < 9)
    (raw : RawArrival) : ∃ n, ((s.arrival c raw).ch c).stats = { statsAtArrival
      (arrivedChannel (s.cfg.cal.get c) raw (s.ch c)) (s.heldAmount c .water) (s.heldAmount c .power) with sheds := n } := by
  obtain ⟨_, ⟨n, hn⟩, _⟩ := State.arrival_statsKept hfew raw
  rw [State.ready_stats, if_pos ⟨hstate, hstarted⟩] at hn
  exact ⟨n, hn⟩

/-! ### The edges at which a channel sheds (R81, R83) -/

theorem State.restShed_of_posted {s : State} {c : Fin 6} (hsome : s.postedOf c [.power] ≠ []) :
    s.restShed c = (s.shedPoint c [.power]).modCh c fun h =>
      { h with wait := { h.wait with claim := h.wait.claim || h.started } } := by
  rw [State.restShed, if_neg (by simpa using hsome)]

/-- What an edge at which the channel sheds its POWER leaves, `u` the state with the edge's clock. -/
def State.ShedsFrom (s t : State) (c : Fin 6) : Prop :=
  t.own = s.own.map (fun o =>
      if o.channel = c ∧ o.resource = .power ∧ s.postedMark o = true then
        askedClaim c o.slot ⟨.power, o.amount, o.priority, o.sheddable, o.detail, o.base⟩
      else o)
    ∧ t.panel = (s.postedOf c [.power]).foldl (fun p o => p.queue s.line.round
        ⟨.shed, some c, (s.ch c).piece.map (·.id), s.line.round, [0, 0, 0, o.amount]⟩) s.panel
    ∧ ((s.ch c).state = .running → (s.ch c).stats.sheds ≤ 255 → (t.ch c).stats =
        { (s.ch c).stats with sheds := min 255 ((s.ch c).stats.sheds + (s.postedOf c [.power]).length) })
    ∧ ((s.ch c).state ≠ .running → (s.ch c).shedsAside ≤ 255 →
        (t.ch c).shedsAside = min 255 ((s.ch c).shedsAside + (s.postedOf c [.power]).length))

theorem State.shedPoint_shedsFrom {s : State} {c : Fin 6} (hbounded : OwnBounded s.own) :
    s.ShedsFrom (s.shedPoint c [.power]) c := by
  obtain ⟨_, hruns, hother⟩ := State.shedList_counted c (s.postedOf c [.power]) s
  exact ⟨State.shedPoint_spec hbounded, State.shedList_panel c _ s, hruns, hother⟩

theorem State.restShed_shedsFrom {s : State} {c : Fin 6} (hbounded : OwnBounded s.own) :
    s.ShedsFrom (s.restShed c) c := by
  obtain ⟨hown, hpanel, hruns, hother⟩ := State.shedPoint_shedsFrom (c := c) hbounded
  by_cases hnone : s.postedOf c [.power] = []
  · rw [State.shedPoint_of_none hnone] at hown hpanel hruns hother
    rw [State.restShed_of_none hnone]
    exact ⟨hown, hpanel, hruns, hother⟩
  · rw [State.restShed_of_posted hnone]
    refine ⟨hown, hpanel, fun hrun hle => ?_, fun hnot hle => ?_⟩
    · rw [State.ch_modCh_self]
      exact hruns hrun hle
    · rw [State.ch_modCh_self]
      exact hother hnot hle

theorem State.restShed_wait {s : State} {c : Fin 6} (hsome : s.postedOf c [.power] ≠ [])
    (hstarted : (s.ch c).started = true) : ((s.restShed c).ch c).wait.claim = true := by
  have hlaw := s.shedPoint_sameLaw c [.power] c
  rw [State.restShed_of_posted hsome, State.ch_modCh_self]
  simp only [hlaw, hstarted, Bool.or_true]

/-- An edge's clock is no part of what a shed goes by. -/
theorem State.ShedsFrom.of_clock {s t : State} {c : Fin 6} {f : Channel → Channel}
    (hf : (f (s.ch c)).state = (s.ch c).state ∧ (f (s.ch c)).stats = (s.ch c).stats
      ∧ (f (s.ch c)).shedsAside = (s.ch c).shedsAside ∧ (f (s.ch c)).piece = (s.ch c).piece)
    (hsheds : (s.modCh c f).ShedsFrom t c) : s.ShedsFrom t c := by
  obtain ⟨hstate, hstats, haside, hpiece⟩ := hf
  obtain ⟨hown, hpanel, hruns, hother⟩ := hsheds
  simp only [State.ch_modCh_self, hstate, hstats, haside, hpiece] at hpanel hruns hother
  exact ⟨hown, hpanel, hruns, hother⟩

theorem exec_shedEdge {s : State} {c : Fin 6} {i : Instr} {n : Nat} (hbounded : OwnBounded s.own)
    (hvessel : s.vessel c = true) (hclock : (s.ch c).blower = some n)
    (hedge : i = .blowerOffEdge c ∧ (s.ch c).blowerOn = true ∧ (blowerCycle (s.ch c)).isSome = true
      ∨ i = .airRestEdge c ∧ (s.ch c).resting = true) :
    ∃ t, exec i s = .next t ∧ s.ShedsFrom t c
      ∧ (i = .airRestEdge c → s.postedOf c [.power] ≠ [] → (s.ch c).started = true → (t.ch c).wait.claim = true) := by
  rcases hedge with ⟨rfl, hon, hcycle⟩ | ⟨rfl, hresting⟩
  · obtain ⟨⟨on, cycle⟩, hcycle⟩ := Option.isSome_iff_exists.mp hcycle
    refine ⟨_, exec_blowerOffEdge hvessel hon hcycle hclock, ?_, fun h => by cases h⟩
    exact .of_clock ⟨rfl, rfl, rfl, rfl⟩ (State.shedPoint_shedsFrom hbounded)
  · refine ⟨_, exec_airRestEdge hvessel hresting hclock, .of_clock ⟨rfl, rfl, rfl, rfl⟩ (State.restShed_shedsFrom hbounded),
      fun _ hsome hstarted => State.restShed_wait ?_ ?_⟩
    · rw [State.postedOf_modCh]
      exact hsome
    · rw [State.ch_modCh_self]
      exact hstarted

/-- Settles O37, by the shed point, the evaluation of the postings, and what follows the statistics of an arrival. -/
theorem shedsAndStatistics : Obligations.ShedsAndStatistics := by
  refine ⟨fun s c i n hbounded hvessel hclock hedge => ?sheds, fun s bytes f hhearing hdecode hother => ?flags,
    fun cfg l r => ⟨fun hnone => ?novictims, fun w hw => ?victims⟩, fun s c raw hlive hkind hfew => ?arrival⟩
  case sheds =>
    obtain ⟨t, hexec, ⟨hown, hpanel, hruns, haside⟩, hwait⟩ := exec_shedEdge hbounded hvessel hclock hedge
    exact ⟨t, hexec, hown, hpanel, hruns, haside, hwait⟩
  case flags =>
    refine ⟨_, exec_validTurnFrameHeard hhearing hdecode, ?_⟩
    rw [State.hearTurn_of_other hother]
    obtain ⟨l, hl⟩ : ∃ l, (((s.frameEnd.restartCold.hearRound f s.line.overridden).hearContent f).takeSender
        (some f.sender)).claims = posted s.cfg l := by
      simp [State.hearContent, State.applyClaims, State.setClaims]
    rw [hl]
    exact posted_mem s.cfg l
  case novictims => simp only [victims, hnone]
  case victims =>
    obtain ⟨hin, hwaits, hshed⟩ := shedWaiter_mem hw
    obtain ⟨hnone, hsome⟩ := victims_spec (cfg := cfg) hw
    exact ⟨hin, hwaits, hshed, mem_candidates l w, candidates_pairwise l w, hnone, hsome⟩
  case arrival =>
    obtain ⟨hstill, _, hset⟩ := State.arrival_statsKept hfew raw
    obtain ⟨hsetpoint, hma⟩ := s.ready_setpoint c raw
    obtain ⟨hmaKept, _⟩ := s.arrival_ready_inputs c raw
    have hrun := s.ready_sameRun c raw
    have harrived := arrivedChannel_sameRun (s.cfg.cal.get c) raw (s.ch c)
    refine ⟨_, exec_measurementArrival hlive hkind raw, fun hnot => ?_, fun r hstate hstarted hcurrent => ?_⟩
    · rw [(hstill (by simpa only [hrun] using hnot)).2, State.ready_stats, if_neg fun h => hnot h.1]
    · obtain ⟨n, hn⟩ := State.arrival_stats hstate hstarted hfew raw
      rw [hn, hmaKept, hma, hset, hsetpoint]
      have hrecord : (arrivedChannel (s.cfg.cal.get c) raw (s.ch c)).current = some r := by simp only [harrived, hcurrent]
      have hstats : (arrivedChannel (s.cfg.cal.get c) raw (s.ch c)).stats = (s.ch c).stats := arrivedChannel_stats _ raw _
      have hwait : (arrivedChannel (s.cfg.cal.get c) raw (s.ch c)).wait = (s.ch c).wait := by simp only [harrived]
      rw [← hstats, ← hwait]
      exact statsAtArrival_spec hrecord _ _ n

end Sys2Proof.Machine

/-! ## Proofs: the restart decision of a channel (R193, R194) -/

namespace Sys2Proof.Machine

/-! ### A claim asked in a slot -/

/-- A claim put in the list is the one found at its identity, whatever stood there. -/
theorem insertOwn_find_self (o : OwnClaim) (l : List OwnClaim) :
    (insertOwn o l).find? (fun x => x.channel == o.channel && x.slot == o.slot) = some o := by
  induction l with
  | nil => simp [insertOwn]
  | cons a r ih =>
    unfold insertOwn
    split
    · simp
    · split
      · simp
      · next hother =>
        have hnot : (a.channel == o.channel && a.slot == o.slot) = false := by
          rw [Bool.eq_false_iff]
          intro hsame
          rw [Bool.and_eq_true, beq_iff_eq, beq_iff_eq] at hsame
          exact hother ⟨hsame.1.symm, hsame.2.symm⟩
        rw [List.find?_cons, hnot]
        exact ih

/-- A claim put in the list leaves what is found at every other identity. -/
theorem insertOwn_find_other {o : OwnClaim} {d : Fin 6} {n : Nat} (hother : ¬ (o.channel = d ∧ o.slot = n))
    (l : List OwnClaim) : (insertOwn o l).find? (fun x => x.channel == d && x.slot == n)
      = l.find? fun x => x.channel == d && x.slot == n := by
  have hnot : (o.channel == d && o.slot == n) = false := by
    rw [Bool.eq_false_iff]
    simpa using hother
  induction l with
  | nil => simp [insertOwn, hnot]
  | cons a r ih =>
    unfold insertOwn
    split
    · rw [List.find?_cons, hnot]
    · split
      · next hsame =>
        obtain ⟨hc, hs⟩ := hsame
        rw [List.find?_cons, List.find?_cons, hnot, ← hc, ← hs, hnot]
      · rw [List.find?_cons, List.find?_cons, ih]

/-- The claim of a restart list as it is asked (R194). -/
def restartClaim (c : Fin 6) (x : Saved) : OwnClaim := { askedClaim c x.slot x.ask with restartAsk := true }

theorem State.askSaved_ownAt (s : State) (c : Fin 6) (x : Saved) :
    (s.askSaved c x).ownAt c x.slot = some (restartClaim c x)
      ∧ ∀ d n, ¬ (c = d ∧ x.slot = n) → (s.askSaved c x).ownAt d n = s.ownAt d n := by
  have hfind (d : Fin 6) (n : Nat) : (s.askSaved c x).ownAt d n =
      ((insertOwn (askedClaim c x.slot x.ask) s.own).find? fun o => o.channel == d && o.slot == n).map fun o =>
        if o.channel == c && o.slot == x.slot then { o with restartAsk := true } else o := by
    show (((insertOwn (askedClaim c x.slot x.ask) s.own).map _).find? _) = _
    rw [List.find?_map]
    refine congrArg _ (congrArg (fun q => List.find? q _) (funext fun o => ?_))
    rw [Function.comp_apply]
    split
    · rfl
    · rfl
  refine ⟨?_, fun d n hother => ?_⟩
  · have hself : (insertOwn (askedClaim c x.slot x.ask) s.own).find? (fun o => o.channel == c && o.slot == x.slot)
        = some (askedClaim c x.slot x.ask) := insertOwn_find_self (askedClaim c x.slot x.ask) s.own
    rw [hfind, hself]
    simp [askedClaim, restartClaim]
  · rw [hfind, insertOwn_find_other hother]
    cases ho : s.own.find? fun o => o.channel == d && o.slot == n with
    | none => exact ho.symm
    | some o =>
      have hid := List.find?_some ho
      rw [Bool.and_eq_true, beq_iff_eq, beq_iff_eq] at hid
      have hnot : (o.channel == c && o.slot == x.slot) = false := by
        rw [Bool.eq_false_iff]
        intro hsame
        rw [Bool.and_eq_true, beq_iff_eq, beq_iff_eq] at hsame
        exact hother ⟨hsame.1.symm.trans hid.1, hsame.2.symm.trans hid.2⟩
      rw [Option.map_some, hnot]
      exact ho.symm

/-- The saved claims of a list stand asked in their slots. -/
theorem State.foldl_askSaved_ownAt (c : Fin 6) (l : List Saved) (s : State) :
    ((l.map (·.slot)).Nodup → ∀ x ∈ l, (l.foldl (fun t x => t.askSaved c x) s).ownAt c x.slot = some (restartClaim c x))
      ∧ ∀ d n, (c = d → ∀ x ∈ l, x.slot ≠ n) → (l.foldl (fun t x => t.askSaved c x) s).ownAt d n = s.ownAt d n := by
  induction l generalizing s with
  | nil => exact ⟨fun _ _ hx => absurd hx List.not_mem_nil, fun _ _ _ => rfl⟩
  | cons a r ih =>
    obtain ⟨hself, hothers⟩ := s.askSaved_ownAt c a
    obtain ⟨hrest, hkept⟩ := ih (s.askSaved c a)
    refine ⟨fun hnodup x hx => ?_, fun d n hfree => ?_⟩
    · rw [List.map_cons, List.nodup_cons] at hnodup
      obtain ⟨hnot, hnodup⟩ := hnodup
      rcases List.mem_cons.mp hx with rfl | hx
      · exact (hkept c x.slot fun _ y hy hs => hnot (List.mem_map.mpr ⟨y, hy, hs⟩)).trans hself
      · exact hrest hnodup x hx
    · refine (hkept d n fun hc y hy => hfree hc y (List.mem_cons_of_mem a hy)).trans (hothers d n fun hsame => ?_)
      exact hfree hsame.1 a List.mem_cons_self hsame.2

/-- A restart list asked: each saved claim stands in its slot, and the other channels' claims as they did. -/
theorem State.askRestart_ownAt (s : State) (c : Fin 6) :
    (((askedList (s.ch c)).map (·.slot)).Nodup → ∀ x ∈ askedList (s.ch c),
        (s.askRestart c).ownAt c x.slot = some (restartClaim c x))
      ∧ ∀ d, c ≠ d → ∀ n, (s.askRestart c).ownAt d n = s.ownAt d n := by
  obtain ⟨hself, hothers⟩ := State.foldl_askSaved_ownAt c (askedList (s.ch c)) s
  exact ⟨hself, fun d hd n => hothers d n fun hc => absurd hc hd⟩

/-! ### The decision at its channel and at the others -/

theorem State.decide_ownAt_other (s : State) {c d : Fin 6} (hd : c ≠ d) (n : Nat) :
    (s.decide c).ownAt d n = s.ownAt d n := by
  have hasks := (s.askRestart_ownAt c).2 d hd n
  have hkept {t : State} (hown : t.own = s.own) : t.ownAt d n = s.ownAt d n := by rw [State.ownAt, hown, ← State.ownAt]
  unfold State.decide
  dsimp only
  split
  · split
    · exact hkept (by simp)
    · split
      · exact hkept (by simp)
      · exact hasks
  · split
    · exact hkept (by simp)
    · exact hasks
  · split
    · exact hkept (by simp)
    · split
      · rfl
      · exact hasks
  all_goals exact hkept (by simp)

/-- What a restart decision goes by, the channel `h` aside. -/
structure State.RestartsAs (s t : State) (c : Fin 6) (h : Channel) : Prop where
  channel : t.ch c = h
  loader : t.loader = s.loader
  book : t.book = s.book

theorem State.RestartsAs.decide_other {s t : State} {c d : Fin 6} {h : Channel} (hd : d ≠ c) (ht : s.RestartsAs t c h) :
    s.RestartsAs (t.decide d) c h :=
  ⟨(State.decide_others t d c hd.symm).trans ht.channel, by simpa using ht.loader, by simpa using ht.book⟩

/-- The decisions of a load are taken channel by channel: what one gives its channel stands. -/
theorem State.foldl_decide_ch {s : State} {c : Fin 6} {h : Channel} {k : Channel} {Q : State → Prop}
    (hstart : s.RestartsAs s c h) (hat : ∀ t, s.RestartsAs t c h → (t.decide c).ch c = k ∧ Q (t.decide c))
    (hafter : ∀ t d, d ≠ c → Q t → Q (t.decide d)) :
    (channels.foldl (fun t c => t.decide c) s).ch c = k ∧ Q (channels.foldl (fun t c => t.decide c) s) :=
  foldl_channels (f := fun t c => t.decide c) (P := fun t => s.RestartsAs t c h) (Q := fun t => t.ch c = k ∧ Q t)
    (fun _ _ hd ht => ht.decide_other hd) hat
    (fun t d hd ht => ⟨(State.decide_others t d c hd.symm).trans ht.1, hafter t d hd ht.2⟩) hstart

/-! ### The cases of the decision (R193) -/

theorem castAccepted_iff (h : Channel) : h.castAccepted = true ↔
    h.xfer.state = .accepted ∧ (h.inPhase .cast = true ∨ h.inPhase .loadout = true) := by
  simp [Channel.castAccepted]

theorem State.decide_of_cast {s : State} {c : Fin 6} (hcast : (s.ch c).castAccepted = true)
    (hstate : (s.ch c).state = .running ∨ (s.ch c).state = .paused ∧ (s.ch c).pause = some .panel) :
    s.decide c = s.castRestart c := by
  rcases hstate with hruns | ⟨hpaused, hpanel⟩
  · simp only [State.decide, hruns, hcast, if_true]
  · simp only [State.decide, hpaused, hpanel, hcast, Bool.and_true, decide_true, if_true]

theorem State.decide_of_hold {s : State} {c : Fin 6} (hhold : s.loader.hold = true)
    (hstate : (s.ch c).state = .running ∧ (s.ch c).castAccepted = false ∨ (s.ch c).state = .starved) :
    s.decide c = s.pauseRestart c (if (s.ch c).state = .running then .running else .starved) := by
  rcases hstate with ⟨hruns, hcast⟩ | hstarved
  · simp only [State.decide, hruns, hcast, Bool.false_eq_true, if_false, hhold, if_true]
  · simp [State.decide, hstarved, hhold]

theorem State.decide_of_ask {s : State} {c : Fin 6}
    (hstate : s.loader.hold = false ∧ ((s.ch c).state = .running ∧ (s.ch c).castAccepted = false ∨ (s.ch c).state = .starved)
      ∨ (s.ch c).state = .paused ∧ (s.ch c).pause ≠ some .restart
        ∧ ¬ ((s.ch c).pause = some .panel ∧ (s.ch c).castAccepted = true)) : s.decide c = s.askRestart c := by
  rcases hstate with ⟨hfree, ⟨hruns, hcast⟩ | hstarved⟩ | ⟨hpaused, hnot, hcast⟩
  · simp only [State.decide, hruns, hcast, hfree, Bool.false_eq_true, if_false]
  · simp only [State.decide, hstarved, hfree, Bool.false_eq_true, if_false]
  · have hpanel : ((s.ch c).pause = some .panel && (s.ch c).castAccepted) = false := by
      rw [Bool.eq_false_iff]
      simpa using hcast
    simp only [State.decide, hpaused, hpanel, Bool.false_eq_true, if_false, hnot]

theorem State.decide_of_restart {s : State} {c : Fin 6} (hpaused : (s.ch c).state = .paused)
    (hpause : (s.ch c).pause = some .restart) : s.decide c = s := by
  simp [State.decide, hpaused, hpause]

theorem State.decide_of_idle {s : State} {c : Fin 6}
    (hstate : (s.ch c).state = .idle ∨ (s.ch c).state = .ready ∨ (s.ch c).state = .halted) : s.decide c = s.dropList c := by
  rcases hstate with hstate | hstate | hstate
  all_goals simp only [State.decide, hstate]

/-! ### The load of the same image after a PIN reset (R191) -/

/-- The station whose states are decided: the image is loaded and the restart recorded. -/
def State.keptStation (s : State) (image : List Byte) : State :=
  ((s.loadImage image).mapCh fun c h => keptChannel h ((imageKinds image).get c)).recordRestart

theorem State.keptStation_fields (s : State) (image : List Byte) : (s.keptStation image).book = s.book
    ∧ (s.keptStation image).loader.hold = s.loader.hold := ⟨rfl, rfl⟩

theorem State.keptStation_ch {s : State} {image : List Byte} {c : Fin 6}
    (hvessel : isVessel ((imageKinds image).get c) = true) :
    (s.keptStation image).ch c = { s.ch c with kind := (imageKinds image).get c } := by
  have hkept : (s.keptStation image).ch c = keptChannel (s.ch c) ((imageKinds image).get c) :=
    State.mapCh_ch (s.loadImage image) (fun c h => keptChannel h ((imageKinds image).get c)) c
  rw [hkept, keptChannel, if_pos hvessel]

theorem startClock_of_vessel {h : Channel} (hvessel : isVessel h.kind = true) : startClock h = { h with clock := some 0 } := by
  have hused : h.kind ≠ .unused := fun hkind => by simp [hkind, isVessel] at hvessel
  rw [startClock, if_neg hused]

/-- What the decision at a channel gives it, the load gives it with its arrival clock started. -/
theorem State.goodLoad_decided {s : State} {image : List Byte} {c : Fin 6} (hpin : s.loader.kind = .pin)
    (hsame : s.loader.lastDigest = some (imageDigest image)) {k : Channel} {Q : State → Prop}
    (hvessel : isVessel k.kind = true) (hown : ∀ t u : State, u.own = t.own → Q t → Q u)
    (hat : ∀ t, (s.keptStation image).RestartsAs t c ((s.keptStation image).ch c) → (t.decide c).ch c = k ∧ Q (t.decide c))
    (hafter : ∀ t d, d ≠ c → Q t → Q (t.decide d)) :
    (s.goodLoad image).ch c = { k with clock := some 0 } ∧ Q (s.goodLoad image) := by
  obtain ⟨hch, hQ⟩ := State.foldl_decide_ch (s := s.keptStation image) (c := c) ⟨rfl, rfl, rfl⟩ hat hafter
  have hstation : s.stationOf image = channels.foldl (fun t c => t.decide c) (s.keptStation image) :=
    State.stationOf_kept hpin hsame
  refine ⟨?_, hown _ _ ?_ hQ⟩
  · rw [State.goodLoad_ch, hstation, hch, startClock_of_vessel hvessel]
  · rw [State.goodLoad_eq, hstation]
    simp [State.emptyReply]

end Sys2Proof.Machine

/-! ## Proofs: what a restart gives each vessel (R193, R194) -/

namespace Sys2Proof.Machine

section Restart

variable {s : State} {image : List Byte} {c : Fin 6} (hpin : s.loader.kind = .pin)
  (hsame : s.loader.lastDigest = some (imageDigest image)) (hvessel : isVessel ((imageKinds image).get c) = true)
include hpin hsame hvessel

/-- The channel that the decision gives, the other decisions and the claims aside. -/
theorem State.goodLoad_ch_of {k : Channel} (hkind : k.kind = (imageKinds image).get c)
    (hat : ∀ t : State, t.ch c = { s.ch c with kind := (imageKinds image).get c } → t.loader.hold = s.loader.hold →
      (t.decide c).ch c = k) : (s.goodLoad image).ch c = { k with clock := some 0 } := by
  refine (State.goodLoad_decided (Q := fun _ => True) hpin hsame (by rw [hkind]; exact hvessel) (fun _ _ _ _ => trivial)
    (fun t ht => ⟨hat t ?_ ?_, trivial⟩) fun _ _ _ _ => trivial).1
  · rw [ht.channel, State.keptStation_ch hvessel]
  · rw [ht.loader, (s.keptStation_fields image).2]

/-- An accepted cast comes back PAUSED(RESTART), its piece marked CAST_INTERRUPTED. -/
theorem State.goodLoad_casting (hcast : (s.ch c).castAccepted = true)
    (hstate : (s.ch c).state = .running ∨ (s.ch c).state = .paused ∧ (s.ch c).pause = some .panel) :
    (s.goodLoad image).ch c = { s.ch c with
      kind := (imageKinds image).get c, clock := some 0, state := .paused, pause := some .restart
      resume := some .running, piece := (s.ch c).piece.map fun p => { p with castInterrupted := true } } := by
  refine State.goodLoad_ch_of (k := { s.ch c with
    kind := (imageKinds image).get c, state := .paused, pause := some .restart, resume := some .running
    piece := (s.ch c).piece.map fun p => { p with castInterrupted := true } }) hpin hsame hvessel rfl fun t ht _ => ?_
  rw [State.decide_of_cast (by rw [ht]; exact hcast) (by rw [ht]; exact hstate), State.castRestart_ch_self, ht]

/-- Under the hold flag a channel that ran comes back PAUSED(RESTART). -/
theorem State.goodLoad_held (hhold : s.loader.hold = true)
    (hstate : (s.ch c).state = .running ∧ (s.ch c).castAccepted = false ∨ (s.ch c).state = .starved) :
    (s.goodLoad image).ch c = { s.ch c with
      kind := (imageKinds image).get c, clock := some 0, state := .paused, pause := some .restart
      resume := some (if (s.ch c).state = .running then .running else .starved) } := by
  refine State.goodLoad_ch_of (k := { s.ch c with
    kind := (imageKinds image).get c, state := .paused, pause := some .restart
    resume := some (if (s.ch c).state = .running then .running else .starved) }) hpin hsame hvessel rfl fun t ht hload => ?_
  rw [State.decide_of_hold (hload.trans hhold) (by rw [ht]; exact hstate), State.pauseRestart_ch_self, ht]

/-- In PAUSED(RESTART) a channel waits on as it was. -/
theorem State.goodLoad_waiting (hpaused : (s.ch c).state = .paused) (hpause : (s.ch c).pause = some .restart) :
    (s.goodLoad image).ch c = { s.ch c with kind := (imageKinds image).get c, clock := some 0 } := by
  refine State.goodLoad_ch_of (k := { s.ch c with kind := (imageKinds image).get c }) hpin hsame hvessel rfl
    fun t ht _ => ?_
  rw [State.decide_of_restart (by rw [ht]; exact hpaused) (by rw [ht]; exact hpause), ht]

/-- A channel without a run drops its list. -/
theorem State.goodLoad_idle (hstate : (s.ch c).state = .idle ∨ (s.ch c).state = .ready ∨ (s.ch c).state = .halted) :
    (s.goodLoad image).ch c = { s.ch c with
      kind := (imageKinds image).get c, clock := some 0, restart := none, restartKept := false } := by
  refine State.goodLoad_ch_of (k := { s.ch c with
    kind := (imageKinds image).get c, restart := none, restartKept := false }) hpin hsame hvessel rfl fun t ht _ => ?_
  rw [State.decide_of_idle (by rw [ht]; exact hstate), State.dropList_ch_self, ht]

/-- Any other channel goes on: its list is asked in the saved slots, and its wait set rebuilt. -/
theorem State.goodLoad_asking
    (hstate : s.loader.hold = false ∧ ((s.ch c).state = .running ∧ (s.ch c).castAccepted = false ∨ (s.ch c).state = .starved)
      ∨ (s.ch c).state = .paused ∧ (s.ch c).pause ≠ some .restart
        ∧ ¬ ((s.ch c).pause = some .panel ∧ (s.ch c).castAccepted = true)) :
    (s.goodLoad image).ch c = { s.ch c with
        kind := (imageKinds image).get c, clock := some 0, restart := none, restartKept := false
        wait := {
          claim := (askedList (s.ch c)).any fun x => x.ask.resource != .turner
          gauge := s.book.waiting.contains c
          offer := (s.ch c).xfer.state == .offering
          turn := (s.ch c).inPhase .turn } }
      ∧ (((askedList (s.ch c)).map (·.slot)).Nodup → ∀ x ∈ askedList (s.ch c),
          (s.goodLoad image).ownAt c x.slot = some (restartClaim c x)) := by
  refine State.goodLoad_decided (c := c) (k := { s.ch c with
      kind := (imageKinds image).get c, restart := none, restartKept := false
      wait := {
        claim := (askedList (s.ch c)).any fun x => x.ask.resource != .turner
        gauge := s.book.waiting.contains c
        offer := (s.ch c).xfer.state == .offering
        turn := (s.ch c).inPhase .turn } })
    (Q := fun t => ((askedList (s.ch c)).map (·.slot)).Nodup → ∀ x ∈ askedList (s.ch c),
      t.ownAt c x.slot = some (restartClaim c x)) hpin hsame hvessel (fun t u hown ht hnodup x hx => ?_) (fun t ht => ?_)
    fun t d hd ht hnodup x hx => ?_
  · rw [State.ownAt, hown]
    exact ht hnodup x hx
  · obtain ⟨hbook, hhold⟩ := s.keptStation_fields image
    have hch : t.ch c = { s.ch c with kind := (imageKinds image).get c } := by
      rw [ht.channel, State.keptStation_ch hvessel]
    have hload : t.loader.hold = s.loader.hold := by rw [ht.loader, hhold]
    have hasked : askedList (t.ch c) = askedList (s.ch c) := by rw [hch]; rfl
    obtain ⟨hself, _⟩ := t.askRestart_ownAt c
    rw [hasked] at hself
    rw [State.decide_of_ask (by rw [hch, hload]; exact hstate)]
    refine ⟨?_, hself⟩
    rw [State.askRestart_ch_self, State.rebuiltWait, hasked, ht.book, hbook, hch]
    rfl
  · rw [State.decide_ownAt_other t hd]
    exact ht hnodup x hx

end Restart

end Sys2Proof.Machine

/-! ## Proofs: the claims and the waits of a phase that has just started (R54, R70, R78, R116) -/

namespace Sys2Proof.Machine

/-! ### No claim of a started phase is a restart's (R54, R70) -/

/-- The claims of a channel on a resource are no restart's. -/
def State.FreshOn (s : State) (c : Fin 6) (res : Resource) : Prop :=
  ∀ o ∈ s.own, o.channel = c → o.resource = res → o.restartAsk = false

theorem State.FreshOn.of_own {s t : State} {c : Fin 6} {res : Resource} (h : s.FreshOn c res) (hown : t.own = s.own) :
    t.FreshOn c res := fun o ho => h o (hown ▸ ho)

theorem State.FreshOn.filter {s t : State} {c : Fin 6} {res : Resource} {p : OwnClaim → Bool} (h : s.FreshOn c res)
    (hown : t.own = s.own.filter p) : t.FreshOn c res := by
  intro o ho
  rw [hown] at ho
  exact h o (List.mem_filter.mp ho).1

theorem mem_insertOwn {o x : OwnClaim} {l : List OwnClaim} (hx : x ∈ insertOwn o l) : x = o ∨ x ∈ l := by
  induction l with
  | nil => exact .inl (List.mem_singleton.mp hx)
  | cons a r ih =>
    unfold insertOwn at hx
    split at hx
    · exact List.mem_cons.mp hx
    · split at hx
      · exact (List.mem_cons.mp hx).imp_right (List.mem_cons_of_mem a)
      · rcases List.mem_cons.mp hx with rfl | hx
        · exact .inr List.mem_cons_self
        · exact (ih hx).imp_right (List.mem_cons_of_mem a)

theorem State.FreshOn.ask {s : State} {c : Fin 6} {res : Resource} (h : s.FreshOn c res) (a : Ask) :
    (s.ask c a).FreshOn c res := by
  unfold State.ask
  split
  · intro o ho hc hres
    rcases mem_insertOwn ho with rfl | ho
    · rfl
    · exact h o ho hc hres
  · exact h.of_own rfl

theorem State.FreshOn.lowerBy {s : State} {c : Fin 6} {res : Resource} (h : s.FreshOn c res) (e : Nat)
    (l : List OwnClaim) : (s.lowerBy c e l).FreshOn c res := by
  induction l generalizing s e with
  | nil => exact h
  | cons o r ih =>
    unfold State.lowerBy
    split
    · exact h
    · split
      · unfold State.lowerClaim
        have hlowered : (s.modOwn c o.slot fun x => { x with amount := max 1 (min x.amount (o.amount - e)) }).FreshOn c res := by
          intro x hx
          obtain ⟨y, hy, rfl⟩ := List.mem_map.mp hx
          split
          · exact h y hy
          · exact h y hy
        exact hlowered.of_own (by simp)
      · have hdropped : (s.dropClaim c o.slot).FreshOn c res :=
          h.filter (p := fun x => !(x.channel == c && x.slot == o.slot)) (by simp [State.dropClaim])
        exact ih hdropped _

theorem State.retag_freshOn (s : State) (c : Fin 6) (res : Resource) (r : PhaseRecord) : (s.retag c res r).FreshOn c res := by
  intro o ho hc hres
  obtain ⟨x, _, rfl⟩ := List.mem_map.mp ho
  by_cases htag : (x.channel == c && x.resource == res) = true
  · rw [if_pos htag]
  · rw [if_neg htag] at hc hres
    exact absurd (by simp [hc, hres]) htag

theorem State.FreshOn.retag {s : State} {c : Fin 6} {res : Resource} (h : s.FreshOn c res) (other : Resource)
    (r : PhaseRecord) : (s.retag c other r).FreshOn c res := by
  intro o ho
  obtain ⟨x, hx, rfl⟩ := List.mem_map.mp ho
  split
  · exact fun _ _ => rfl
  · exact h x hx

theorem State.FreshOn.carry {s : State} {c : Fin 6} {res : Resource} (h : s.FreshOn c res) (r : PhaseRecord)
    (other : Resource) : (s.carry c r other).FreshOn c res := by
  unfold State.carry
  split
  · exact h
  · split
    · exact h.ask _
    · dsimp only
      split
      · exact (h.retag other r).lowerBy _ _
      · split
        · exact (h.retag other r).ask _
        · exact h.retag other r

/-- A claim that is carried is no restart's any more. -/
theorem State.carry_freshOn {s : State} {c : Fin 6} {r : PhaseRecord} {res : Resource}
    (hasked : (startAmount r res).isSome = true) : (s.carry c r res).FreshOn c res := by
  obtain ⟨amount, hamount⟩ := Option.isSome_iff_exists.mp hasked
  have htagged := s.retag_freshOn c res r
  unfold State.carry
  rw [hamount]
  dsimp only
  split
  · next hnone =>
    refine State.FreshOn.ask (fun o ho hc hres => ?_) _
    have hmem : o ∈ s.claimsOn c res := List.mem_filter.mpr ⟨ho, by simp [hc, hres]⟩
    have hsplit : o ∈ basesFirst (s.claimsOn c res) := by
      unfold basesFirst
      cases hbase : o.base <;> simp [hmem, hbase]
    rw [hnone] at hsplit
    exact absurd hsplit List.not_mem_nil
  · split
    · exact htagged.lowerBy _ _
    · split
      · exact htagged.ask _
      · exact htagged

theorem State.dropOn_freshOn (s : State) (c : Fin 6) (res : Resource) : (s.dropOn c res).FreshOn c res := by
  intro o ho hc hres
  have hown : (s.dropOn c res).own = s.own.filter fun o => !(o.channel == c && o.resource == res) := by
    simp [State.dropOn]
  rw [hown] at ho
  have hleft := (List.mem_filter.mp ho).2
  simp [hc, hres] at hleft

theorem State.FreshOn.dropOn {s : State} {c : Fin 6} {res : Resource} (h : s.FreshOn c res) (other : Resource) :
    (s.dropOn c other).FreshOn c res :=
  h.filter (p := fun o => !(o.channel == c && o.resource == other)) (by simp [State.dropOn])

/-- After the claims of a start, carried, dropped or asked, none is a restart's. -/
theorem State.carryClaims_freshOn (s : State) (c : Fin 6) (r : PhaseRecord) (res : Resource) :
    (s.carryClaims c r).FreshOn c res := by
  have hdropped (l : List Resource) (t : State) (hin : res ∈ l ∨ t.FreshOn c res) :
      (l.foldl (fun t res => t.dropOn c res) t).FreshOn c res := by
    induction l generalizing t with
    | nil => exact hin.resolve_left List.not_mem_nil
    | cons a l ih =>
      refine ih _ ?_
      rcases hin with hin | hin
      · rcases List.mem_cons.mp hin with rfl | hin
        · exact .inr (t.dropOn_freshOn c res)
        · exact .inl hin
      · exact .inr (hin.dropOn a)
  unfold State.carryClaims
  dsimp only
  cases hasked : (startAmount r res).isSome with
  | false =>
    have hin : res ∈ droppedAtStart r := by
      refine List.mem_filter.mpr ⟨?_, by simpa using hasked⟩
      cases res <;> decide
    exact ((hdropped _ _ (.inl hin)).carry r .power).carry r .water
  | true =>
    cases res with
    | power => exact (State.carry_freshOn hasked).carry r .water
    | water => exact State.carry_freshOn hasked
    | turner => simp [startAmount] at hasked
    | castway => simp [startAmount] at hasked
    | loader => simp [startAmount] at hasked

theorem State.startAsks_freshOn (s : State) (c : Fin 6) (r : PhaseRecord) (res : Resource) :
    (s.startAsks c r).FreshOn c res := by
  have hclaims := s.carryClaims_freshOn c r res
  unfold State.startAsks
  dsimp only
  split
  · exact hclaims.ask _
  · exact hclaims.of_own (by simp)
  · exact hclaims.of_own (by simp)
  · exact hclaims

/-! ### The waits of a start -/

theorem State.startAsks_begunFrom (s : State) (c : Fin 6) (r : PhaseRecord) (orphan : Bool) :
    (s.ch c).BegunFrom (((s.startedAt c r orphan).startAsks c r).ch c) r orphan := by
  obtain ⟨hstart, _⟩ := s.startedAt_begunFrom c r orphan
  obtain ⟨k, hkept, hasks⟩ := (s.startedAt c r orphan).startAsks_ch_self c r
  cases hoffers : offersPiece r.kind
  · rw [hoffers, if_neg Bool.false_ne_true] at hasks
    rw [hasks]
    simp only [Channel.BegunFrom, hkept, hstart, and_self]
  · rw [hoffers, if_pos rfl] at hasks
    rw [hasks]
    simp only [Channel.BegunFrom, offerStarted, hkept, hstart, and_self]

/-- In its first step a phase needs the WATER of a WET, or the POWER of a kiln's fan. -/
theorem State.kindNeeds_of_begun {s : State} {c : Fin 6} {h : Channel} {r : PhaseRecord} {orphan : Bool}
    (hcurrent : h.current = some r) (hbegun : h.BegunFrom (s.ch c) r orphan) : s.kindNeeds c = true ↔
      r.kind = .wet ∧ s.hasHeld c .water = false ∨ kilnFanKind r.kind = true ∧ s.hasHeld c .power = false := by
  have hacting : (s.ch c).actingKind = some r.kind := by
    simp only [Channel.actingKind, Channel.phase, hbegun, hcurrent, if_true, Option.map_some]
  have hstep : (s.ch c).step = firstStep r.kind := by simp only [hbegun]
  unfold State.kindNeeds
  simp only [hacting, hstep]
  cases hkind : r.kind <;> simp [firstStep, kilnFanKind, burns]

/-- The waits with which a phase starts. -/
theorem State.begin_waits {s : State} {c : Fin 6} {r : PhaseRecord} (hcurrent : (s.ch c).current = some r)
    (hcheck : startCheck (s.ch c) r false = none) (orphan : Bool) :
    let t := s.begin c false orphan
    (∀ x ∈ t.claimsOf c, x.restartAsk = false)
      ∧ ((t.ch c).wait.claim = true ↔ r.kind = .wet ∧ t.hasHeld c .water = false
        ∨ kilnFanKind r.kind = true ∧ t.hasHeld c .power = false)
      ∧ ((t.ch c).wait.line = true ↔ ∃ x ∈ t.claimsOf c, x.voided = true) := by
  dsimp only
  have hbegun := s.startAsks_begunFrom c r orphan
  have hfresh := (s.startedAt c r orphan).startAsks_freshOn c r
  rw [State.begin_of_check hcurrent hcheck]
  generalize (s.startedAt c r orphan).startAsks c r = u at hbegun hfresh
  have hown : ((u.startWaits c).follow c).own = u.own := by simp
  have hclaims : ((u.startWaits c).follow c).claimsOf c = u.claimsOf c := by
    rw [State.claimsOf, hown, ← State.claimsOf]
  have hheld (res : Resource) : ((u.startWaits c).follow c).hasHeld c res = u.hasHeld c res := by
    rw [State.hasHeld, hown, ← State.hasHeld]
  have hwait : (((u.startWaits c).follow c).ch c).wait = { (u.ch c).wait with
      claim := u.kindNeeds c && ((u.startWaits c).kindNeeds c || u.restartNeeds c)
      line := u.hasVoided c && u.hasVoided c } := by
    rw [State.follow_wait, State.startWaits, State.ch_modCh_self]
    rfl
  have hneeds : (u.startWaits c).kindNeeds c = u.kindNeeds c := by
    have hch : (u.startWaits c).ch c = { u.ch c with
        wait := { (u.ch c).wait with claim := u.kindNeeds c, line := u.hasVoided c } } := State.ch_modCh_self u c _
    unfold State.kindNeeds
    rw [hch]
    rfl
  rw [hclaims, hheld, hheld, hwait, hneeds]
  refine ⟨fun x hx => ?_, ?_, ?_⟩
  · obtain ⟨hmem, hc⟩ := List.mem_filter.mp hx
    exact hfresh x.resource x hmem (by simpa using hc) rfl
  · rw [← State.kindNeeds_of_begun hcurrent hbegun]
    cases u.kindNeeds c <;> simp
  · simp [State.hasVoided]

end Sys2Proof.Machine

/-! ## Proofs: RELEASE by pause reason (R58, R133, R142, R195) -/

namespace Sys2Proof.Machine

/-! ### What a RELEASE leaves of the other channels' claims -/

theorem State.runAgain_otherClaims (s : State) (c : Fin 6) : s.OtherClaimsKept (s.runAgain c) c :=
  .of_own (s.runAgain_own c) c

theorem State.resumeRunning_otherClaims (s : State) (c : Fin 6) : s.OtherClaimsKept (s.resumeRunning c) c := by
  unfold State.resumeRunning
  split
  · exact (s.runAgain_otherClaims c).trans (State.complete_otherClaims _ c _)
  · exact s.runAgain_otherClaims c

theorem State.resumeStarved_otherClaims (s : State) (c : Fin 6) (orphan : Bool) :
    s.OtherClaimsKept (s.resumeStarved c orphan) c := by
  unfold State.resumeStarved
  split
  · exact s.startPhase_otherClaims c orphan
  · exact .of_own (by simp) c

theorem State.askRestart_otherClaims (s : State) (c : Fin 6) : s.OtherClaimsKept (s.askRestart c) c :=
  State.OtherClaimsKept.foldl (f := fun t x => t.askSaved c x)
    (fun t x => (t.askAt_otherClaims c x.slot x.ask).trans (State.modOwn_otherClaims _ c x.slot fun _ => rfl))
    (askedList (s.ch c)) s

theorem State.askTransfer_otherClaims (s : State) (c : Fin 6) : s.OtherClaimsKept (s.askTransfer c) c := by
  unfold State.askTransfer
  split
  · exact (State.modCh_otherClaims s c _ c).trans (.foldl (fun t a => t.ask_otherClaims c a) _ _)
  · exact .of_own rfl c

theorem State.releaseRestart_otherClaims (s : State) (c : Fin 6) : s.OtherClaimsKept (s.releaseRestart c) c := by
  have hasks := s.askRestart_otherClaims c
  have htransfer : s.OtherClaimsKept
      (if ((s.askRestart c).ch c).xfer.state = .accepted then (s.askRestart c).askTransfer c else s.askRestart c) c := by
    split
    · exact hasks.trans (State.askTransfer_otherClaims _ c)
    · exact hasks
  unfold State.releaseRestart
  dsimp only
  split
  · exact htransfer.trans (State.resumeStarved_otherClaims _ c false)
  · exact htransfer.trans (State.resumeRunning_otherClaims _ c)
  · exact htransfer.trans (State.resumeRunning_otherClaims _ c)

theorem State.offerAgain_own (s : State) (c : Fin 6) : (s.offerAgain c).own = s.own := by
  simp [State.offerAgain]

theorem State.releaseOffer_otherClaims (s : State) (c : Fin 6) : s.OtherClaimsKept (s.releaseOffer c) c := by
  unfold State.releaseOffer
  split
  · exact s.resumeRunning_otherClaims c
  · exact .of_own (s.offerAgain_own c) c

theorem State.releasePaused_otherClaims (s : State) (c : Fin 6) : s.OtherClaimsKept (s.releasePaused c) c := by
  unfold State.releasePaused
  split
  · split
    · exact s.resumeStarved_otherClaims c false
    · exact s.resumeRunning_otherClaims c
  · exact s.resumeStarved_otherClaims c false
  · unfold State.releaseCleared
    split
    · exact s.resumeStarved_otherClaims c false
    · split
      · exact .of_own rfl c
      · exact .of_own rfl c
  · exact s.releaseRestart_otherClaims c
  · exact s.releaseOffer_otherClaims c
  · exact s.releaseOffer_otherClaims c
  · exact s.releaseOffer_otherClaims c
  · exact s.resumeStarved_otherClaims c true
  · exact .of_own rfl c

/-! ### The unit of a channel that no transfer accepts -/

theorem State.follow_xfer {s : State} {c : Fin 6} (hnot : (s.ch c).xfer.state ≠ .accepted) :
    ((s.follow c).ch c).xfer = (s.ch c).xfer := by
  have hwaits : ((s.followWaits c).ch c).xfer = (s.ch c).xfer := by rw [State.followWaits, State.ch_modCh_self]
  have hfan : (((s.followWaits c).followFan c).ch c).xfer = (s.ch c).xfer := by
    unfold State.followFan
    split
    · rw [State.ch_modCh_self]
      exact hwaits
    · exact hwaits
  have hstill : ((((s.followWaits c).followFan c).ch c).xfer.state = .accepted
      && ((s.followWaits c).followFan c).castDriveOn c) = false := by
    rw [hfan]
    simp [hnot]
  rw [State.follow, State.followCast, if_neg (by rw [hstill]; exact Bool.false_ne_true), hfan]

theorem State.dropAll_xfer {s : State} {c : Fin 6} (hnot : (s.ch c).xfer.state ≠ .accepted) :
    ((s.dropAll c).ch c).xfer = (s.ch c).xfer := by
  have hch : ((({ s with own := s.own.filter fun o => o.channel != c } : State).modCh c
      fun h => { h with asksDue := [] }).ch c).xfer = (s.ch c).xfer := by rw [State.ch_modCh_self]; rfl
  unfold State.dropAll
  rw [State.follow_xfer (by rw [hch]; exact hnot), hch]

theorem State.halt_xfer {s : State} {c : Fin 6} (hnone : (s.ch c).xfer.state = .none) (r : HaltReason) :
    ((s.halt c r).ch c).xfer = (s.ch c).xfer := by
  by_cases hstate : (s.ch c).state.haltable = true
  · have hch := State.ch_modCh_self s c fun h => haltedChannel h r
    have hdropped : (((s.modCh c fun h => haltedChannel h r).dropAll c).ch c).xfer = (s.ch c).xfer := by
      rw [State.dropAll_xfer (by rw [hch]; simp [haltedChannel, hnone]), hch]
      rfl
    rw [State.halt_of_haltable hstate, State.dropCaptures_ch_self, State.xferHalted_ch_self, State.chEvent_ch]
    rw [if_neg (by rw [hdropped, hnone]; simp)]
    exact hdropped
  · rw [State.halt, if_neg hstate]

/-- The end of a cast or load-out leaves a unit that is NONE. -/
theorem State.complete_xfer {s : State} {c : Fin 6} {r : PhaseRecord} (hcurrent : (s.ch c).current = some r)
    (hkind : r.kind = .cast ∨ r.kind = .loadout) (hnone : (s.ch c).xfer.state = .none) (reason : EndReason) :
    ((s.complete c reason).ch c).xfer = (s.ch c).xfer := by
  have hmoved : ((s.movedOnAt c r reason).ch c).xfer = (s.ch c).xfer := by
    rw [State.movedOnAt_ch_self]
    rfl
  have hended : (((s.movedOnAt c r reason).endedAt c r.kind).ch c).xfer = (s.ch c).xfer := by
    have hstrip : r.kind ≠ .strip := by rcases hkind with h | h <;> simp [h]
    rw [State.endedAt, if_neg hstrip, State.dropAll_xfer (by rw [hmoved, hnone]; simp), hmoved]
  have hfinal : isFinal r.kind = true := by rcases hkind with h | h <;> simp [h, isFinal]
  rw [State.complete_of_current hcurrent, if_pos hfinal]
  cases hnext : ((s.movedOnAt c r reason).ch c).current with
  | none =>
    rw [State.afterFinal_idle hnext, State.ch_modCh_self]
    exact hended
  | some n => rw [State.afterFinal_halted hnext, State.halt_xfer (by rw [hended, hnone]), hended]

/-! ### From STARVED, and an offer again -/

theorem State.resumeStarved_spec {s : State} {c : Fin 6} (hpaused : (s.ch c).state = .paused) (orphan : Bool) :
    ((s.ch c).current = none → ((s.resumeStarved c orphan).ch c).state = .starved
        ∧ (s.resumeStarved c orphan).own = s.own)
      ∧ ∀ r, (s.ch c).current = some r →
        ((s.resumeStarved c orphan).ch c).StartedBy (startCheck (s.ch c) r false) r := by
  refine ⟨fun hnone => ?_, fun r hcurrent => ?_⟩
  · rw [State.resumeStarved, if_neg (by simp [hnone])]
    exact ⟨by simp, by simp⟩
  · rw [State.resumeStarved, if_pos (by simp [hcurrent])]
    exact State.startPhase_startedBy hcurrent (by simp [hpaused, ChState.haltable]) orphan

theorem State.resumeStarved_of_check {s : State} {c : Fin 6} {r : PhaseRecord} (hcurrent : (s.ch c).current = some r)
    (hcheck : startCheck (s.ch c) r false = none) (hload : r.kind ≠ .load) (orphan : Bool) :
    s.resumeStarved c orphan = s.begin c false orphan := by
  rw [State.resumeStarved, if_pos (by simp [hcurrent]), State.startPhase_of_check hcurrent hcheck hload]

/-- The channel that offers its piece again to the same destination (R133). -/
theorem State.offerAgain_spec (s : State) (c : Fin 6) : ((s.offerAgain c).ch c).state = .running
    ∧ ((s.offerAgain c).ch c).pause = none ∧ ((s.offerAgain c).ch c).step = some .offering
    ∧ ((s.offerAgain c).ch c).wait.offer = true ∧ ((s.offerAgain c).ch c).timer = (s.ch c).timer
    ∧ ((s.offerAgain c).ch c).xfer = { (s.ch c).xfer with state := .offering, count := 0 } := by
  unfold State.offerAgain
  dsimp only
  set u := ((s.modXfer c fun x => { x with state := .offering, count := 0 }).offerWait c true).modCh c
    fun h => { h with step := some .offering } with hu
  have hch : u.ch c = { s.ch c with
      xfer := { (s.ch c).xfer with state := .offering, count := 0 }
      wait := { (s.ch c).wait with offer := true }, step := some .offering } := by
    rw [hu, State.ch_modCh_self, State.offerWait_ch_self, State.modXfer_ch_self]
  obtain ⟨hstate, hpause, _, htimer, _, _, _, _, hstep, hoffer, _⟩ := u.runAgain_ch_self c
  rw [hch] at htimer hstep hoffer
  refine ⟨hstate, hpause, hstep, hoffer, htimer, ?_⟩
  have hrunning : (u.modCh c fun h => { h with state := .running, pause := none, resume := none }).ch c =
      { u.ch c with state := .running, pause := none, resume := none } := State.ch_modCh_self u c _
  rw [State.runAgain, State.follow_xfer (by rw [hrunning, hch]; simp), hrunning, hch]

end Sys2Proof.Machine

/-! ## Proofs: a restart and the RELEASE that ends it (R52, R79, R193 to R195) -/

namespace Sys2Proof.Machine

/-! ### RELEASE from PAUSED(RESTART) (R195) -/

/-- The transfer claims asked leave the run of the channel, but for its step and CLAIM_WAIT. -/
theorem State.askTransfer_ch_self (s : State) (c : Fin 6) : ∃ st w due, (s.askTransfer c).ch c =
    { s.ch c with step := st, wait := w, asksDue := due } := by
  unfold State.askTransfer
  split
  · dsimp only
    obtain ⟨due, hdue⟩ := State.foldl_ask_ch c (transferAsks _ (s.ch c).xfer.loadout _) (s.modCh c fun h =>
      { h with step := some (castStep (s.ch c).xfer.loadout), wait := { h.wait with claim := true } })
    exact ⟨_, _, due, hdue.trans (by rw [State.ch_modCh_self])⟩
  · exact ⟨_, _, _, rfl⟩

/-- The channel as a RELEASE from RESTART resumes it: its run is that of the pause. -/
abbrev Channel.AskedFrom (h k : Channel) : Prop :=
  k.state = h.state ∧ k.resume = h.resume ∧ k.current = h.current ∧ k.next = h.next ∧ k.due = h.due ∧ k.timer = h.timer
    ∧ k.started = h.started ∧ k.xfer = h.xfer ∧ k.restart = none

/-- The claims of a RELEASE from RESTART are asked: the restart list, then those of an accepted transfer. -/
def State.restartAsked (s : State) (c : Fin 6) : State :=
  if (s.ch c).xfer.state = .accepted then (s.askRestart c).askTransfer c else s.askRestart c

theorem State.restartAsked_askedFrom (s : State) (c : Fin 6) : (s.ch c).AskedFrom ((s.restartAsked c).ch c) := by
  have hch := s.askRestart_ch_self c
  unfold State.restartAsked
  split
  · obtain ⟨st, w, due, htransfer⟩ := (s.askRestart c).askTransfer_ch_self c
    rw [htransfer, hch]
    simp [Channel.AskedFrom]
  · rw [hch]
    simp [Channel.AskedFrom]

theorem State.releaseRestart_eq (s : State) (c : Fin 6) : s.releaseRestart c =
    if (s.ch c).resume = some .starved then (s.restartAsked c).resumeStarved c false
    else (s.restartAsked c).resumeRunning c := by
  have hasked := s.restartAsked_askedFrom c
  have hunit : ((s.askRestart c).ch c).xfer.state = (s.ch c).xfer.state := by rw [State.askRestart_ch_self]
  unfold State.releaseRestart
  simp only [hunit]
  rw [← State.restartAsked]
  simp only [hasked]
  cases hresume : (s.ch c).resume with
  | none => rfl
  | some r =>
    cases r with
    | starved => rfl
    | running => rfl

theorem State.releaseRestart_of_running {s : State} {c : Fin 6} (hresume : (s.ch c).resume = some .running) :
    s.releaseRestart c = (s.restartAsked c).resumeRunning c := by
  rw [State.releaseRestart_eq, if_neg (by simp [hresume])]

/-- A run that goes on after a restart: its list is asked in the saved slots. -/
theorem State.releaseRestart_list {s : State} {c : Fin 6} (hnot : (s.ch c).xfer.state ≠ .accepted)
    (hdue : (s.ch c).due = none) (hresume : (s.ch c).resume = some .running) :
    let t := s.releaseRestart c
    (t.ch c).state = .running ∧ (t.ch c).pause = none ∧ (t.ch c).timer = (s.ch c).timer ∧ (t.ch c).restart = none
      ∧ ((((s.ch c).restart.getD []).map (·.slot)).Nodup → ∀ x ∈ (s.ch c).restart.getD [],
        t.ownAt c x.slot = some (restartClaim c x)) := by
  dsimp only
  have hasked := s.restartAsked_askedFrom c
  have hlist : s.restartAsked c = s.askRestart c := by rw [State.restartAsked, if_neg hnot]
  obtain ⟨hstate, hpause, _, htimer, _, _, _, _, _, _, _, hrestart, _⟩ := (s.restartAsked c).runAgain_ch_self c
  obtain ⟨hself, _⟩ := s.askRestart_ownAt c
  have hsaved : askedList (s.ch c) = (s.ch c).restart.getD [] := by rw [askedList, if_neg hnot]
  rw [State.releaseRestart_of_running hresume, State.resumeRunning_of_none (by simp only [hasked, hdue])]
  refine ⟨hstate, hpause, by simp only [htimer, hasked], by simp only [hrestart, hasked], fun hnodup x hx => ?_⟩
  rw [State.ownAt, State.runAgain_own, ← State.ownAt, hlist]
  exact hself (by rw [hsaved]; exact hnodup) x (by rw [hsaved]; exact hx)

/-- A completion due in the pause of a restart completes the phase. -/
theorem State.releaseRestart_due {s : State} {c : Fin 6} {reason : EndReason} {r : PhaseRecord}
    (hdue : (s.ch c).due = some reason) (hcurrent : (s.ch c).current = some r)
    (hresume : (s.ch c).resume = some .running) : ((s.releaseRestart c).ch c).EndedBy r.kind reason
      ∧ ((s.ch c).next = none → ((s.releaseRestart c).ch c).wait.turn = false) := by
  have hasked := s.restartAsked_askedFrom c
  obtain ⟨hstate, _, _, _, hrecord, _, _, hnext, _⟩ := (s.restartAsked c).runAgain_ch_self c
  have hhaltable : (((s.restartAsked c).runAgain c).ch c).state.haltable = true := by rw [hstate]; rfl
  have hrecord : (((s.restartAsked c).runAgain c).ch c).current = some r := by simp only [hrecord, hasked, hcurrent]
  rw [State.releaseRestart_of_running hresume, State.resumeRunning_of_due (reason := reason) (by simp only [hasked, hdue])]
  exact ⟨State.complete_endedBy hrecord hhaltable reason,
    fun hlast => State.complete_last_turnWait hrecord hhaltable (by simp only [hnext, hasked, hlast]) reason⟩

/-! ### An accepted cast goes on (R86, R101, R195) -/

/-- Two claims of a channel that has none in the list stand in it in their order. -/
theorem insertOwn_filter_two {c : Fin 6} {a b : OwnClaim} (ha : a.channel = c) (hb : b.channel = c)
    (hkeys : a.key < b.key) {l : List OwnClaim} (hnone : (l.filter fun o => o.channel == c) = []) :
    ((insertOwn b (insertOwn a l)).filter fun o => o.channel == c) = [a, b] := by
  have hslot : ¬ (b.channel = a.channel ∧ b.slot = a.slot) := by
    rintro ⟨hc, hs⟩
    simp only [OwnClaim.key, hc, hs, Nat.lt_irrefl] at hkeys
  induction l with
  | nil =>
    rw [insertOwn, insertOwn, if_neg (by omega), if_neg hslot, insertOwn]
    simp [ha, hb]
  | cons x r ih =>
    obtain ⟨hx, hr⟩ : (x.channel == c) = false ∧ (r.filter fun o => o.channel == c) = [] := by
      cases hq : x.channel == c
      · exact ⟨rfl, by simpa [hq] using hnone⟩
      · simp [hq] at hnone
    have hother (o : OwnClaim) (ho : o.channel = c) : ¬ (o.channel = x.channel ∧ o.slot = x.slot) := fun h => by
      simp [← h.1, ho] at hx
    by_cases hbefore : a.key < x.key
    · have hrest := insertOwn_filter_self (q := fun o => o.channel == c) (o := b) (l := x :: r) (by simp [hb]) hnone
      rw [insertOwn, if_pos hbefore, insertOwn, if_neg (by omega), if_neg hslot, List.filter_cons, hrest]
      simp [ha]
    · rw [insertOwn, if_neg hbefore, if_neg (hother a ha), insertOwn, if_neg (by omega), if_neg (hother b hb),
        List.filter_cons, hx]
      exact ih hr

theorem State.freeSlot_of_none {s : State} {c : Fin 6} (hnone : s.claimsOf c = []) : s.freeSlot c = some 0 := by
  have hslot : s.slotFree c 0 = true := by
    rw [State.slotFree, Option.isNone_iff_eq_none, State.ownAt, List.find?_eq_none]
    intro o ho hboth
    rw [Bool.and_eq_true] at hboth
    exact List.filter_eq_nil_iff.mp hnone o ho hboth.1
  simp [State.freeSlot, hslot]

/-- Two claims asked one after the other by a channel that has none stand in the lowest slots. -/
theorem State.ask_claimsOf_second {s : State} {c : Fin 6} (hnone : s.claimsOf c = []) (a b : Ask) :
    ((s.ask c a).ask c b).claimsOf c = [askedClaim c 0 a, askedClaim c 1 b] := by
  have hfirst := State.ask_claimsOf_of_none hnone a
  have hfind (n : Nat) : (s.ask c a).ownAt c n = ((s.ask c a).claimsOf c).find? fun o => o.slot == n := by
    rw [State.claimsOf, List.find?_filter, State.ownAt]
    exact congrArg (fun q => List.find? q _) (funext fun o => by rw [Bool.eq_iff_iff]; simp)
  have hfree : (s.ask c a).freeSlot c = some 1 := by
    simp [State.freeSlot, State.slotFree, hfind, hfirst, askedClaim]
  have hown : (s.ask c a).own = insertOwn (askedClaim c 0 a) s.own := by
    rw [State.ask, State.freeSlot_of_none hnone]
    rfl
  rw [State.ask, hfree]
  show (insertOwn (askedClaim c 1 b) (s.ask c a).own).filter (fun o => o.channel == c) = _
  rw [hown]
  exact insertOwn_filter_two (a := askedClaim c 0 a) (b := askedClaim c 1 b) rfl rfl (Nat.lt_succ_self _) hnone

/-- The step and the claims of an accepted cast that a RELEASE resumes. -/
theorem State.askTransfer_spec {s : State} {c : Fin 6} {r : PhaseRecord} {d : Pair} (hcurrent : (s.ch c).current = some r)
    (hpartner : (s.ch c).xfer.partner = some d) (hnone : s.claimsOf c = []) :
    ((s.askTransfer c).ch c).step = some (castStep (s.ch c).xfer.loadout) ∧ ((s.askTransfer c).ch c).wait.claim = true
      ∧ (s.askTransfer c).claimsOf c = [
        askedClaim c 0 ⟨if (s.ch c).xfer.loadout then .loader else .castway, 1, r.priority, false, some (.dest d), none⟩,
        askedClaim c 1 ⟨.power, r.power.getD 0, r.priority, false, none, none⟩] := by
  unfold State.askTransfer
  simp only [hcurrent, hpartner]
  set u := s.modCh c fun h =>
    { h with step := some (castStep (s.ch c).xfer.loadout), wait := { h.wait with claim := true } } with hu
  have hch : u.ch c = { s.ch c with
      step := some (castStep (s.ch c).xfer.loadout), wait := { (s.ch c).wait with claim := true } } :=
    State.ch_modCh_self s c _
  obtain ⟨due, hdue⟩ := State.foldl_ask_ch c (transferAsks r (s.ch c).xfer.loadout d) u
  rw [hdue, hch]
  exact ⟨rfl, rfl, State.ask_claimsOf_second (s := u) hnone _ _⟩

theorem State.hasHeld_of_claimsOf (s : State) (c : Fin 6) (res : Resource) :
    s.hasHeld c res = (s.claimsOf c).any fun o => o.resource == res && o.state == .held := by
  rw [State.hasHeld, State.claimsOf, List.any_filter]
  simp only [Bool.and_assoc]

/-- A cast whose transfer claims are asked, and none HELD yet, needs them. -/
theorem State.kindNeeds_of_cast {s : State} {c : Fin 6} {r : PhaseRecord} (hstarted : (s.ch c).started = true)
    (hcurrent : (s.ch c).current = some r) (hkind : r.kind = .cast ∨ r.kind = .loadout)
    (hstep : (s.ch c).step = some (castStep (Decidable.decide (r.kind = .loadout))))
    (hasked : ∀ o ∈ s.claimsOf c, o.state = .asked) : s.kindNeeds c = true := by
  have hheld (res : Resource) : s.hasHeld c res = false := by
    rw [State.hasHeld_of_claimsOf, List.any_eq_false]
    intro o ho
    simp [hasked o ho]
  have hacting : (s.ch c).actingKind = some r.kind := by
    simp only [Channel.actingKind, Channel.phase, hstarted, hcurrent, if_true, Option.map_some]
  unfold State.kindNeeds
  simp only [hacting, hstep, hheld]
  rcases hkind with h | h <;> simp [h, castStep]

/-- RELEASE resumes an accepted cast: its transfer claims are asked and CLAIM_WAIT stands. -/
theorem State.releaseRestart_cast {s : State} {c : Fin 6} {r : PhaseRecord} {d : Pair}
    (haccepted : (s.ch c).xfer.state = .accepted) (hpartner : (s.ch c).xfer.partner = some d)
    (hstarted : (s.ch c).started = true) (hcurrent : (s.ch c).current = some r)
    (hkind : r.kind = .cast ∨ r.kind = .loadout) (hloadout : (s.ch c).xfer.loadout = Decidable.decide (r.kind = .loadout))
    (hdue : (s.ch c).due = none) (hresume : (s.ch c).resume = some .running) (hnone : s.claimsOf c = []) :
    let t := s.releaseRestart c
    (t.ch c).state = .running ∧ (t.ch c).wait.claim = true
      ∧ (t.ch c).step = some (if r.kind = .loadout then .loading else .casting)
      ∧ t.claimsOf c = [
        askedClaim c 0 ⟨if r.kind = .loadout then .loader else .castway, 1, r.priority, false, some (.dest d), none⟩,
        askedClaim c 1 ⟨.power, r.power.getD 0, r.priority, false, none, none⟩] := by
  dsimp only
  have hasked := s.restartAsked_askedFrom c
  have hlist : s.restartAsked c = (s.askRestart c).askTransfer c := by rw [State.restartAsked, if_pos haccepted]
  have hch := s.askRestart_ch_self c
  have hown : (s.askRestart c).claimsOf c = [] := by
    have hsame : (s.askRestart c).own = s.own := by
      unfold State.askRestart askedList
      rw [if_pos haccepted]
      rfl
    rw [State.claimsOf, hsame]
    exact hnone
  obtain ⟨hstep, hwait, hclaims⟩ := State.askTransfer_spec (s := s.askRestart c) (c := c) (r := r) (d := d)
    (by rw [hch]; exact hcurrent) (by rw [hch]; exact hpartner) hown
  have hload : ((s.askRestart c).ch c).xfer.loadout = Decidable.decide (r.kind = .loadout) := by rw [hch]; exact hloadout
  rw [hload] at hstep hclaims
  rw [← hlist] at hstep hwait hclaims
  rw [State.releaseRestart_of_running hresume, State.resumeRunning_of_none (by simp only [hasked, hdue])]
  obtain ⟨hstate, _, _, _, _, _, _, _, hkeeps, _⟩ := (s.restartAsked c).runAgain_ch_self c
  have hclaimsOf : ((s.restartAsked c).runAgain c).claimsOf c = (s.restartAsked c).claimsOf c := by
    rw [State.claimsOf, State.runAgain_own, ← State.claimsOf]
  refine ⟨hstate, ?_, ?_, ?_⟩
  · rw [State.runAgain, State.follow_wait, State.ch_modCh_self]
    simp only [hwait, Bool.true_and, Bool.or_eq_true]
    refine .inl (State.kindNeeds_of_cast (r := r) ?_ ?_ hkind ?_ ?_)
    · rw [State.ch_modCh_self]
      simp only [hasked, hstarted]
    · rw [State.ch_modCh_self]
      simp only [hasked, hcurrent]
    · rw [State.ch_modCh_self]
      exact hstep
    · show ∀ o ∈ (s.restartAsked c).claimsOf c, o.state = .asked
      rw [hclaims]
      simp [askedClaim]
  · rw [hkeeps, hstep]
    rcases hkind with h | h <;> simp [h, castStep]
  · rw [hclaimsOf, hclaims]
    rcases hkind with h | h <;> simp [h]

end Sys2Proof.Machine

/-! ## Proofs: the piece that a steep creates (R79) -/

namespace Sys2Proof.Machine

/-- The id of the station's piece under a serial (R79). -/
def serialId (address n : Nat) : Word16 := BitVec.ofNat 16 (address * 2048 + n % 2048)

/-- The serials of a short run have different ids. -/
theorem serialId_inj {address n i j : Nat} (hi : i ≤ 12) (hj : j ≤ 12)
    (hid : serialId address (n + i) = serialId address (n + j)) : i = j := by
  have hnat := congrArg BitVec.toNat hid
  rw [serialId, serialId, BitVec.toNat_ofNat, BitVec.toNat_ofNat] at hnat
  generalize address * 2048 = base at hnat
  omega

/-- The ids of the piece a channel holds and of the one it awaits. -/
def Channel.ids (h : Channel) : List Word16 :=
  (h.piece.map (·.id)).toList ++ if h.xfer.state = .awaiting then h.xfer.piece.toList else []

theorem State.pieceIds_eq (s : State) : s.pieceIds = channels.flatMap fun c => (s.ch c).ids := by
  refine congrArg (channels.flatMap ·) (funext fun c => ?_)
  unfold Channel.ids
  cases (s.ch c).piece <;> cases (s.ch c).xfer.piece <;> rfl

theorem Channel.ids_length (h : Channel) : h.ids.length ≤ 2 := by
  have hone {α : Type} (x : Option α) : x.toList.length ≤ 1 := by cases x <;> simp
  have hheld := hone (h.piece.map (·.id))
  have hawaited := hone h.xfer.piece
  unfold Channel.ids
  rw [List.length_append]
  split
  · omega
  · simp only [List.length_nil]
    omega

theorem State.pieceIds_length (s : State) : s.pieceIds.length ≤ 12 := by
  have hsum (l : List (Fin 6)) : (l.flatMap fun c => (s.ch c).ids).length ≤ 2 * l.length := by
    induction l with
    | nil => exact Nat.le_refl _
    | cons c r ih =>
      have hc := (s.ch c).ids_length
      rw [List.flatMap_cons, List.length_append, List.length_cons]
      omega
  rw [State.pieceIds_eq]
  exact hsum channels

/-- Twelve serials passed over are as many as the station has pieces, so that the next one is free. -/
theorem State.freeSerial_free (s : State) (n : Nat) : ∃ k, s.freeSerial 12 n = (n + k) % 2048
    ∧ serialId s.cfg.address (n + k) ∉ s.pieceIds
    ∧ ∀ j, j < k → serialId s.cfg.address (n + j) ∈ s.pieceIds := by
  obtain ⟨k, hk, hserial, hpassed, hfree⟩ := s.freeSerial_spec 12 n
  simp only [List.contains_iff_mem, ← Bool.not_eq_true] at hpassed hfree
  refine ⟨k, hserial, fun htaken => ?_, hpassed⟩
  by_cases hlt : k < 12
  · exact hfree hlt htaken
  · have hall : k = 12 := by omega
    subst hall
    have hnodup : ((List.range 13).map fun j => serialId s.cfg.address (n + j)).Nodup := by
      refine List.Nodup.map_on (fun i hi j hj hid => ?_) List.nodup_range
      rw [List.mem_range] at hi hj
      exact serialId_inj (by omega) (by omega) hid
    have hsub : ((List.range 13).map fun j => serialId s.cfg.address (n + j)) ⊆ s.pieceIds := by
      intro x hx
      obtain ⟨j, hj, rfl⟩ := List.mem_map.mp hx
      rw [List.mem_range] at hj
      by_cases hlast : j = 12
      · rw [hlast]
        exact htaken
      · exact hpassed j (by omega)
    have hlength := (hnodup.subperm hsub).length_le
    have hroom := s.pieceIds_length
    rw [List.length_map, List.length_range] at hlength
    omega

/-! ### The start of a WET (R53, R79) -/

theorem startedChannel_ids (h : Channel) (r : PhaseRecord) (orphan : Bool) : (startedChannel h r orphan).ids = h.ids := by
  have hstarted := startedChannel_startedFrom h r orphan
  have hpiece := (startedChannel_piece h r orphan).1
  simp only [Channel.ids, hstarted, hpiece]

theorem State.freeSerial_of_kept {s t : State} (hids : t.pieceIds = s.pieceIds) (hcfg : t.cfg = s.cfg) (fuel n : Nat) :
    t.freeSerial fuel n = s.freeSerial fuel n := by
  induction fuel generalizing n with
  | zero => rfl
  | succ fuel ih => rw [State.freeSerial, State.freeSerial, hids, hcfg, ih]

theorem State.started_pieceIds (s : State) (c : Fin 6) (r : PhaseRecord) (orphan : Bool) :
    (s.modCh c fun h => startedChannel h r orphan).pieceIds = s.pieceIds := by
  rw [State.pieceIds_eq, State.pieceIds_eq]
  refine congrArg (channels.flatMap ·) (funext fun d => ?_)
  rw [State.ch_modCh]
  split
  · next hd => rw [startedChannel_ids, hd]
  · rfl

/-- A start without a piece creates one under the next free serial. -/
theorem State.startedAt_created {s : State} {c : Fin 6} {r : PhaseRecord} {lot : Nat} (hnone : (s.ch c).piece = none)
    (hlot : r.lot = some lot) (orphan : Bool) :
    (∃ p, ((s.startedAt c r orphan).ch c).piece = some p ∧ p.lot = lot ∧ p.stage = .steep
        ∧ p.id = BitVec.ofNat 16 (s.cfg.address * 2048 + s.freeSerial 12 s.book.serial))
      ∧ (s.startedAt c r orphan).book = { s.book with
        serial := (s.freeSerial 12 s.book.serial + 1) % 2048, created := raise 65535 s.book.created } := by
  set u := s.modCh c fun h => startedChannel h r orphan with hu
  have hch : u.ch c = startedChannel (s.ch c) r orphan := State.ch_modCh_self s c _
  have hpiece : (u.ch c).piece.isNone = true := by rw [hch, (startedChannel_piece (s.ch c) r orphan).1, hnone]; rfl
  have hserial : u.freeSerial 12 u.book.serial = s.freeSerial 12 s.book.serial :=
    State.freeSerial_of_kept (s.started_pieceIds c r orphan) rfl 12 s.book.serial
  have hstart : s.startedAt c r orphan = (u.createPiece c lot).modCh c fun h => kindStart h r := by
    rw [State.startedAt, ← hu, if_pos hpiece, hlot, Option.getD_some]
  rw [hstart, State.ch_modCh_self, State.createPiece_ch_self, hserial]
  refine ⟨⟨⟨BitVec.ofNat 16 (s.cfg.address * 2048 + s.freeSerial 12 s.book.serial), lot, .steep, none, none, none, none,
    none, 0, false, false, false, false, false⟩, ?_, rfl, rfl, rfl⟩, ?_⟩
  · simp only [kindStart_fields]
    rfl
  show (u.createPiece c lot).book = _
  unfold State.createPiece
  dsimp only
  rw [hserial]
  rfl

end Sys2Proof.Machine

/-! ## Proofs: a restart and what RELEASE makes of it (R52, R58, R193 to R195) -/

namespace Sys2Proof.Machine

/-- A load after a PIN reset without a changed image gives each vessel the state it had. -/
theorem State.restart_decided {s : State} {image : List Byte} {c : Fin 6} (hpin : s.loader.kind = .pin)
    (hsame : s.loader.lastDigest = some (imageDigest image)) (hvessel : isVessel ((imageKinds image).get c) = true) :
    let t := s.goodLoad image
    let h := s.ch c
    let kept := { h with kind := (imageKinds image).get c, clock := some 0 }
    let casting := h.xfer.state = .accepted ∧ (h.inPhase .cast = true ∨ h.inPhase .loadout = true)
    let list := if h.xfer.state = .accepted then [] else h.restart.getD []
    (((h.state = .running ∨ h.state = .paused ∧ h.pause = some .panel) ∧ casting →
        t.ch c = { kept with
          state := .paused, pause := some .restart, resume := some .running
          piece := h.piece.map fun p => { p with castInterrupted := true } })
    ∧ (s.loader.hold = true → (h.state = .running ∧ ¬ casting ∨ h.state = .starved) →
        t.ch c = { kept with
          state := .paused, pause := some .restart
          resume := some (if h.state = .running then .running else .starved) })
    ∧ ((s.loader.hold = false ∧ (h.state = .running ∧ ¬ casting ∨ h.state = .starved)
          ∨ h.state = .paused ∧ h.pause ≠ some .restart ∧ ¬ (h.pause = some .panel ∧ casting)) →
        t.ch c = { kept with
          restart := none, restartKept := false
          wait := {
            claim := list.any fun x => x.ask.resource != .turner
            gauge := s.book.waiting.contains c
            offer := h.xfer.state == .offering
            turn := h.inPhase .turn } }
        ∧ ((list.map (·.slot)).Nodup → ∀ x ∈ list,
            t.ownAt c x.slot = some { askedClaim c x.slot x.ask with restartAsk := true }))
    ∧ (h.state = .paused ∧ h.pause = some .restart ∧ ¬ casting → t.ch c = kept)
    ∧ (h.state = .idle ∨ h.state = .ready ∨ h.state = .halted →
        t.ch c = { kept with restart := none, restartKept := false })) := by
  dsimp only
  rw [← castAccepted_iff, Bool.not_eq_true]
  refine ⟨fun ⟨hstate, hcast⟩ => ?_, fun hhold hstate => ?_, fun hstate => ?_, fun ⟨hpaused, hpause, _⟩ => ?_, fun hstate => ?_⟩
  · exact State.goodLoad_casting hpin hsame hvessel hcast hstate
  · exact State.goodLoad_held hpin hsame hvessel hhold hstate
  · exact State.goodLoad_asking hpin hsame hvessel hstate
  · exact State.goodLoad_waiting hpin hsame hvessel hpaused hpause
  · exact State.goodLoad_idle hpin hsame hvessel hstate

theorem State.ok_kept (s : State) (code : Byte) : (s.ok code).own = s.own ∧ (∀ d, (s.ok code).ch d = s.ch d)
    ∧ (∀ c, (s.ok code).claimsOf c = s.claimsOf c) ∧ (∀ c r, (s.ok code).hasHeld c r = s.hasHeld c r)
    ∧ (∀ c n, (s.ok code).ownAt c n = s.ownAt c n) := ⟨rfl, fun _ => rfl, fun _ => rfl, fun _ _ => rfl, fun _ _ => rfl⟩

/-- RELEASE from a pause that goes on from STARVED, by its pause reason. -/
theorem State.releasePaused_starved {s : State} {c : Fin 6} (hpause : (s.ch c).pause = some .step
      ∨ (s.ch c).pause = some .orphan ∨ (s.ch c).pause = some .cleared ∧ (s.ch c).piece.isSome = true
      ∨ (s.ch c).pause = some .panel ∧ (s.ch c).resume = some .starved) :
    s.releasePaused c = s.resumeStarved c ((s.ch c).pause == some .orphan) := by
  rcases hpause with hstep | horphan | ⟨hcleared, hpiece⟩ | ⟨hpanel, hstarved⟩
  · simp only [State.releasePaused, hstep]
    rfl
  · simp only [State.releasePaused, horphan]
    rfl
  · simp only [State.releasePaused, hcleared, State.releaseCleared, hpiece, if_true]
    rfl
  · simp only [State.releasePaused, hpanel, hstarved, if_true]
    rfl

/-- RELEASE of a cleared channel without a piece. -/
theorem State.releasePaused_cleared {s : State} {c : Fin 6} (hcleared : (s.ch c).pause = some .cleared)
    (hnone : (s.ch c).piece = none) :
    ((s.releasePaused c).ch c).state = (if (s.ch c).current.isSome = true then .ready else .idle)
      ∧ ((s.releasePaused c).ch c).current = (s.ch c).current := by
  have hrelease : s.releasePaused c = if (s.ch c).current.isSome then
      s.modCh c fun h => { h with state := .ready, pause := none, resume := none }
      else s.modCh c idleChannel := by
    simp [State.releasePaused, hcleared, State.releaseCleared, hnone]
  rw [hrelease]
  cases hcurrent : (s.ch c).current with
  | some r => simp [hcurrent]
  | none => simp [idleChannel]

/-- RELEASE from the pauses of a transfer is that of an offer. -/
theorem State.releasePaused_offer {s : State} {c : Fin 6} (hpause : (s.ch c).pause = some .offerUnanswered
      ∨ (s.ch c).pause = some .offerDeclined ∨ (s.ch c).pause = some .destLost) :
    s.releasePaused c = s.releaseOffer c := by
  rcases hpause with h | h | h
  all_goals simp only [State.releasePaused, h]

/-- A completion due in the pause of a transfer completes the cast. -/
theorem State.releaseOffer_due {s : State} {c : Fin 6} {reason : EndReason} {r : PhaseRecord}
    (hdue : (s.ch c).due = some reason) (hcurrent : (s.ch c).current = some r)
    (hkind : r.kind = .cast ∨ r.kind = .loadout) :
    ((s.releaseOffer c).ch c).EndedBy r.kind reason ∧ ((s.releaseOffer c).ch c).due = none
      ∧ (s.releaseOffer c).NoClaims c
      ∧ ((s.releaseOffer c).ch c).state = (if (s.ch c).next = none then .idle else .halted)
      ∧ ((s.ch c).xfer.state = .none → ((s.releaseOffer c).ch c).xfer = (s.ch c).xfer) := by
  obtain ⟨hstate, _, _, _, hrecord, _, _, hnext, _⟩ := s.runAgain_ch_self c
  have hhaltable : ((s.runAgain c).ch c).state.haltable = true := by rw [hstate]; rfl
  have hcurrent' := hrecord.trans hcurrent
  have hfinal : isFinal r.kind = true := by rcases hkind with h | h <;> simp [h, isFinal]
  obtain ⟨hclaims, hidle, hhalted, _, hdone⟩ := State.complete_final hcurrent' hhaltable hfinal reason
  rw [hnext] at hidle hhalted
  rw [State.releaseOffer, if_pos (by simp [hdue]), State.resumeRunning_of_due hdue]
  refine ⟨State.complete_endedBy hcurrent' hhaltable reason, hdone, hclaims, ?_, fun hnone => ?_⟩
  · split
    · next hlast => exact hidle hlast
    · next hmore => exact (hhalted hmore).1
  · have hunit : ((s.runAgain c).ch c).xfer = (s.ch c).xfer := by
      have hch : ((s.modCh c fun h => { h with state := .running, pause := none, resume := none }).ch c).xfer
          = (s.ch c).xfer := by rw [State.ch_modCh_self]
      rw [State.runAgain, State.follow_xfer (by rw [hch, hnone]; simp), hch]
    rw [State.complete_xfer hcurrent' hkind (by rw [hunit, hnone]), hunit]

/-- RELEASE of a READY steep starts its WET. -/
theorem exec_release_ready {s : State} {c : Fin 6} (hfree : s.busy = false) (hkind : s.kindOf c = .steep)
    (hdiscard : (s.ch c).discardPending = false) (hready : (s.ch c).state = .ready) :
    exec (.release c.val) s = .next ((s.startPhase c false).ok 3#8) := by
  have hsteep : (s.ch c).kind = .steep := by
    unfold State.kindOf at hkind
    split at hkind
    · cases hkind
    · exact hkind
  rw [exec_release hfree (by rw [hkind]; rfl)]
  simp [State.releaseAt, hdiscard, hready, hsteep]

/-- The start at a RELEASE from STEP: the wait set is that of the new phase and of its carried claims. -/
theorem State.resumeStarved_waits {s : State} {c : Fin 6} {r : PhaseRecord} (hcurrent : (s.ch c).current = some r)
    (hload : r.kind ≠ .load) (hcheck : startCheck (s.ch c) r false = none) (orphan : Bool) :
    let t := s.resumeStarved c orphan
    let k := t.ch c
    (∀ x ∈ t.claimsOf c, x.restartAsk = false)
      ∧ (k.wait.claim = true ↔ r.kind = .wet ∧ t.hasHeld c .water = false
          ∨ kilnFanKind r.kind = true ∧ t.hasHeld c .power = false)
      ∧ (k.wait.line = true ↔ ∃ x ∈ t.claimsOf c, x.voided = true)
      ∧ k.wait.gauge = false ∧ (k.wait.turn = true ↔ r.kind = .turn)
      ∧ (k.wait.offer = true ↔ r.kind = .cast ∨ r.kind = .loadout) ∧ k.flags.orphanStart = orphan := by
  dsimp only
  obtain ⟨hbegun, hoffer⟩ := State.begin_begunFrom hcurrent hcheck orphan
  obtain ⟨hfresh, hclaim, hline⟩ := State.begin_waits hcurrent hcheck orphan
  rw [State.resumeStarved_of_check hcurrent hcheck hload]
  refine ⟨hfresh, hclaim, hline, by simp only [hbegun], ?_, ?_, by simp only [hbegun]⟩
  · simp only [hbegun, beq_iff_eq]
  · rw [hoffer]
    cases r.kind <;> simp [offersPiece]

/-- The WET of a READY steep starts with the piece it creates. -/
theorem State.startPhase_wet {s : State} {c : Fin 6} {r : PhaseRecord} {lot : Nat} (hsteep : (s.ch c).kind = .steep)
    (hnone : (s.ch c).piece = none) (hcurrent : (s.ch c).current = some r) (hwet : r.kind = .wet)
    (hlot : r.lot = some lot) :
    let t := s.startPhase c false
    (t.ch c).JustStarted ∧ (t.ch c).step = some .filling
      ∧ (∃ p, (t.ch c).piece = some p ∧ p.lot = lot ∧ p.stage = .steep
        ∧ p.id = BitVec.ofNat 16 (s.cfg.address * 2048 + s.freeSerial 12 s.book.serial))
      ∧ t.book.created = raise 65535 s.book.created ∧ t.book.serial = (s.freeSerial 12 s.book.serial + 1) % 2048 := by
  dsimp only
  have hcheck : startCheck (s.ch c) r false = none := by
    simp [startCheck, kindFits, hsteep, hnone, hwet, hlot, usesTarget]
  obtain ⟨hbegun, _⟩ := State.begin_begunFrom hcurrent hcheck false
  obtain ⟨⟨p, hp, hplot, hstage, hid⟩, hbook⟩ := State.startedAt_created (r := r) hnone hlot false
  obtain ⟨k, hkept, hasks⟩ := (s.startedAt c r false).beginAsks_ch_self c r
  have hpiece : ((s.begin c false false).ch c).piece = some p := by
    rw [State.begin_of_check hcurrent hcheck]
    change (((s.startedAt c r false).beginAsks c r).ch c).piece = _
    have hoffers : offersPiece r.kind = false := by rw [hwet]; rfl
    rw [hoffers, if_neg Bool.false_ne_true] at hasks
    simp only [hasks, hkept, hp]
  have hserials : (s.begin c false false).book = (s.startedAt c r false).book := by
    rw [State.begin_of_check hcurrent hcheck]
    simp
  rw [State.startPhase_of_check hcurrent hcheck (by simp [hwet]), hserials, hbook]
  refine ⟨?_, ?_, ⟨p, hpiece, hplot, hstage, hid⟩, rfl, rfl⟩
  · simp only [Channel.JustStarted, hbegun, and_self]
  · simp only [hbegun, hwet, firstStep]

/-- Settles O42, by the restart decision and by the reason of the pause that RELEASE ends. -/
theorem restartAndRelease : Obligations.RestartAndRelease := by
  refine ⟨fun image s c hloading hheld hgood hpin hsame hvessel =>
      ⟨_, exec_configLoadGood hloading hheld hgood, State.restart_decided hpin hsame hvessel⟩,
    fun s c hfree hvessel hdiscard hpaused => ?release, fun s c r lot hfree hkind hdiscard hready hnone hcurrent hwet hlot => ?ready⟩
  case release =>
    have hexec : exec (.release c.val) s = .next ((s.releasePaused c).ok 3#8) := by
      rw [exec_release hfree hvessel, State.releaseAt_of_paused hdiscard hpaused]
    obtain ⟨hown, hch, hclaimsOf, hheld, hownAt⟩ := (s.releasePaused c).ok_kept 3#8
    refine ⟨_, hexec, rfl, fun d hd => by simp [hd], (s.releasePaused_otherClaims c).trans (.of_own hown c), ?_⟩
    simp only [hch, hown, hclaimsOf, hheld, hownAt]
    refine ⟨fun hpause => ?_, fun r hstep hcurrent hload hcheck => ?_, fun r horphan hcurrent hload hcheck => ?_,
      State.releasePaused_cleared, fun hpause => ?_, fun hrestart => ?_⟩
    · rw [State.releasePaused_starved hpause]
      exact State.resumeStarved_spec hpaused _
    · rw [State.releasePaused_starved (.inl hstep)]
      obtain ⟨hfresh, hclaim, hline, hgauge, hturn, hoffer, _⟩ := State.resumeStarved_waits hcurrent hload hcheck
        ((s.ch c).pause == some .orphan)
      exact ⟨hfresh, hclaim, hline, hgauge, hturn, hoffer⟩
    · rw [State.releasePaused_starved (.inr (.inl horphan))]
      obtain ⟨_, _, _, _, _, _, hflag⟩ := State.resumeStarved_waits hcurrent hload hcheck ((s.ch c).pause == some .orphan)
      rw [hflag, horphan]
      rfl
    · rw [State.releasePaused_offer hpause]
      refine ⟨fun hdue => ?_, fun reason r hdue hcurrent hkind => State.releaseOffer_due hdue hcurrent hkind⟩
      have hagain : s.releaseOffer c = s.offerAgain c := by rw [State.releaseOffer, if_neg (by simp [hdue])]
      obtain ⟨hstate, hpauseNone, hstep, hoffer, htimer, hunit⟩ := s.offerAgain_spec c
      rw [hagain]
      exact ⟨hstate, hpauseNone, hstep, hoffer, htimer, hunit, s.offerAgain_own c⟩
    · have hrelease : s.releasePaused c = s.releaseRestart c := by simp only [State.releasePaused, hrestart]
      rw [hrelease]
      refine ⟨fun hnot hdue hresume => State.releaseRestart_list hnot hdue hresume,
        fun r d haccepted hpartner hstarted hcurrent hkind hloadout hdue hresume hnone =>
          State.releaseRestart_cast haccepted hpartner hstarted hcurrent hkind hloadout hdue hresume hnone,
        fun reason r hdue hcurrent hresume => State.releaseRestart_due hdue hcurrent hresume, fun hresume hnone => ?_⟩
      have hasked := s.restartAsked_askedFrom c
      rw [State.releaseRestart_eq, if_pos hresume]
      exact ((State.resumeStarved_spec (s := s.restartAsked c) (by simp only [hasked, hpaused]) false).1
        (by simp only [hasked, hnone])).1
  case ready =>
    have hexec := exec_release_ready hfree hkind hdiscard hready
    have hsteep : (s.ch c).kind = .steep := by
      unfold State.kindOf at hkind
      split at hkind
      · cases hkind
      · exact hkind
    obtain ⟨hjust, hstep, ⟨p, hpiece, hplot, hstage, hid⟩, hcreated, hserial⟩ :=
      State.startPhase_wet hsteep hnone hcurrent hwet hlot
    obtain ⟨hown, _, _⟩ := (s.startPhase c false).ok_kept 3#8
    refine ⟨_, p, hexec, hjust, hstep, hpiece, hplot, hstage, hcreated, fun _ => ?_, rfl, fun d hd => by simp [hd],
      (s.startPhase_otherClaims c false).trans (.of_own hown c)⟩
    obtain ⟨k, hk, hnew, hpassed⟩ := s.freeSerial_free s.book.serial
    refine ⟨k, by rw [hid, hk], hnew, hpassed, ?_⟩
    show (s.startPhase c false).book.serial = _
    rw [hserial, hk, Nat.mod_add_mod]

end Sys2Proof.Machine

/-! ## Proofs: what the reports of the Claim Table change (R45, R105 to R109)

A report reaches Turner Control alone: at the channels it changes what follows from the claims of the TURNER channel. -/

namespace Sys2Proof.Machine

theorem State.turnerCh_kind {s : State} {c : Fin 6} (hch : s.turnerCh = some c) : (s.ch c).kind = .turner := by
  simpa using List.find?_some hch

theorem State.OtherClaimsKept.claimsOf {s t : State} {c d : Fin 6} (h : s.OtherClaimsKept t c) (hd : d ≠ c) :
    t.claimsOf d = s.claimsOf d := by
  have hfilter (u : State) : u.claimsOf d = (u.own.filter fun o => o.channel != c).filter fun o => o.channel == d := by
    rw [State.claimsOf, List.filter_filter]
    refine List.filter_congr fun o _ => ?_
    by_cases ho : o.channel = d
    · simp [ho, hd]
    · simp [ho]
  rw [hfilter, hfilter, h]

/-- The vessels, their lists and the book are as they were, and a station without the turner has queued no event. -/
structure State.Reported (s t : State) : Prop where
  rest : t.tb = s.tb ∧ t.loader = s.loader ∧ t.cfg = s.cfg ∧ t.replies = s.replies ∧ t.castends = s.castends
    ∧ t.book = s.book
  kinds : ∀ d, (t.ch d).kind = (s.ch d).kind
  runs : ∀ d, (s.ch d).RunKept (t.ch d)
  vessels : ∀ d, (s.ch d).kind ≠ .turner → t.ch d = s.ch d ∧ t.claimsOf d = s.claimsOf d
  quiet : s.cfg.homeTurner = false → t.own = s.own ∧ t.turner = s.turner ∧ t.panel.events = s.panel.events
    ∧ t.panel.overflow = s.panel.overflow

namespace State.Reported

theorem refl (s : State) : s.Reported s :=
  ⟨by simp, fun _ => rfl, fun _ => .refl _, fun _ _ => ⟨rfl, rfl⟩, fun _ => by simp⟩

theorem trans {s t u : State} (hst : s.Reported t) (htu : t.Reported u) : s.Reported u := by
  obtain ⟨hcfg, hrest⟩ : t.cfg = s.cfg ∧ (u.tb = s.tb ∧ u.loader = s.loader ∧ u.cfg = s.cfg ∧ u.replies = s.replies
      ∧ u.castends = s.castends ∧ u.book = s.book) := by
    simp only [htu.rest, hst.rest, and_self]
  refine ⟨hrest, fun d => (htu.kinds d).trans (hst.kinds d), fun d => (hst.runs d).trans (htu.runs d), fun d hd => ?_,
    fun haway => ?_⟩
  · obtain ⟨hch, hclaims⟩ := hst.vessels d hd
    obtain ⟨hch', hclaims'⟩ := htu.vessels d (by rw [hst.kinds]; exact hd)
    exact ⟨hch'.trans hch, hclaims'.trans hclaims⟩
  · obtain ⟨hown, hturner, hevents, hoverflow⟩ := hst.quiet haway
    obtain ⟨hown', hturner', hevents', hoverflow'⟩ := htu.quiet (by rw [hcfg]; exact haway)
    exact ⟨hown'.trans hown, hturner'.trans hturner, hevents'.trans hevents, hoverflow'.trans hoverflow⟩

theorem foldl {α : Type} {f : State → α → State} (hf : ∀ t a, State.Reported t (f t a)) (l : List α) (s : State) :
    s.Reported (l.foldl f s) := by
  induction l generalizing s with
  | nil => exact .refl s
  | cons a r ih => exact (hf s a).trans (ih _)

/-- The channels and the claims are untouched. -/
theorem of_chans {s t : State} (hrest : t.tb = s.tb ∧ t.loader = s.loader ∧ t.cfg = s.cfg ∧ t.replies = s.replies
      ∧ t.castends = s.castends ∧ t.book = s.book) (hchans : t.chans = s.chans) (hown : t.own = s.own)
    (hquiet : s.cfg.homeTurner = false → t.turner = s.turner ∧ t.panel.events = s.panel.events
      ∧ t.panel.overflow = s.panel.overflow) : s.Reported t := by
  have hch (d : Fin 6) : t.ch d = s.ch d := State.ch_of_chans hchans d
  refine ⟨hrest, fun d => by rw [hch], fun d => by rw [hch]; exact .refl _, fun d _ => ⟨hch d, ?_⟩,
    fun haway => ⟨hown, hquiet haway⟩⟩
  rw [State.claimsOf, hown, ← State.claimsOf]

theorem of_noted {s t : State} (h : s.Noted t) : s.Reported t := by
  obtain ⟨htb, hloader, hcfg, _, hown, hchans, hturner, hreplies, hcastends, hbook, _⟩ := h.fields
  exact .of_chans ⟨htb, hloader, hcfg, hreplies, hcastends, hbook⟩ hchans hown fun _ => ⟨hturner, h.events, h.overflow⟩

/-- The TURNER channel alone is touched, on a station with the turner. -/
theorem of_turner {s t : State} {c : Fin 6} (hkind : (s.ch c).kind = .turner) (hhome : s.cfg.homeTurner = true)
    (hrest : t.tb = s.tb ∧ t.loader = s.loader ∧ t.cfg = s.cfg ∧ t.replies = s.replies ∧ t.castends = s.castends
      ∧ t.book = s.book) (hself : (s.ch c).RunKept (t.ch c)) (hsame : (t.ch c).kind = (s.ch c).kind)
    (hothers : s.OthersKept t c) (hclaims : s.OtherClaimsKept t c) : s.Reported t := by
  refine ⟨hrest, fun d => ?_, fun d => ?_, fun d hd => ?_, fun haway => absurd hhome (by simp [haway])⟩
  · by_cases hd : d = c
    · rw [hd, hsame]
    · rw [hothers d hd]
  · by_cases hd : d = c
    · rw [hd]
      exact hself
    · rw [hothers d hd]
      exact .refl _
  · have hne : d ≠ c := fun heq => hd (by rw [heq, hkind])
    exact ⟨hothers d hne, hclaims.claimsOf hne⟩

end State.Reported

theorem State.turnerHolds_reported {s : State} (hhome : s.cfg.homeTurner = true) (e : ClaimEntry) :
    s.Reported (s.turnerHolds e) := by
  have haway (p : Prop) : s.cfg.homeTurner = false → p := fun h => absurd hhome (by simp [h])
  cases hch : s.turnerCh with
  | none =>
    simp only [State.turnerHolds, hch]
    exact .refl s
  | some c =>
    cases hstate : s.turner.state
    case parked =>
      simp only [State.turnerHolds, hch, hstate]
      refine .of_turner (State.turnerCh_kind hch) hhome (by simp) ?_ (by simp) (fun d hd => by simp [hd]) ?_
      · exact State.ask_runKept (s.modTurner _) c _ c
      · exact State.ask_otherClaims (s.modTurner _) c _
    case faulted =>
      simp only [State.turnerHolds, hch, hstate]
      split
      · exact .of_chans (by simp) (by simp) (by simp) (haway _)
      · exact .of_chans (by simp) (by simp) (by simp) (haway _)
    all_goals
      simp only [State.turnerHolds, hch, hstate]
      exact .refl s

theorem State.dropTurner_reported {s : State} (hhome : s.cfg.homeTurner = true) : s.Reported s.dropTurner := by
  cases hch : s.turnerCh with
  | none =>
    simp only [State.dropTurner, hch]
    exact .refl s
  | some c =>
    simp only [State.dropTurner, hch]
    exact .of_turner (State.turnerCh_kind hch) hhome (by simp) (s.dropAll_runKept c c) (by simp)
      (fun d hd => by simp [hd]) (s.dropAll_otherClaims c)

theorem State.abandon_reported {s : State} (hhome : s.cfg.homeTurner = true) (o : Order) : s.Reported (s.abandon o) := by
  have hdropped := State.dropTurner_reported hhome
  have haway (p : Prop) : s.dropTurner.cfg.homeTurner = false → p := fun h => absurd hhome (by
    simp only [hdropped.rest] at h
    simp [h])
  refine hdropped.trans ?_
  unfold State.abandon
  dsimp only
  split
  · exact .of_chans (by simp) (by simp) (by simp) (haway _)
  · exact .of_chans (by simp) (by simp) (by simp) (haway _)

theorem State.report_reported (s : State) (r : TurnerReport) : s.Reported (s.report r) := by
  unfold State.report
  split
  · next hhome =>
    cases r with
    | hold e => exact State.turnerHolds_reported hhome e
    | stop station channel =>
      dsimp only
      unfold State.turnerStops
      split
      · split
        · exact State.abandon_reported hhome _
        · exact .refl s
      · exact .refl s
  · exact .refl s

theorem State.setClaims_reported (s : State) (t : List ClaimEntry) (l : List TurnerReport) :
    s.Reported (s.setClaims t l) := by
  have hposted : s.Reported { s with claims := posted s.cfg t } := .of_chans (by simp) rfl rfl fun _ => by simp
  exact hposted.trans (.foldl (fun u r => u.report_reported r) l _)

theorem State.applyClaims_reported (s : State) (sender : Nat) (items : List ClaimItem) (ok : Bool) :
    s.Reported (s.applyClaims sender items ok) :=
  (State.Reported.of_noted (s.listFaults_noted sender (applyList s.cfg ok sender items s.claims))).trans
    (State.setClaims_reported _ _ _)

theorem State.setClaims_claims (s : State) (t : List ClaimEntry) (l : List TurnerReport) :
    (s.setClaims t l).claims = posted s.cfg t := by
  simp [State.setClaims]

end Sys2Proof.Machine

/-! ## Proofs: isolation, and the loss of a station (R19, R22, R33, R43, R142, R143) -/

namespace Sys2Proof.Machine

/-! ### Isolation (R22, R33) -/

theorem voidClaim_not_held (o : OwnClaim) : (voidClaim o).state ≠ .held := by
  unfold voidClaim
  split
  · exact fun h => by cases h
  · assumption

theorem State.voidHoldings_hasHeld (s : State) (c : Fin 6) (r : Resource) : s.voidHoldings.hasHeld c r = false := by
  rw [State.hasHeld, State.voidHoldings_own, List.any_eq_false]
  intro o ho
  obtain ⟨x, _, rfl⟩ := List.mem_map.mp ho
  simp [voidClaim_not_held x]

/-- The posted flags that go at a voiding are those of the claims HELD (R30, R33). -/
theorem State.voidHoldings_posted (s : State) : s.voidHoldings.claims = s.claims.map fun e =>
    if e.station = s.cfg.address
        ∧ ∃ o ∈ s.own, o.state = .held ∧ o.channel.val = e.channel ∧ o.slot = e.slot
    then { e with posted := false } else e := by
  rw [State.voidHoldings_claims]
  refine List.map_congr_left fun e _ => if_congr ?_ rfl rfl
  simp only [List.any_eq_true, OwnClaim.names, Bool.and_eq_true, beq_iff_eq]
  constructor
  · rintro ⟨o, ho, hheld, ⟨hstation, hchannel⟩, hslot⟩
    exact ⟨hstation, o, ho, hheld, hchannel.symm, hslot.symm⟩
  · rintro ⟨hstation, o, ho, hheld, hchannel, hslot⟩
    exact ⟨o, ho, hheld, ⟨hstation, hchannel.symm⟩, hslot.symm⟩

/-! ### A third missed turn -/

/-- The state in which the entry of a lost station is ABSENT and its claims are gone (R19, R43). -/
def State.expired (s : State) (a : Nat) : State :=
  (((s.modLine fun l => { l with missedTurns := raise counterTop l.missedTurns }).modPeer a
    fun _ => lostPeer).followPeers).expireClaims a

section Lost

variable {s : State} {a : Nat} (hpresent : (s.peer a).present = true) (hlast : 2 ≤ (s.peer a).missed)
  (hother : a ≠ s.cfg.address)
include hpresent hlast hother

theorem State.charge_of_last : s.charge a = (s.expired a).lossAll a := by
  simp only [State.charge, hother, hpresent, hlast, decide_false, Bool.not_true, Bool.or_false, Bool.false_eq_true,
    if_false, if_true]
  rfl

theorem exec_peerLost (hhears : s.line.state.hears = true) :
    exec (.peerLost a) s = .next ((s.expired a).lossAll a) := by
  show execPeerLost a s = _
  rw [execPeerLost, hhears, Bool.true_and, if_pos (by simpa using hlast), State.charge_of_last hpresent hlast hother]

theorem State.expired_peer : ((s.expired a).lossAll a).peer a = { change := true } := by
  rw [← State.charge_of_last hpresent hlast hother, State.charge_peer_self hother hpresent, missedTurn, if_pos hlast]

end Lost

theorem State.expired_reported (s : State) (a : Nat) : s.Reported (s.expired a) := by
  have hnoted : s.Noted (((s.modLine fun l => { l with missedTurns := raise counterTop l.missedTurns }).modPeer a
      fun _ => lostPeer).followPeers) :=
    ⟨State.eq_of_fields (by simp), by simp, by simp⟩
  exact (State.Reported.of_noted hnoted).trans (State.setClaims_reported _ _ _)

theorem State.expired_line (s : State) (a : Nat) : (s.expired a).line.round = s.line.round
    ∧ (s.expired a).line.state = s.line.state := by
  simp [State.expired, State.modLine]

theorem State.expired_claims (s : State) (a : Nat) :
    (s.expired a).claims = posted s.cfg (s.claims.filter fun e => e.station != a) := by
  rw [State.expired, State.expireClaims, State.setClaims_claims]
  simp

theorem posted_entries (cfg : Settings) (t : List ClaimEntry) (p : ClaimEntry → Prop)
    (hp : ∀ e b, p { e with posted := b } ↔ p e) : (∀ e ∈ posted cfg t, p e) ↔ ∀ e ∈ t, p e := by
  simp only [posted, List.forall_mem_map, hp]

/-! ### The loss at the Transfer Units -/

theorem State.lossAt_of_other {s : State} {a : Nat} {c : Fin 6} (hother : (s.ch c).xfer.partner.map (·.station) ≠ some a) :
    s.lossAt a c = s := if_neg hother

theorem State.modXfer_otherClaims (s : State) (c : Fin 6) (f : Xfer → Xfer) : s.OtherClaimsKept (s.modXfer c f) c :=
  .of_own rfl c

theorem State.pause_otherClaims (s : State) (c : Fin 6) (reason : PauseReason) (resume : Option Resume) :
    s.OtherClaimsKept (s.pause c reason resume) c := .of_own (by simp) c

theorem State.lossAt_otherClaims (s : State) (a : Nat) (c : Fin 6) : s.OtherClaimsKept (s.lossAt a c) c := by
  unfold State.lossAt
  dsimp only
  split
  · split
    · exact .of_own (by simp) c
    · split
      · exact .of_own (by simp) c
      · split
        · exact .of_own (by simp) c
        · exact ((s.modCh_otherClaims c _ c).trans (State.dropAll_otherClaims (s.modCh c _) c)).trans
            ((State.modXfer_otherClaims _ c _).trans (State.pause_otherClaims _ c .destLost none))
    all_goals exact .of_own rfl c
  · exact .of_own rfl c

/-- What the loss makes of a channel and of its claims, by what it makes of them where they stand as before. -/
theorem State.lossAll_at {s : State} {a : Nat} {c : Fin 6} {Q : Channel → List OwnClaim → Prop}
    (hat : ∀ t : State, t.ch c = s.ch c → t.claimsOf c = s.claimsOf c → Q ((t.lossAt a c).ch c) ((t.lossAt a c).claimsOf c)) :
    Q ((s.lossAll a).ch c) ((s.lossAll a).claimsOf c) := by
  refine foldl_channels (P := fun t => t.ch c = s.ch c ∧ t.claimsOf c = s.claimsOf c)
    (Q := fun t => Q (t.ch c) (t.claimsOf c)) (fun t d hd ht => ?_) (fun t ht => hat t ht.1 ht.2) (fun t d hd ht => ?_)
    ⟨rfl, rfl⟩
  · rw [State.lossAt_others _ _ _ _ hd.symm, (t.lossAt_otherClaims a d).claimsOf hd.symm]
    exact ht
  · rw [State.lossAt_others _ _ _ _ hd.symm, (t.lossAt_otherClaims a d).claimsOf hd.symm]
    exact ht

/-- Where the station was the partner of one channel alone, the loss is that channel's. -/
theorem State.lossAll_of_alone {s : State} {a : Nat} {c : Fin 6}
    (halone : ∀ d, d ≠ c → (s.ch d).xfer.partner.map (·.station) ≠ some a) : s.lossAll a = s.lossAt a c := by
  refine foldl_channels (P := fun t => t = s) (Q := fun t => t = s.lossAt a c) (fun t d hd ht => ?_)
    (fun t ht => by rw [ht]) (fun t d hd ht => ?_) rfl
  · rw [ht, State.lossAt_of_other (halone d hd)]
  · rw [ht, State.lossAt_of_other (by rw [State.lossAt_others _ _ _ _ hd]; exact halone d hd)]

/-- A source goes back to its offer, without its claims, as far as the pause (R143). -/
def State.offersAgain (s : State) (c : Fin 6) : State :=
  ((s.modCh c fun k => { k with step := some .offering }).dropAll c).modXfer c fun x => { x with state := .suspended }

section Loss

variable {s : State} {a : Nat} {c : Fin 6} (hpartner : (s.ch c).xfer.partner.map (·.station) = some a)
include hpartner

theorem State.lossAt_of_awaiting (hawaiting : (s.ch c).xfer.state = .awaiting) : s.lossAt a c = s.makeOrphan c 1 := by
  rw [State.lossAt, if_pos hpartner, hawaiting]

/-- A cast whose drive has started: the piece may be out (R143). -/
theorem State.lossAt_of_started (haccepted : (s.ch c).xfer.state = .accepted) (hstarted : (s.ch c).xfer.driveStarted = true) :
    s.lossAt a c = s.modPiece c fun p => { p with unconfirmedOut := true } := by
  rw [State.lossAt, if_pos hpartner, haccepted]
  exact if_pos hstarted

/-- A HALTED source frees the destination (R143). -/
theorem State.lossAt_of_halted (haccepted : (s.ch c).xfer.state = .accepted) (hstarted : (s.ch c).xfer.driveStarted = false)
    (hhalted : (s.ch c).state = .halted) : s.lossAt a c = (s.cancelPartner c).endXfer c := by
  rw [State.lossAt, if_pos hpartner, haccepted]
  simp only [hstarted, hhalted, Bool.false_eq_true, if_false, if_true]

theorem State.lossAt_of_offer (haccepted : (s.ch c).xfer.state = .accepted) (hstarted : (s.ch c).xfer.driveStarted = false)
    (hhalted : (s.ch c).state ≠ .halted) : s.lossAt a c = (s.offersAgain c).pause c .destLost none := by
  rw [State.lossAt, if_pos hpartner, haccepted]
  simp only [hstarted, hhalted, Bool.false_eq_true, if_false]
  rfl

theorem State.lossAt_of_idle (hawaiting : (s.ch c).xfer.state ≠ .awaiting) (haccepted : (s.ch c).xfer.state ≠ .accepted) :
    s.lossAt a c = s := by
  rw [State.lossAt, if_pos hpartner]
  cases hstate : (s.ch c).xfer.state
  case awaiting => exact absurd hstate hawaiting
  case accepted => exact absurd hstate haccepted
  all_goals rfl

end Loss

/-- An orphan's event is the first that its making queues. -/
theorem State.makeOrphan_head {s : State} {c : Fin 6} {p : Piece} (hcopy : (s.ch c).xfer.copy = some p)
    (hevents : s.panel.events = []) (hoverflow : s.panel.overflow = 0) (value : Nat) :
    (s.makeOrphan c value).panel.events.head? = some ⟨.orphan, some c, some p.id, s.line.round, [value, 0, 0, 0]⟩ := by
  have hfirst : ((s.placePiece c p true).chEvent c .orphan [value, 0, 0, 0]).panel.events.head? =
      some ⟨.orphan, some c, some p.id, s.line.round, [value, 0, 0, 0]⟩ := by
    have hpiece : (((s.placePiece c p true).ch c).piece.map (·.id)) = some p.id := by simp [placedChannel, arrivedPiece]
    rw [State.chEvent, hpiece, State.event_panel, Panel.queue_head (by simpa using hevents) (by simpa using hoverflow)]
    simp
  rw [State.makeOrphan_of_copy hcopy]
  split
  · exact (State.pause_queued .refl c .orphan none).head hfirst
  · unfold State.settlePiece
    split
    · exact (State.starve_queued .refl c).head hfirst
    all_goals exact hfirst

/-- In the step OFFERING no cast drive is on. -/
theorem State.castDriveOn_of_offering {s : State} {c : Fin 6} (hstep : (s.ch c).step = some .offering) :
    s.castDriveOn c = false := by
  unfold State.castDriveOn
  split
  · next hkind =>
    have hcommand : (s.command c).d3 = 0 := by
      unfold State.command
      split
      · simp [hkind, steepCommand, hstep, bit]
      · rfl
    unfold State.outputs
    dsimp only
    split
    · rfl
    · simp [hkind, hcommand, gated]
  · next hkind =>
    have hcommand : (s.command c).d2 = 0 := by
      unfold State.command
      split
      · simp [hkind, boxCommand, hstep, bit]
      · rfl
    unfold State.outputs
    dsimp only
    split
    · rfl
    · simp [hkind, hcommand, gated]
  all_goals rfl

theorem State.dropAll_xfer_of_offering {s : State} {c : Fin 6} (hstep : (s.ch c).step = some .offering) :
    ((s.dropAll c).ch c).xfer = (s.ch c).xfer := by
  set u := ({ s with own := s.own.filter fun o => o.channel != c } : State).modCh c fun h => { h with asksDue := [] } with hu
  have hch : (u.ch c).xfer = (s.ch c).xfer ∧ (u.ch c).step = some .offering := by
    rw [hu, State.ch_modCh_self]
    exact ⟨rfl, hstep⟩
  have hfan := (u.followWaits_runKept c c).trans ((u.followWaits c).followFan_runKept c c)
  have hoff : ((u.followWaits c).followFan c).castDriveOn c = false :=
    State.castDriveOn_of_offering (by simp only [hfan, hch])
  have hsame : (((u.followWaits c).followFan c).ch c).xfer = (u.ch c).xfer := by
    unfold State.followFan State.followWaits
    split <;> simp
  show ((((u.followWaits c).followFan c).followCast c).ch c).xfer = _
  rw [State.followCast, hoff, Bool.and_false, if_neg Bool.false_ne_true, hsame, hch.1]

/-- The source that offers again: claims and transfer apart, the channel is as it was. -/
theorem State.offersAgain_spec (s : State) (c : Fin 6) :
    ((s.offersAgain c).ch c).xfer = { (s.ch c).xfer with state := .suspended }
      ∧ ((s.offersAgain c).ch c).step = some .offering ∧ ((s.offersAgain c).ch c).piece = (s.ch c).piece
      ∧ ((s.offersAgain c).ch c).timer = (s.ch c).timer ∧ (s.offersAgain c).NoClaims c
      ∧ (s.offersAgain c).castends = s.castends ∧ (s.offersAgain c).panel = s.panel
      ∧ (s.offersAgain c).line = s.line := by
  set u := s.modCh c fun k => { k with step := some .offering } with hu
  have hch : u.ch c = { s.ch c with step := some .offering } := State.ch_modCh_self s c _
  have hunit := State.dropAll_xfer_of_offering (s := u) (c := c) (by rw [hch])
  have hkept := u.dropAll_runKept c c
  have hdropped : s.offersAgain c = (u.dropAll c).modXfer c fun x => { x with state := .suspended } := rfl
  rw [hdropped, State.modXfer_ch_self]
  refine ⟨?_, ?_, ?_, ?_, (u.dropAll_noClaims c).of_own (by simp), by simp [u], by simp [u], by simp [u]⟩
  · show ({ ((u.dropAll c).ch c).xfer with state := XferState.suspended } : Xfer) = _
    rw [hunit, hch]
  all_goals simp only [hkept, hch]

theorem Panel.queue_single {p : Panel} (hevents : p.events = []) (hoverflow : p.overflow = 0) (round : Word16) (e : Event) :
    (p.queue round e).events = [e] := by
  simp [Panel.queue, hevents, hoverflow]

theorem State.noClaims_iff {s : State} {c : Fin 6} : s.NoClaims c ↔ s.claimsOf c = [] := by
  simp only [State.NoClaims, State.claimsOf, List.filter_eq_nil_iff, beq_iff_eq]

/-- What a source whose destination is lost keeps through its pause. -/
theorem State.destLost_spec (s : State) (c : Fin 6) : let t := (s.offersAgain c).pause c .destLost none
    (t.ch c).xfer = { (s.ch c).xfer with state := .suspended } ∧ (t.ch c).step = some .offering
      ∧ (t.ch c).state = .paused ∧ (t.ch c).pause = some .destLost ∧ t.claimsOf c = [] ∧ (t.ch c).piece = (s.ch c).piece
      ∧ (t.ch c).timer = (s.ch c).timer ∧ t.castends = s.castends
      ∧ (s.panel.events = [] → s.panel.overflow = 0 →
        t.panel.events = [⟨.paused, some c, (s.ch c).piece.map (·.id), s.line.round, [7, 0, 0, 0]⟩]) := by
  obtain ⟨hxfer, hstep, hpiece, htimer, hclaims, hcastends, hpanel, hline⟩ := s.offersAgain_spec c
  dsimp only
  rw [State.pause_ch_self]
  refine ⟨hxfer, hstep, rfl, rfl, State.noClaims_iff.mp (hclaims.of_own (by simp)), hpiece, htimer, by simpa using hcastends,
    fun hevents hoverflow => ?_⟩
  have hqueue : ((s.offersAgain c).pause c .destLost none).panel = s.panel.queue s.line.round
      ⟨.paused, some c, (s.ch c).piece.map (·.id), s.line.round, [7, 0, 0, 0]⟩ := by
    simp only [State.pause, State.chEvent, State.event_panel, State.ch_modCh_self, State.modCh_frame, hpanel, hline,
      pausedChannel, hpiece]
    rfl
  rw [hqueue, Panel.queue_single hevents hoverflow]

/-- Settles O25, by the voiding of an isolation, and by the loss of a station at the table and at each channel. -/
theorem lossesVoidAndExpire : Obligations.LossesVoidAndExpire := by
  refine ⟨fun s hmember htimer => ?isolation, fun s a hhears hpresent hlast hother => ?table,
    fun s a c hhears hpresent hlast hother hvessel hpartner => ?unit⟩
  case isolation =>
    have hexec : exec .isolationTimerExpiry s = .next s.isolate := by
      show execIsolationTimerExpiry s = _
      rw [execIsolationTimerExpiry, if_pos (by simp [hmember, htimer])]
    refine ⟨_, hexec, ?_, ?_, ?_, ?_, State.eq_of_fields (by simp)⟩
    · simp [State.isolate, State.modLine, State.mark]
    · exact s.voidHoldings_own
    · exact s.voidHoldings_hasHeld
    · exact s.voidHoldings_posted
  case table =>
    obtain ⟨hround, hstate⟩ := s.expired_line a
    have hclaims : ((s.expired a).lossAll a).claims = posted s.cfg (s.claims.filter fun e => e.station != a) := by
      rw [← s.expired_claims a]
      simp
    refine ⟨_, exec_peerLost hpresent hlast hother hhears, State.expired_peer hpresent hlast hother, ?_, fun e he hne => ?_,
      by simpa using hround, by simpa using hstate⟩
    · rw [hclaims, posted_entries s.cfg _ (fun e => e.station ≠ a) fun _ _ => Iff.rfl]
      intro e he
      simpa using (List.mem_filter.mp he).2
    · rw [hclaims, posted]
      exact ⟨_, List.mem_map_of_mem (List.mem_filter.mpr ⟨he, by simpa using hne⟩), rfl, rfl, rfl⟩
  case unit =>
    have hkept := s.expired_reported a
    obtain ⟨_, _, hcfg, _, hcastends, hbook⟩ := hkept.rest
    obtain ⟨hround, _⟩ := s.expired_line a
    have hnot : (s.ch c).kind ≠ .turner := by
      intro h
      simp [h, isVessel] at hvessel
    obtain ⟨hch, hclaims⟩ := hkept.vessels c hnot
    have hpartner' {t : State} (ht : t.ch c = (s.expired a).ch c) : (t.ch c).xfer.partner.map (·.station) = some a := by
      rw [ht, hch]
      exact hpartner
    have hone (halone : ∀ d, d ≠ c → (s.ch d).xfer.partner.map (·.station) ≠ some a) :
        (s.expired a).lossAll a = (s.expired a).lossAt a c := by
      refine State.lossAll_of_alone fun d hd => ?_
      have hrun := hkept.runs d
      simp only [hrun]
      exact halone d hd
    refine ⟨_, exec_peerLost hpresent hlast hother hhears, fun p hawaiting hcopy => ?orphan, fun haccepted hstarted => ?out,
      fun haccepted hstarted hhalted => ?again, fun d id haccepted hstarted hhalted hdest hpiece => ?frees,
      fun hawaiting haccepted => ?idle⟩
    case orphan =>
      obtain ⟨hpiece, hxfer, hsetpoint, hstate, hpause⟩ := orphanedChannel_fields (s.ch c) p
      have hself : ((s.expired a).lossAll a).ch c = orphanedChannel (placedChannel (s.ch c) p true) := by
        refine State.lossAll_at (Q := fun h _ => h = orphanedChannel (placedChannel (s.ch c) p true)) fun t ht _ => ?_
        rw [State.lossAt_of_awaiting (hpartner' ht) (by rw [ht, hch, hawaiting]),
          State.makeOrphan_ch_self (p := p) (by rw [ht, hch, hcopy]), ht, hch]
      have horphan (halone : ∀ d, d ≠ c → (s.ch d).xfer.partner.map (·.station) ≠ some a) :
          (s.expired a).lossAll a = (s.expired a).makeOrphan c 1 := by
        rw [hone halone, State.lossAt_of_awaiting (hpartner' rfl) (by rw [hch, hawaiting])]
      rw [hself]
      refine ⟨hpiece, hxfer, hsetpoint, hstate, hpause, fun halone => ?_, fun halone ⟨haway, hevents, hoverflow⟩ => ?_⟩
      · rw [horphan halone, State.makeOrphan_book (p := p) (by rw [hch, hcopy]), hbook]
        rfl
      · obtain ⟨_, _, hevents', hoverflow'⟩ := hkept.quiet haway
        rw [horphan halone, State.makeOrphan_head (p := p) (by rw [hch, hcopy]) (hevents'.trans hevents)
          (hoverflow'.trans hoverflow), hround]
    case out =>
      refine State.lossAll_at (Q := fun h l => h = _ ∧ l = s.claimsOf c) fun t ht hl => ?_
      rw [State.lossAt_of_started (hpartner' ht) (by rw [ht, hch, haccepted]) (by rw [ht, hch, hstarted])]
      refine ⟨?_, hl.trans hclaims⟩
      rw [State.modPiece, State.ch_modCh_self, ht, hch]
    case again =>
      have hoffer {t : State} (ht : t.ch c = (s.expired a).ch c) : t.lossAt a c = (t.offersAgain c).pause c .destLost none :=
        State.lossAt_of_offer (hpartner' ht) (by rw [ht, hch, haccepted]) (by rw [ht, hch, hstarted]) (by rw [ht, hch]; exact hhalted)
      have hself := State.lossAll_at (s := s.expired a) (a := a) (c := c) (Q := fun h l =>
        h.xfer = { (s.ch c).xfer with state := .suspended } ∧ h.step = some .offering ∧ h.state = .paused
          ∧ h.pause = some .destLost ∧ l = [] ∧ h.piece = (s.ch c).piece ∧ h.timer = (s.ch c).timer) fun t ht _ => by
        obtain ⟨hxfer, hstep, hstate, hpause, hnone, hpiece, htimer, _⟩ := t.destLost_spec c
        rw [ht, hch] at hxfer hpiece htimer
        rw [hoffer ht]
        exact ⟨hxfer, hstep, hstate, hpause, hnone, hpiece, htimer⟩
      obtain ⟨hxfer, hstep, hstate, hpause, hnone, hpiece, htimer⟩ := hself
      obtain ⟨_, _, _, _, _, _, _, hcastends', hevent⟩ := (s.expired a).destLost_spec c
      refine ⟨hxfer, hstep, hstate, hpause, State.noClaims_iff.mpr hnone, hpiece, htimer, fun halone => ?_,
        fun halone ⟨haway, hevents, hoverflow⟩ => ?_⟩
      · rw [hone halone, hoffer rfl, hcastends', hcastends]
      · obtain ⟨_, _, hevents', hoverflow'⟩ := hkept.quiet haway
        rw [hone halone, hoffer rfl, hevent (hevents'.trans hevents) (hoverflow'.trans hoverflow), hch, hround]
    case frees =>
      have hhalt {t : State} (ht : t.ch c = (s.expired a).ch c) : t.lossAt a c = (t.cancelPartner c).endXfer c :=
        State.lossAt_of_halted (hpartner' ht) (by rw [ht, hch, haccepted]) (by rw [ht, hch, hstarted]) (by rw [ht, hch, hhalted])
      refine ⟨?_, fun halone => ?_⟩
      · refine State.lossAll_at (Q := fun h _ => h = { s.ch c with xfer := {} }) fun t ht _ => ?_
        rw [hhalt ht]
        simp [ht, hch]
      · rw [hone halone, hhalt rfl, State.cancelPartner]
        simp only [hch, hdest, hpiece]
        simp [hcastends]
    case idle =>
      refine State.lossAll_at (Q := fun h l => h = s.ch c ∧ l = s.claimsOf c) fun t ht hl => ?_
      rw [State.lossAt_of_idle (hpartner' ht) (by rw [ht, hch]; exact hawaiting) (by rw [ht, hch]; exact haccepted)]
      exact ⟨ht.trans hch, hl.trans hclaims⟩

end Sys2Proof.Machine

/-! ## Proofs: the transfer items of a frame that is heard (R134, R136, R139, R140)

Where no charge loses a station, what stands before the items of a frame are taken differs from the state before the
frame in the line, the tables and the turner alone. -/

namespace Sys2Proof.Machine

/-! ### The steps of a frame that is heard -/

/-- The header of the frame is taken, its charges made and its claims applied (R2, R16, R18, R34). -/
def State.heardListed (s : State) (f : TurnFrame) : State :=
  let s1 := (s.frameEnd.restartCold.hearRound f s.line.overridden).otherHeader f
  s1.applyClaims f.sender f.claims s1.turnerOk

theorem State.hearRound_of_turn {f : TurnFrame} (hopening : f.opening = false) (s : State) (late : Bool) :
    s.hearRound f late = { s with line := (s.hearRound f late).line } := by
  have hround : s.hearRound f late = if late then (s.compareRound f.round).openingTime else s.compareRound f.round := by
    rw [State.hearRound, hopening]
    rfl
  rw [hround]
  split <;> exact State.eq_of_fields (by simp)

theorem exec_of_hears {s : State} {bytes : List Byte} {f : TurnFrame} (h : s.Hears bytes f) :
    exec (.validTurnFrameHeard bytes) s = .next (((((s.heardListed f).transferItems f false).hearEntries f.count f.entries
      f.sender f.round)).takeSender (some f.sender)) := by
  obtain ⟨hhearing, hdecode, hother, _⟩ := h
  rw [exec_validTurnFrameHeard hhearing hdecode, State.hearTurn_of_other hother]
  rfl

/-- The line of a frame heard, its header and its charges. -/
theorem State.heardHeader_noted {s : State} {bytes : List Byte} {f : TurnFrame} (h : s.Hears bytes f) :
    s.Noted ((s.frameEnd.restartCold.hearRound f s.line.overridden).otherHeader f) := by
  obtain ⟨_, _, _, hopening, _, hfew⟩ := h
  have hended : s.frameEnd.restartCold = { s with line := s.frameEnd.restartCold.line } := State.eq_of_fields (by simp)
  have hline := s.frameEnd.restartCold.hearRound_of_turn hopening s.line.overridden
  refine ((State.Noted.of_line hended).trans (.of_line hline)).trans (State.otherHeader_noted ?_ f)
  rw [hline]
  simpa using hfew

theorem State.heardListed_reported {s : State} {bytes : List Byte} {f : TurnFrame} (h : s.Hears bytes f) :
    s.Reported (s.heardListed f) :=
  (State.Reported.of_noted (State.heardHeader_noted h)).trans (State.applyClaims_reported _ _ _ _)

theorem State.hearing_kindOf {s : State} (hhearing : s.hearing = true) (c : Fin 6) : s.kindOf c = (s.ch c).kind := by
  rw [State.kindOf, if_neg]
  intro h
  simp [State.hearing, h, LineState.hears] at hhearing

end Sys2Proof.Machine

/-! ## Proofs: the transfer items of a frame, where a steep awaits a piece (R139)

The statement lets the awaiting channel be of any kind but TURNER. A steep that awaits, READY with a CAST in CURRENT,
starts that CAST at the arrival: its unit is OFFERING, not NONE. -/

namespace Sys2Proof.Machine

/-- The piece that comes. -/
def arrivingPiece : Piece := { id := 0x2801#16, lot := 7, stage := .steep }

/-- A steep that is READY for a CAST while its unit awaits a piece of station 5. -/
def awaitingSteep : Channel :=
  { kind := .steep, state := .ready, current := some { kind := .cast, duration := 1, dest := some ⟨5, 1⟩ }
    xfer := { state := .awaiting, partner := some ⟨5, 0⟩, piece := some arrivingPiece.id, copy := some arrivingPiece } }

/-- Station 3, LISTENING, with that steep as its channel 0. -/
def awaitingStation : State :=
  { State.reset with
    cfg := { noSettings with address := 3 }, line := { Line.start with state := .listening }
    chans := ⟨awaitingSteep, {}, {}, {}, {}, {}⟩ }

/-- The cast end of the piece that the steep awaits. -/
def arrivingEnd : CastendItem := { source := 0, dest := ⟨3, 0⟩, outcome := .complete arrivingPiece }

/-- The frame of station 5 that carries it. -/
def arrivingFrame : TurnFrame :=
  { sender := 5, opening := false, home := false, available := false, round := 0#16, digest := 0#16, count := 0#24,
    castends := [arrivingEnd] }

theorem decodeTurn_arrivingFrame : decodeTurn (encodeTurn arrivingFrame) = some arrivingFrame := by decide +kernel

theorem awaitingStation_hears : awaitingStation.Hears (encodeTurn arrivingFrame) arrivingFrame :=
  ⟨by decide, decodeTurn_arrivingFrame, by decide, rfl, rfl, by decide⟩

/-- The CAST that starts at the arrival offers the piece. -/
theorem awaitingStation_offers : ((awaitingStation.hearTurn arrivingFrame).ch 0).xfer.state = .offering := by
  decide +kernel

/-- Refutes O60: a steep that awaits a piece, READY with a CAST in CURRENT, offers the piece as soon as it has come. -/
theorem not_transferItemsHeard : ¬ Obligations.TransferItemsHeard := by
  intro h
  obtain ⟨_, _, hcastend⟩ := h
  obtain ⟨t, hexec, hcomplete, _⟩ := hcastend awaitingStation (encodeTurn arrivingFrame) arrivingFrame 0 arrivingEnd
    awaitingStation_hears ⟨rfl, rfl, rfl, rfl⟩ rfl (by decide)
  obtain ⟨hunit, _⟩ := hcomplete arrivingPiece rfl ⟨rfl, rfl, rfl⟩
  rw [exec_validTurnFrameHeard (by decide) decodeTurn_arrivingFrame] at hexec
  injection hexec with ht
  have hoffers := awaitingStation_offers
  rw [ht, hunit] at hoffers
  exact absurd hoffers (by decide)

end Sys2Proof.Machine

/-! ## Proofs: a take of the turner's POWER that a merge removes (R41, R107)

The clause on the turner asks nothing of the Own Claim List. In a list with two claims of one slot, a take and a merged
top-up, the merge removes both, and no GRANTED reaches the turner. -/

namespace Sys2Proof.Machine

/-- A POWER claim of channel 0 as a frame carried it. -/
def powerClaim (slot : Nat) (state : LocalState) (sent : SentMark) : OwnClaim :=
  { askedClaim 0 slot ⟨.power, 1, 5, false, none, none⟩ with state := state, sent := sent }

/-- The take that shares its slot with the top-up. -/
def doubledTake : OwnClaim := powerClaim 1 .waiting .take

/-- The order the turner waits with. -/
def waitingOrder : Order := { box := ⟨5, 2⟩, bay := 4, round := 0#16 }

/-- The own frame that is read back: it carries no item. -/
def emptyFrame : TurnFrame :=
  { sender := 3, opening := false, home := false, available := false, round := 0#16, digest := 0#16, count := 0#24 }

/-- Station 3, its turner in POWER_WAIT at the order's bay, with the take and the merge in its frame. -/
def doubledStation : State :=
  { State.reset with
    cfg := { noSettings with address := 3 }
    line := { Line.start with state := .member, sending := some (.turn emptyFrame false false) }
    own := [powerClaim 0 .held (.base 1), powerClaim 1 .held .merged, doubledTake]
    chans := ⟨{ kind := .turner }, {}, {}, {}, {}, {}⟩
    turner := { Turner.start with state := .powerWait, order := some waitingOrder, position := some 4 } }

theorem doubledStation_readsBack : doubledStation.ReadsBack emptyFrame false := ⟨rfl, by decide⟩

/-- The turner still waits after the read-back. -/
theorem doubledStation_waits : (doubledStation.turnRead emptyFrame false).turner.state = .powerWait := by decide +kernel

/-- Refutes O58: a take whose slot a merged top-up shares goes with it, and the turner is not told GRANTED. -/
theorem not_ownReadBackMergesAndGrants : ¬ Obligations.OwnReadBackMergesAndGrants := by
  intro h
  obtain ⟨_, _, _, hturner⟩ := h
  obtain ⟨t, hexec, hmoves, _⟩ := hturner doubledStation emptyFrame false doubledTake waitingOrder doubledStation_readsBack
    ⟨rfl, rfl, rfl, rfl⟩ rfl (by decide) (by decide) rfl rfl (by decide) (by decide)
  have hturning := hmoves rfl rfl
  rw [exec_ownTurnReadBack doubledStation_readsBack.1] at hexec
  injection hexec with ht
  have hwaits := doubledStation_waits
  rw [ht, hturning] at hwaits
  cases hwaits

end Sys2Proof.Machine

/-! ## Proofs: turns ended, ordered and abandoned by a frame that is heard (R45, R100, R106, R109) -/

namespace Sys2Proof.Machine

/-! ### TURNEND (R100) -/

theorem State.transferItems_of_turnend {f : TurnFrame} {e : TurnendItem} (hcarries : CarriesJust f [] [] [] [e]) (s : State)
    (own : Bool) : s.transferItems f own = s.handleTurnend e := by
  obtain ⟨hoffers, hreplies, hcastends, hturnends⟩ := hcarries
  simp [State.transferItems, hoffers, hreplies, hcastends, hturnends]

theorem State.localCh_own {s : State} {p : Pair} {c : Fin 6} (hp : p = ⟨s.cfg.address, c.val⟩) : s.localCh p = some c := by
  simp [State.localCh, hp]

theorem Channel.takesTurnend_iff {h : Channel} {round : Word16} : h.takesTurnend round = true ↔
    h.kind = .box ∧ h.inPhase .turn = true ∧ (h.state = .running ∨ h.state = .paused)
      ∧ ∃ r, h.turnRound = some r ∧ (round - r).toNat < 32768 := by
  unfold Channel.takesTurnend
  simp only [Bool.and_eq_true, Bool.or_eq_true, beq_iff_eq, and_assoc]
  cases h.turnRound <;> simp

theorem State.handleTurnend_of_local {s : State} {e : TurnendItem} {c : Fin 6} (hlocal : s.localCh e.box = some c) :
    s.handleTurnend e = if (s.ch c).takesTurnend e.round then
      s.turnEnds c (if e.outcome = .ok then .turned else .turnMissed) else s := by
  simp only [State.handleTurnend, hlocal]

/-- A TURN without its TURNER claim and without TURN_WAIT, at its end. -/
def State.turnDropped (s : State) (c : Fin 6) : State :=
  (s.dropOn c .turner).modCh c fun h => { h with wait := { h.wait with turn := false } }

theorem State.turnEnds_eq (s : State) (c : Fin 6) (reason : EndReason) :
    s.turnEnds c reason = (s.turnDropped c).finish c reason := rfl

/-- The end of a turn that a running phase waits for completes the phase. -/
theorem State.turnEnds_of_running {s : State} {c : Fin 6} (hturn : (s.ch c).inPhase .turn = true)
    (hrunning : (s.ch c).state = .running) (reason : EndReason) :
    ((s.turnEnds c reason).ch c).EndedBy .turn reason
      ∧ ((s.ch c).next = none → ((s.turnEnds c reason).ch c).wait.turn = false) := by
  obtain ⟨hstarted, r, hcurrent, hkind⟩ := Channel.inPhase_iff.mp hturn
  have hkept := s.dropOn_runKept c .turner c
  have hch : (s.turnDropped c).ch c =
      { (s.dropOn c .turner).ch c with wait := { ((s.dropOn c .turner).ch c).wait with turn := false } } :=
    State.ch_modCh_self _ c _
  have hstate : ((s.turnDropped c).ch c).state = .running := by
    simp only [hch, hkept, hrunning]
  have hrecord : ((s.turnDropped c).ch c).current = some r := by
    simp only [hch, hkept, hcurrent]
  have hhaltable : ((s.turnDropped c).ch c).state.haltable = true := by rw [hstate]; rfl
  rw [State.turnEnds_eq, State.finish_of_running hstate, ← hkind]
  refine ⟨State.complete_endedBy hrecord hhaltable reason, fun hlast => ?_⟩
  exact State.complete_last_turnWait hrecord hhaltable (by simp only [hch, hkept, hlast]) reason

/-- The end of a turn in a pause is due at its RELEASE. -/
theorem State.turnEnds_of_paused {s : State} {c : Fin 6} (hturn : (s.ch c).inPhase .turn = true)
    (hpaused : (s.ch c).state = .paused) (hdue : (s.ch c).due = none) (reason : EndReason) :
    ((s.turnEnds c reason).ch c).due = some reason ∧ ((s.turnEnds c reason).ch c).state = .paused
      ∧ ((s.turnEnds c reason).ch c).wait.turn = false ∧ (s.turnEnds c reason).claimsOn c .turner = [] := by
  obtain ⟨hstarted, r, hcurrent, hkind⟩ := Channel.inPhase_iff.mp hturn
  have hkept := s.dropOn_runKept c .turner c
  have hch : (s.turnDropped c).ch c =
      { (s.dropOn c .turner).ch c with wait := { ((s.dropOn c .turner).ch c).wait with turn := false } } :=
    State.ch_modCh_self _ c _
  have hstate : ((s.turnDropped c).ch c).state = .paused := by
    simp only [hch, hkept, hpaused]
  have hfinish := State.finish_of_paused hstate (by simp only [hch, hkept, hstarted]) (by simp only [hch, hkept, hdue]) reason
  rw [State.turnEnds_eq, hfinish, State.ch_modCh_self]
  refine ⟨rfl, hstate, by rw [hch], ?_⟩
  have hown : ((s.turnDropped c).modCh c fun k => { k with due := some reason }).own =
      s.own.filter fun o => !(o.channel == c && o.resource == .turner) := by
    simp [State.turnDropped, State.dropOn]
  rw [State.claimsOn, hown, List.filter_filter]
  exact List.filter_eq_nil_iff.mpr fun o _ => by simp

/-! ### What a frame leaves after its items -/

/-- The frame's entries are taken and its sender is the last of the ladder (R2, R15, R154). -/
def State.heardOut (s : State) (f : TurnFrame) : State :=
  (s.hearEntries f.count f.entries f.sender f.round).takeSender (some f.sender)

theorem State.heardOut_kept (s : State) (f : TurnFrame) : (∀ d, (s.heardOut f).ch d = s.ch d)
    ∧ (∀ d, (s.heardOut f).claimsOf d = s.claimsOf d) ∧ (s.heardOut f).own = s.own ∧ (s.heardOut f).turner = s.turner
    ∧ (s.heardOut f).claims = s.claims := by
  have hown : (s.heardOut f).own = s.own := by simp [State.heardOut]
  refine ⟨fun d => by simp [State.heardOut], fun d => ?_, hown, by simp [State.heardOut], by simp [State.heardOut]⟩
  rw [State.claimsOf, hown, ← State.claimsOf]

theorem exec_of_hears_out {s : State} {bytes : List Byte} {f : TurnFrame} (h : s.Hears bytes f) :
    exec (.validTurnFrameHeard bytes) s = .next (((s.heardListed f).transferItems f false).heardOut f) := exec_of_hears h

/-! ### The home station's flags -/

/-- The entry as the others see it: PRESENT, and what it advertises. -/
abbrev Peer.SameAdvert (p q : Peer) : Prop := q.present = p.present ∧ q.home = p.home ∧ q.available = p.available

theorem State.charge_advert {s : State} {a : Nat} (hfew : (s.peer a).missed ≤ 1) (b : Nat) :
    (s.peer b).SameAdvert ((s.charge a).peer b) := by
  unfold State.charge
  split
  · exact ⟨rfl, rfl, rfl⟩
  · dsimp only
    rw [if_neg (by omega), State.peer_modPeer]
    split
    · exact ⟨rfl, rfl, rfl⟩
    · exact ⟨rfl, rfl, rfl⟩

/-- Missed turns that lose no station leave what the stations advertise. -/
theorem State.chargeAll_advert {l : List Nat} (hl : ∀ a ∈ l, 1 ≤ a) (hnodup : l.Nodup) {s : State}
    (hfew : ∀ a ∈ l, (s.peer a).missed ≤ 1) (b : Nat) : (s.peer b).SameAdvert ((s.chargeAll l).peer b) := by
  induction l generalizing s with
  | nil => exact ⟨rfl, rfl, rfl⟩
  | cons a r ih =>
    obtain ⟨hnew, hrest⟩ := List.nodup_cons.mp hnodup
    have hone := State.charge_advert (hfew a List.mem_cons_self) b
    have hmore := ih (s := s.charge a) (fun x hx => hl x (List.mem_cons_of_mem a hx)) hrest fun x hx => by
      rw [s.charge_peer_other (ne_of_mem_of_not_mem hx hnew) (hl a List.mem_cons_self) (hl x (List.mem_cons_of_mem a hx))]
      exact hfew x (List.mem_cons_of_mem a hx)
    obtain ⟨hpresent, hhome, havailable⟩ := hone
    obtain ⟨hpresent', hhome', havailable'⟩ := hmore
    exact ⟨hpresent'.trans hpresent, hhome'.trans hhome, havailable'.trans havailable⟩

theorem State.otherHeader_advert {s : State} (hfew : ∀ p ∈ s.peers, p.missed ≤ 1) (f : TurnFrame) (b : Nat) :
    ((s.hearHeader f).peer b).SameAdvert ((s.otherHeader f).peer b) := by
  have hheard (a : Nat) : ((s.hearHeader f).heardOther).peer a = (s.hearHeader f).peer a := State.peer_of_peers (by simp) a
  have hcharged := State.chargeAll_advert (l := s.chargedBy f.sender f.opening) (s := (s.hearHeader f).heardOther)
    (fun _ ha => (State.lt_of_mem_chargedBy ha).2) (s.chargedBy_nodup _ _) (fun a _ => by
      rw [hheard]
      exact State.hearHeader_missed_le hfew f a) b
  rw [hheard] at hcharged
  exact hcharged

/-- The header of a station without the turner leaves whether the turner may be taken (R40). -/
theorem State.otherHeader_turnerOk {s : State} {f : TurnFrame} (hfew : ∀ p ∈ s.peers, p.missed ≤ 1) (hlow : 1 ≤ f.sender)
    (haway : f.home = false) (hpeer : (s.peer f.sender).home = false) : (s.otherHeader f).turnerOk = s.turnerOk := by
  have hother (b : Nat) (hb : b ∈ addresses) (hne : b ≠ f.sender) : (s.peer b).SameAdvert ((s.otherHeader f).peer b) := by
    have hadvert := State.otherHeader_advert hfew f b
    rw [State.hearHeader_peer, State.peer_modPeer_other hne hlow (one_le_of_mem_addresses hb)] at hadvert
    exact hadvert
  have hsender : ((s.otherHeader f).peer f.sender).home = false := by
    obtain ⟨_, hhome, _⟩ := State.otherHeader_advert hfew f f.sender
    rw [hhome, State.hearHeader_peer, State.peer_modPeer]
    split
    · exact haway
    · exact hpeer
  have hfilter : ((s.otherHeader f).present.filter fun a => ((s.otherHeader f).peer a).home) =
      s.present.filter fun a => (s.peer a).home := by
    rw [State.present, State.present, List.filter_filter, List.filter_filter]
    refine List.filter_congr fun b hb => ?_
    by_cases hne : b = f.sender
    · rw [hne, hsender, hpeer]
      simp
    · obtain ⟨hpresent, hhome, _⟩ := hother b hb hne
      rw [hpresent, hhome]
  have hmember (a : Nat) (ha : a ∈ s.present.filter fun a => (s.peer a).home) :
      ((s.otherHeader f).peer a).available = (s.peer a).available := by
    obtain ⟨hpresent, hhome⟩ := List.mem_filter.mp ha
    have hne : a ≠ f.sender := by
      rintro rfl
      simp [hpeer] at hhome
    obtain ⟨_, _, havailable⟩ := hother a (State.mem_present.mp hpresent).1 hne
    exact havailable
  unfold State.turnerOk
  rw [hfilter]
  generalize (s.present.filter fun a => (s.peer a).home) = l at hmember ⊢
  match l with
  | [] => rfl
  | [a] => exact hmember a (by simp)
  | _ :: _ :: _ => rfl

end Sys2Proof.Machine

/-! ## Proofs: the turner at a frame that is heard (R45, R105, R106, R109) -/

namespace Sys2Proof.Machine

/-! ### What a frame's claims report -/

/-- A take of the turner in an empty table holds it, which is reported. -/
theorem applyList_turner_take {cfg : Settings} {i : ClaimItem} (hresource : i.resource = .turner) (hhold : i.hold = true)
    (hamount : i.amount = 1) (sender : Nat) : applyList cfg true sender [i] [] = {
      table := [entryOf sender i .holding false], reports := [.hold (entryOf sender i .holding false)], conflicts := []
      overflow := false } := by
  simp [applyList, removalStep, applyItem, claimAt, entryAt, itemState, isTake, lawful, heldSum, removeClaim, aheadSum,
    allowance, changeOf, ClaimEntry.holds, insertClaim, entryOf, claimRoom, total, hresource, hhold, hamount]

/-- An entry that its station's list does not name any more goes, and a HOLDING one on TURNER is reported. -/
theorem applyList_turner_stop {e : ClaimEntry} (hresource : e.resource = .turner) (hholding : e.state = .holding)
    (cfg : Settings) (ok : Bool) : applyList cfg ok e.station [] [e] = {
      table := [], reports := [.stop e.station e.channel], conflicts := [], overflow := false } := by
  simp [applyList, removalStep, keptBy, namedBy, stopOf, ClaimEntry.holds, hresource, hholding]

/-- A list without conflicts and with room leaves no fault: its table is posted, and one report made. -/
theorem State.applyClaims_of_one {s : State} {sender : Nat} {items : List ClaimItem} {ok : Bool} {table : List ClaimEntry}
    {r : TurnerReport} (happlied : applyList s.cfg ok sender items s.claims =
      { table := table, reports := [r], conflicts := [], overflow := false }) :
    s.applyClaims sender items ok = ({ s with claims := posted s.cfg table } : State).report r := by
  rw [State.applyClaims, happlied]
  rfl

theorem State.report_at_home {s : State} (hhome : s.cfg.homeTurner = true) (e : ClaimEntry) (station channel : Nat) :
    s.report (.hold e) = s.turnerHolds e ∧ s.report (.stop station channel) = s.turnerStops station channel :=
  ⟨if_pos hhome, if_pos hhome⟩

/-! ### The turner's answers -/

section Turner

variable {s : State} {k : Fin 6} (hch : s.turnerCh = some k)
include hch

theorem State.turnerHolds_parked (hparked : s.turner.state = .parked) (e : ClaimEntry) : s.turnerHolds e =
    (s.modTurner fun t => { t with
      state := .powerWait
      order := some { box := ⟨e.station, e.channel⟩, bay := bayOf e.detail, round := s.line.round } }).ask k
        (turnerAsk s.cfg) := by
  simp only [State.turnerHolds, hch, hparked]

theorem State.turnerHolds_faulted (hfaulted : s.turner.state = .faulted) {e : ClaimEntry}
    (hpresent : (s.peer e.station).present = true) : (s.turnerHolds e).turner = { s.turner with
      turnends := placeTurnend ⟨⟨e.station, e.channel⟩, .fault, s.line.round⟩ s.turner.turnends } := by
  have hholds : s.turnerHolds e = (s.turnend ⟨e.station, e.channel⟩ .fault s.line.round).turnDone .fault := by
    simp only [State.turnerHolds, hch, hfaulted, hpresent, if_true]
  rw [hholds]
  rfl

theorem State.turnerHolds_moving (hparked : s.turner.state ≠ .parked) (hfaulted : s.turner.state ≠ .faulted)
    (e : ClaimEntry) : s.turnerHolds e = s := by
  cases hstate : s.turner.state
  case parked => exact absurd hstate hparked
  case faulted => exact absurd hstate hfaulted
  all_goals simp only [State.turnerHolds, hch, hstate]

theorem State.dropTurner_eq : s.dropTurner = s.dropAll k := by
  simp only [State.dropTurner, hch]

/-- The order's own entry that stops holding abandons the turn (R109). -/
theorem State.turnerStops_spec {o : Order} {station channel : Nat} (horder : s.turner.order = some o)
    (hbox : o.box = ⟨station, channel⟩) (hpresent : (s.peer station).present = true) :
    (s.turnerStops station channel).turner = { s.turner with
        state := .parked, order := none, timer := 0
        position := if s.turner.state = .travelling then none
          else if s.turner.state = .turning then some o.bay else s.turner.position
        turnends := placeTurnend ⟨o.box, .abandoned, o.round⟩ s.turner.turnends }
      ∧ (s.turnerStops station channel).NoClaims k := by
  have hpeer : ((s.dropAll k).peer o.box.station).present = true := by
    rw [hbox, State.peer_of_peers (s := s) (by simp)]
    exact hpresent
  have hstops : s.turnerStops station channel = s.abandon o := by
    simp only [State.turnerStops, horder, hbox, if_true]
  have habandon : s.abandon o = (((s.dropAll k).orderEnd o .abandoned).turnDone .abandoned).modTurner fun t =>
      { t with
        state := .parked, order := none, timer := 0,
        position := if t.state = .travelling then none
                    else if t.state = .turning then some o.bay
                    else t.position } := by
    simp only [State.abandon, State.dropTurner_eq hch, hpeer, if_true]
  have hturner : (s.dropAll k).turner = s.turner := by simp
  rw [hstops, habandon]
  refine ⟨?_, (s.dropAll_noClaims k).of_own (by simp)⟩
  rw [State.modTurner_turner]
  simp only [State.turnDone_frame, State.orderEnd, State.turnend, State.modTurner_turner, hturner]

end Turner

/-! ### The frame -/

/-- The state in which the header of a frame that is heard has been taken, before its claims are. -/
def State.heardHeader (s : State) (f : TurnFrame) : State :=
  (s.frameEnd.restartCold.hearRound f s.line.overridden).otherHeader f

theorem State.heardListed_eq (s : State) (f : TurnFrame) : s.heardListed f =
    (s.heardHeader f).applyClaims f.sender f.claims (s.heardHeader f).turnerOk := rfl

theorem State.heardHeader_round (s : State) (f : TurnFrame) : (s.heardHeader f).line.round = f.round := by
  simp [State.heardHeader, State.otherHeader, State.hearRound_round]

section Heard

variable {s : State} {bytes : List Byte} {f : TurnFrame} (h : s.Hears bytes f)
include h

theorem State.heardHeader_sender : ((s.heardHeader f).peer f.sender).present = true := by
  obtain ⟨_, hdecode, _, _, hlength, _⟩ := h
  obtain ⟨hlow, hhigh⟩ := decodeTurn_sender hdecode
  have hpeer : (s.heardHeader f).peer f.sender =
      ((s.frameEnd.restartCold.hearRound f s.line.overridden).hearHeader f).heardOther.peer f.sender :=
    State.chargedBy_peer_sender _ _ hlow f.opening
  rw [hpeer, State.peer_of_peers (s := (s.frameEnd.restartCold.hearRound f s.line.overridden).hearHeader f) (by simp),
    State.hearHeader_sender hlow (by simpa [hlength] using hhigh)]
  rfl

theorem State.heardHeader_turnerOk (haway : f.home = false) (hpeer : (s.peer f.sender).home = false) :
    (s.heardHeader f).turnerOk = s.turnerOk := by
  obtain ⟨_, hdecode, _, hopening, _, hfew⟩ := h
  obtain ⟨hlow, _⟩ := decodeTurn_sender hdecode
  have hended : (s.frameEnd.restartCold.hearRound f s.line.overridden).peers = s.peers := by simp
  have hsame (a : Nat) : (s.frameEnd.restartCold.hearRound f s.line.overridden).peer a = s.peer a :=
    State.peer_of_peers hended a
  rw [State.heardHeader, State.otherHeader_turnerOk (by rw [hended]; exact hfew) hlow haway (by rw [hsame]; exact hpeer)]
  simp only [State.turnerOk, State.present, hsame]

/-- The state after the header, as the turner sees it. -/
theorem State.heardHeader_turner : (s.heardHeader f).cfg = s.cfg ∧ (s.heardHeader f).claims = s.claims
    ∧ (s.heardHeader f).own = s.own ∧ (s.heardHeader f).turner = s.turner
    ∧ (s.heardHeader f).turnerCh = s.turnerCh := by
  obtain ⟨_, _, hcfg, hclaims, hown, hchans, hturner, _⟩ := (State.heardHeader_noted h).fields
  refine ⟨hcfg, hclaims, hown, hturner, ?_⟩
  simp only [State.turnerCh, State.ch]
  rw [← hchans]
  rfl

/-- Where the claims of the frame make one report, Turner Control takes it with the header taken and the table set. -/
theorem State.heardListed_of_one {table : List ClaimEntry} {r : TurnerReport}
    (happlied : applyList s.cfg (s.heardHeader f).turnerOk f.sender f.claims s.claims =
      { table := table, reports := [r], conflicts := [], overflow := false }) :
    ∃ v : State, s.heardListed f = v.report r ∧ v.cfg = s.cfg ∧ v.own = s.own ∧ v.turner = s.turner
      ∧ v.turnerCh = s.turnerCh ∧ v.line.round = f.round ∧ (v.peer f.sender).present = true
      ∧ v.claims = posted s.cfg table := by
  obtain ⟨hcfg, hclaims, hown, hturner, hch⟩ := State.heardHeader_turner h
  have hsender := State.heardHeader_sender h
  refine ⟨{ s.heardHeader f with claims := posted (s.heardHeader f).cfg table }, ?_, hcfg, hown, hturner, hch,
    s.heardHeader_round f, hsender, by rw [hcfg]⟩
  rw [State.heardListed_eq, State.applyClaims_of_one]
  rw [hcfg, hclaims]
  exact happlied

/-- What a frame without transfer items and turn ends leaves of the turner and of the claims. -/
theorem exec_of_hears_claims (hcarries : CarriesJust f [] [] [] []) : ∃ t, exec (.validTurnFrameHeard bytes) s = .next t
    ∧ t.turner = (s.heardListed f).turner ∧ t.claims = (s.heardListed f).claims ∧ t.own = (s.heardListed f).own := by
  obtain ⟨_, _, hown, hturner, hclaims⟩ := (s.heardListed f).heardOut_kept f
  refine ⟨_, exec_of_hears_out h, ?_⟩
  rw [State.transferItems_of_none hcarries]
  exact ⟨hturner, hclaims, hown⟩

end Heard

/-- Settles O43, by the end of a turn, and by the answers of the turner to the one report of the frame. -/
theorem turnsOrderedAndEnded : Obligations.TurnsOrderedAndEnded := by
  refine ⟨fun s bytes f c e hhears hcarries hbox hkind => ?ended,
    fun s bytes f i k n hhears hcarries hitems hhome hch hresource hhold hamount hdetail hnone hok haway hpeer => ?ordered,
    fun s bytes f e k o hhears hcarries hitems hhome hch hclaims hresource hholding hstation horder hobox => ?abandoned⟩
  case ended =>
    have hkept := State.heardListed_reported hhears
    obtain ⟨_, _, hcfg, _⟩ := hkept.rest
    obtain ⟨hself, hclaims⟩ := hkept.vessels c hkind
    have hitems := (State.transferItems_of_turnend hcarries (s.heardListed f) false).trans
      (State.handleTurnend_of_local (State.localCh_own (c := c) (by rw [hbox, hcfg])))
    rw [hself] at hitems
    refine ⟨_, exec_of_hears_out hhears, ?_⟩
    rw [hitems]
    obtain ⟨hout, hclaimsOut, hownOut, _⟩ := (if (s.ch c).takesTurnend e.round = true then (s.heardListed f).turnEnds c
      (if e.outcome = .ok then .turned else .turnMissed) else s.heardListed f).heardOut_kept f
    dsimp only
    rw [← Channel.takesTurnend_iff, State.claimsOn, hownOut, ← State.claimsOn, hout, hclaimsOut]
    refine ⟨fun haccepted hrunning => ?_, fun haccepted hpaused hdue => ?_, fun hrefused => ?_⟩
    · obtain ⟨_, hturn, _⟩ := Channel.takesTurnend_iff.mp haccepted
      rw [if_pos haccepted, ← hself]
      exact State.turnEnds_of_running (by rw [hself]; exact hturn) (by rw [hself]; exact hrunning) _
    · obtain ⟨_, hturn, _⟩ := Channel.takesTurnend_iff.mp haccepted
      rw [if_pos haccepted]
      exact State.turnEnds_of_paused (by rw [hself]; exact hturn) (by rw [hself]; exact hpaused)
        (by rw [hself]; exact hdue) _
    · rw [if_neg hrefused]
      exact ⟨hself, hclaims⟩
  case ordered =>
    obtain ⟨t, hexec, ht, _, htown⟩ := exec_of_hears_claims hhears hcarries
    obtain ⟨v, hlisted, hcfg, hown, hturner, hturnerCh, hround, hsender, _⟩ := State.heardListed_of_one hhears (by
      rw [hitems, hnone, State.heardHeader_turnerOk hhears haway hpeer, hok]
      exact applyList_turner_take hresource hhold hamount f.sender)
    obtain ⟨hreport, _⟩ := State.report_at_home (hcfg ▸ hhome) (entryOf f.sender i .holding false) 0 0
    have hturner' := hturnerCh.trans hch
    have hbay : bayOf (entryOf f.sender i .holding false).detail = n := by
      simp only [entryOf, hdetail, bayOf]
    rw [hlisted, hreport] at ht htown
    refine ⟨t, hexec, fun hparked => ?_, fun hfaulted => ?_, fun hparked hfaulted => ?_⟩
    · rw [State.turnerHolds_parked hturner' (by rw [hturner, hparked]), hbay, hround, hcfg] at ht htown
      refine ⟨?_, fun hfree => ?_⟩
      · simp only [ht, State.ask_frame, State.modTurner_turner, hturner]
        rfl
      · have hasked := State.ask_claimsOf_of_none (s := v.modTurner fun t => { t with
            state := .powerWait, order := some ⟨⟨f.sender, i.channel⟩, n, f.round⟩ }) (c := k)
          (by rw [← hfree, State.claimsOf, State.claimsOf, ← hown]; simp) (turnerAsk s.cfg)
        rw [State.claimsOf, htown, ← State.claimsOf]
        exact hasked
    · rw [ht, State.turnerHolds_faulted hturner' (by rw [hturner, hfaulted]) hsender, hturner, hround]
      rfl
    · rw [ht, State.turnerHolds_moving hturner' (by rw [hturner]; exact hparked) (by rw [hturner]; exact hfaulted), hturner]
  case abandoned =>
    obtain ⟨t, hexec, ht, htclaims, htown⟩ := exec_of_hears_claims hhears hcarries
    obtain ⟨v, hlisted, hcfg, hown, hturner, hturnerCh, hround, hsender, htable⟩ := State.heardListed_of_one hhears (by
      rw [hitems, hclaims, ← hstation]
      exact applyList_turner_stop hresource hholding s.cfg _)
    obtain ⟨_, hreport⟩ := State.report_at_home (hcfg ▸ hhome) e e.station e.channel
    obtain ⟨hstopped, hdropped⟩ := State.turnerStops_spec (hturnerCh.trans hch) (o := o) (by rw [hturner, horder]) hobox
      (by rw [hstation]; exact hsender)
    rw [hlisted, hreport] at ht htclaims htown
    refine ⟨t, hexec, ?_, hdropped.of_own htown, ?_⟩
    · simp only [htclaims, State.turnerStops_frame, htable]
      rfl
    · rw [ht, hstopped, hturner]

end Sys2Proof.Machine

/-! ## Proofs: what only an append, a capture or a take changes (R32, R151, R159)

Phases, transfers, losses and the reports for the turner append nothing to the Gauge Book, put no capture in the pending
list where no channel waits, and make no claim HELD. The rules stand in the order of the model. -/

namespace Sys2Proof.Machine

/-- No claim of the station is HELD. -/
def State.NoneHeld (s : State) : Prop := ∀ o ∈ s.own, o.state ≠ .held

/-- From `z` on nothing was appended, nothing captured where no channel waits, and no claim taken. -/
structure State.Unbooked (z s : State) : Prop where
  log : s.book.entries = z.book.entries ∧ s.book.count = z.book.count ∧ s.book.missed = z.book.missed
    ∧ s.book.numbered = z.book.numbered ∧ s.book.startDue = z.book.startDue
  pend : z.book.waiting = [] → s.book.waiting = [] ∧ s.book.pend.map (·.item) = z.book.pend.map (·.item)
  unheld : z.NoneHeld → s.NoneHeld

theorem insertOwn_mem {o x : OwnClaim} {l : List OwnClaim} (hx : x ∈ insertOwn o l) : x = o ∨ x ∈ l := by
  induction l with
  | nil => exact .inl (List.mem_singleton.mp hx)
  | cons a r ih =>
    unfold insertOwn at hx
    split at hx
    · exact (List.mem_cons.mp hx).imp_right fun h => h
    · split at hx
      · exact (List.mem_cons.mp hx).imp_right (List.mem_cons_of_mem a)
      · rcases List.mem_cons.mp hx with h | h
        · exact .inr (h ▸ List.mem_cons_self)
        · exact (ih h).imp_right (List.mem_cons_of_mem a)

namespace State.Unbooked

variable {z s t : State}

theorem refl (s : State) : s.Unbooked s := ⟨by simp, fun h => ⟨h, rfl⟩, fun h => h⟩

theorem trans {u : State} (hs : z.Unbooked s) (hu : s.Unbooked u) : z.Unbooked u := by
  refine ⟨by simp only [hu.log, hs.log, and_self], fun hwaiting => ?_, fun h => hu.unheld (hs.unheld h)⟩
  obtain ⟨hnone, hpend⟩ := hs.pend hwaiting
  obtain ⟨hnone', hpend'⟩ := hu.pend hnone
  exact ⟨hnone', hpend'.trans hpend⟩

/-! ### One rule for each way to write a list -/

theorem same (h : z.Unbooked s) (hbook : t.book = s.book) (hown : t.own = s.own) : z.Unbooked t := by
  refine ⟨by rw [hbook]; exact h.log, by rw [hbook]; exact h.pend, fun hz o ho => h.unheld hz o (hown ▸ ho)⟩

/-- The claims change, none of them to HELD. -/
theorem withOwn (h : z.Unbooked s) (hbook : t.book = s.book) (hown : s.NoneHeld → t.NoneHeld) : z.Unbooked t := by
  refine ⟨by rw [hbook]; exact h.log, by rw [hbook]; exact h.pend, fun hz => hown (h.unheld hz)⟩

/-- A counter or a serial number of the book changes. -/
theorem countBook (h : z.Unbooked s) (hown : t.own = s.own) (hbook : t.book.entries = s.book.entries
    ∧ t.book.count = s.book.count ∧ t.book.missed = s.book.missed ∧ t.book.numbered = s.book.numbered
    ∧ t.book.startDue = s.book.startDue ∧ t.book.waiting = s.book.waiting ∧ t.book.pend = s.book.pend) : z.Unbooked t := by
  refine ⟨by simp only [hbook, h.log, and_self], fun hz => ?_, fun hz o ho => h.unheld hz o (hown ▸ ho)⟩
  obtain ⟨_, _, _, _, _, hwaiting, hpend⟩ := hbook
  rw [hwaiting, hpend]
  exact h.pend hz

theorem modCh (h : z.Unbooked s) (c : Fin 6) (f : Channel → Channel) : z.Unbooked (s.modCh c f) := h.same rfl rfl

theorem event (h : z.Unbooked s) (kind : EventKind) (channel : Option (Fin 6)) (piece : Option Word16)
    (value : List Nat) : z.Unbooked (s.event kind channel piece value) := h.same rfl rfl

theorem chEvent (h : z.Unbooked s) (c : Fin 6) (kind : EventKind) (value : List Nat) :
    z.Unbooked (s.chEvent c kind value) := h.same rfl rfl

theorem ite {p : Prop} [Decidable p] (ht : z.Unbooked t) (hs : z.Unbooked s) : z.Unbooked (if p then t else s) := by
  split
  · exact ht
  · exact hs

theorem foldl {α : Type} {f : State → α → State} (hf : ∀ s a, z.Unbooked s → z.Unbooked (f s a)) (l : List α)
    (h : z.Unbooked s) : z.Unbooked (l.foldl f s) := by
  induction l generalizing s with
  | nil => exact h
  | cons a r ih => exact ih (hf s a h)

/-! ### Own claims -/

theorem filterOwn (h : z.Unbooked s) (p : OwnClaim → Bool) : z.Unbooked { s with own := s.own.filter p } :=
  h.withOwn rfl fun hs o ho => hs o (List.mem_of_mem_filter ho)

theorem mapOwn (h : z.Unbooked s) {f : OwnClaim → OwnClaim} (hf : ∀ o, o.state ≠ .held → (f o).state ≠ .held) :
    z.Unbooked { s with own := s.own.map f } := by
  refine h.withOwn rfl fun hs o ho => ?_
  obtain ⟨a, ha, rfl⟩ := List.mem_map.mp ho
  exact hf a (hs a ha)

theorem follow (h : z.Unbooked s) (c : Fin 6) : z.Unbooked (s.follow c) := h.same (by simp) (by simp)

theorem ask (h : z.Unbooked s) (c : Fin 6) (a : Ask) : z.Unbooked (s.ask c a) := by
  unfold State.ask
  split
  · refine h.withOwn rfl fun hs o ho => ?_
    rcases insertOwn_mem ho with heq | hmem
    · rw [heq]
      exact fun heq => by cases heq
    · exact hs o hmem
  · exact h.modCh c _

theorem dropClaim (h : z.Unbooked s) (c : Fin 6) (slot : Nat) : z.Unbooked (s.dropClaim c slot) := (h.filterOwn _).follow c

theorem dropOn (h : z.Unbooked s) (c : Fin 6) (r : Resource) : z.Unbooked (s.dropOn c r) :=
  ((h.filterOwn _).modCh c _).follow c

theorem dropAll (h : z.Unbooked s) (c : Fin 6) : z.Unbooked (s.dropAll c) := ((h.filterOwn _).modCh c _).follow c

theorem lowerClaim (h : z.Unbooked s) (c : Fin 6) (slot amount : Nat) : z.Unbooked (s.lowerClaim c slot amount) := by
  unfold State.lowerClaim State.modOwn
  refine State.Unbooked.follow (h.mapOwn fun o ho => ?_) c
  split
  · exact ho
  · exact ho

/-! ### The Gauge Book and the Transfer Unit -/

theorem dropCaptures (h : z.Unbooked s) (c : Fin 6) : z.Unbooked (s.dropCaptures c) := by
  refine ⟨h.log, fun hz => ?_, h.unheld⟩
  obtain ⟨hwaiting, hpend⟩ := h.pend hz
  rw [State.dropCaptures_book, hwaiting, ← hpend, List.map_map]
  refine ⟨rfl, List.map_congr_left fun p _ => ?_⟩
  simp only [Function.comp_apply]
  split <;> rfl

theorem endOffer (h : z.Unbooked s) (c : Fin 6) : z.Unbooked (s.endOffer c) := h.same (by simp) (by simp)

theorem xferHalted (h : z.Unbooked s) (c : Fin 6) : z.Unbooked (s.xferHalted c) := h.same (by simp) (by simp)

theorem serveList_idle (h : z.Unbooked s) (hnone : s.book.waiting = []) : z.Unbooked s.serve := by
  have hserve : s.serve = { s with book := { s.book with waiting := [] } } := by
    rw [State.serve, hnone]
    rfl
  rw [hserve]
  exact h.countBook rfl ⟨rfl, rfl, rfl, rfl, rfl, hnone.symm, rfl⟩

/-! ### Phases -/

theorem halt (h : z.Unbooked s) (c : Fin 6) (r : HaltReason) : z.Unbooked (s.halt c r) :=
  ite (((((h.modCh c _).dropAll c).chEvent c _ _).xferHalted c).dropCaptures c) h

theorem pause (h : z.Unbooked s) (c : Fin 6) (reason : PauseReason) (resume : Option Resume) :
    z.Unbooked (s.pause c reason resume) := (h.modCh c _).chEvent c _ _

theorem starve (h : z.Unbooked s) (c : Fin 6) : z.Unbooked (s.starve c) := (h.modCh c _).chEvent c _ _

theorem lowerBy (h : z.Unbooked s) (c : Fin 6) (e : Nat) (l : List OwnClaim) : z.Unbooked (s.lowerBy c e l) := by
  induction l generalizing s e with
  | nil => exact h
  | cons o r ih =>
    unfold State.lowerBy
    split
    · exact h
    · split
      · exact h.lowerClaim c _ _
      · exact ih (h.dropClaim c o.slot) _

theorem retag (h : z.Unbooked s) (c : Fin 6) (res : Resource) (r : PhaseRecord) : z.Unbooked (s.retag c res r) :=
  h.mapOwn fun o ho => by split <;> exact ho

theorem carry (h : z.Unbooked s) (c : Fin 6) (r : PhaseRecord) (res : Resource) : z.Unbooked (s.carry c r res) := by
  unfold State.carry
  split
  · exact h
  · split
    · exact h.ask c _
    · exact ite ((h.retag c res r).lowerBy c _ _) (ite ((h.retag c res r).ask c _) (h.retag c res r))

theorem carryClaims (h : z.Unbooked s) (c : Fin 6) (r : PhaseRecord) : z.Unbooked (s.carryClaims c r) :=
  ((foldl (fun _ res hs => hs.dropOn c res) _ (h.modCh c _)).carry c r .power).carry c r .water

theorem startOffer (h : z.Unbooked s) (c : Fin 6) (r : PhaseRecord) : z.Unbooked (s.startOffer c r) := h.same rfl rfl

theorem startAsks (h : z.Unbooked s) (c : Fin 6) (r : PhaseRecord) : z.Unbooked (s.startAsks c r) := by
  have hcarried := h.carryClaims c r
  unfold State.startAsks
  dsimp only
  split
  · exact hcarried.ask c _
  · exact hcarried.startOffer c r
  · exact hcarried.startOffer c r
  · exact hcarried

theorem createPiece (h : z.Unbooked s) (c : Fin 6) (lot : Nat) : z.Unbooked (s.createPiece c lot) :=
  h.countBook (by simp) (by simp [State.createPiece, State.countCreated])

theorem begin (h : z.Unbooked s) (c : Fin 6) (afterFinal orphan : Bool) : z.Unbooked (s.begin c afterFinal orphan) := by
  unfold State.begin
  split
  · exact h
  next r _ =>
    split
    · exact h.halt c _
    · have hstarted := h.modCh c fun x => startedChannel x r orphan
      exact ((((ite (hstarted.createPiece c _) hstarted).modCh c _).startAsks c r).modCh c _).follow c

theorem endPiece (h : z.Unbooked s) (c : Fin 6) : z.Unbooked (s.endPiece c) := by
  unfold State.endPiece
  split
  · exact h
  · exact h.countBook (by simp) (by simp [State.countFinished])

theorem afterFinal (h : z.Unbooked s) (c : Fin 6) (k : PhaseKind) : z.Unbooked (s.afterFinal c k) := by
  have hended : z.Unbooked (if k = .strip then (s.dropAll c).endPiece c else s.dropAll c) :=
    ite ((h.dropAll c).endPiece c) (h.dropAll c)
  exact ite (hended.modCh c _) (hended.begin c true false)

theorem complete (h : z.Unbooked s) (c : Fin 6) (reason : EndReason) : z.Unbooked (s.complete c reason) := by
  unfold State.complete
  split
  · exact h
  next r _ =>
    have hmoved := ((h.modCh c fun x => recordedChannel x r reason s.line.round).chEvent c .phaseDone
      [reason.code, 0, 0, 0]).modCh c fun x => movedOn x r
    exact ite (hmoved.afterFinal c _) (ite (hmoved.starve c) (ite (hmoved.pause c _ _) (hmoved.begin c _ _)))

theorem finish (h : z.Unbooked s) (c : Fin 6) (reason : EndReason) : z.Unbooked (s.finish c reason) := by
  unfold State.finish
  split
  · exact h.complete c reason
  · exact ite (h.modCh c _) h
  all_goals exact h

theorem startPhase (h : z.Unbooked s) (c : Fin 6) (orphan : Bool) : z.Unbooked (s.startPhase c orphan) :=
  ite ((h.begin c false orphan).complete c .cast) (h.begin c false orphan)

/-! ### Turner Control and the Claim Table -/

theorem dropTurner (h : z.Unbooked s) : z.Unbooked s.dropTurner := by
  unfold State.dropTurner
  split
  · exact h.dropAll _
  · exact h

theorem turnerHolds (h : z.Unbooked s) (e : ClaimEntry) : z.Unbooked (s.turnerHolds e) := by
  unfold State.turnerHolds
  split
  · exact h
  · split
    · exact State.Unbooked.ask (s := s.modTurner _) (h.same rfl rfl) _ _
    · exact (ite (t := s.turnend ⟨e.station, e.channel⟩ .fault s.line.round) (h.same rfl rfl) h).same rfl rfl
    all_goals exact h

theorem abandon (h : z.Unbooked s) (o : Order) : z.Unbooked (s.abandon o) :=
  (ite (t := s.dropTurner.orderEnd o .abandoned) (h.dropTurner.same rfl rfl) h.dropTurner).same rfl rfl

theorem report (h : z.Unbooked s) (r : TurnerReport) : z.Unbooked (s.report r) := by
  unfold State.report
  split
  · split
    · unfold State.turnerStops
      split
      · exact ite (h.abandon _) h
      · exact h
    · exact h.turnerHolds _
  · exact h

theorem setClaims (h : z.Unbooked s) (t : List ClaimEntry) (l : List TurnerReport) : z.Unbooked (s.setClaims t l) :=
  foldl (s := { s with claims := posted s.cfg t }) (fun _ r hs => hs.report r) l (h.same rfl rfl)

theorem listFaults (h : z.Unbooked s) (sender : Nat) (a : Applied) : z.Unbooked (s.listFaults sender a) := by
  obtain ⟨_, _, _, _, hown, _, _, _, _, hbook, _⟩ := (s.listFaults_noted sender a).fields
  exact h.same hbook hown

theorem applyClaims (h : z.Unbooked s) (sender : Nat) (items : List ClaimItem) (ok : Bool) :
    z.Unbooked (s.applyClaims sender items ok) := (h.listFaults _ _).setClaims _ _

/-! ### Transfer items -/

theorem judgeOffer (h : z.Unbooked s) (sender : Nat) (o : OfferItem) : z.Unbooked (s.judgeOffer sender o) :=
  h.same (by simp) (by simp)

theorem askTransfer (h : z.Unbooked s) (c : Fin 6) : z.Unbooked (s.askTransfer c) := by
  unfold State.askTransfer
  split
  · exact foldl (fun _ a hs => hs.ask c a) _ (h.modCh c _)
  · exact h

theorem handleReply (h : z.Unbooked s) (sender : Nat) (r : ReplyItem) : z.Unbooked (s.handleReply sender r) := by
  have hanswered (c : Fin 6) (f : Xfer → Xfer) : z.Unbooked ((s.modXfer c f).offerWait c false) := h.same rfl rfl
  unfold State.handleReply
  split
  · exact h
  · dsimp only
    split
    · exact h
    · split
      · split
        · exact ite (hanswered _ _) ((hanswered _ _).askTransfer _)
        · exact ite (((hanswered _ _).chEvent _ _ _).modCh _ _) (((hanswered _ _).chEvent _ _ _).pause _ _ _)
      · exact ite (h.same rfl rfl) h

theorem placePiece (h : z.Unbooked s) (c : Fin 6) (content : Piece) (orphan : Bool) :
    z.Unbooked (s.placePiece c content orphan) := h.countBook rfl (by simp [State.placePiece, State.countReceived])

theorem settlePiece (h : z.Unbooked s) (c : Fin 6) : z.Unbooked (s.settlePiece c) := by
  unfold State.settlePiece
  split
  · exact h.starve c
  all_goals exact h

theorem handleCastend (h : z.Unbooked s) (sender : Nat) (x : CastendItem) : z.Unbooked (s.handleCastend sender x) := by
  have harrives (c : Fin 6) (source : Pair) (content : Piece) : z.Unbooked (s.arrive c source content) := by
    have hplaced := (h.placePiece c content false).chEvent c .pieceIn [2, pairByte source, 0, 0]
    exact ite (hplaced.startPhase c false) (hplaced.settlePiece c)
  unfold State.handleCastend
  split
  · exact h
  · dsimp only
    split
    · exact ite (harrives _ _ _) (ite ((h.modCh _ _).chEvent _ _ _) h)
    · exact ite (h.same rfl rfl) (ite (h.chEvent _ _ _) h)

theorem makeOrphan (h : z.Unbooked s) (c : Fin 6) (value : Nat) : z.Unbooked (s.makeOrphan c value) := by
  unfold State.makeOrphan
  split
  · exact h
  next p _ =>
    have hplaced := (h.placePiece c p true).chEvent c .orphan [value, 0, 0, 0]
    exact ite (hplaced.pause c _ _) (hplaced.settlePiece c)

theorem castRead (h : z.Unbooked s) (x : CastendItem) : z.Unbooked (s.castRead x) := by
  unfold State.castRead
  split
  · split
    · have hended (kind : EventKind) (c : Fin 6) (p : Option Word16) (value : List Nat) :
          z.Unbooked ((((s.modCh c fun h => { h with piece := none, leftPiece := p, lastEnd := none }).countHanded.event kind
            (some c) p value).endXfer c).offerWait c false) := h.countBook rfl (by simp [State.countHanded])
      exact ite ((hended _ _ _ _).finish _ _) (hended _ _ _ _)
    · exact h
  · exact h

theorem lossAt (h : z.Unbooked s) (station : Nat) (c : Fin 6) : z.Unbooked (s.lossAt station c) := by
  unfold State.lossAt
  dsimp only
  split
  · split
    · exact h.makeOrphan c 1
    · exact ite (h.modCh c _) (ite (h.same (by simp) (by simp)) ((((h.modCh c _).dropAll c).modCh c _).pause c _ _))
    all_goals exact h
  · exact h

theorem handleTurnend (h : z.Unbooked s) (t : TurnendItem) : z.Unbooked (s.handleTurnend t) := by
  unfold State.handleTurnend
  split
  · exact h
  · exact ite (((h.dropOn _ .turner).modCh _ _).finish _ _) h

theorem discardPiece (h : z.Unbooked s) (c : Fin 6) : z.Unbooked (s.discardPiece c) := by
  cases hpiece : (s.ch c).piece with
  | none =>
    simp only [State.discardPiece, hpiece]
    exact h
  | some p =>
    have hout : z.Unbooked (s.pieceOut c) := h.countBook rfl ⟨rfl, rfl, rfl, rfl, rfl, rfl, rfl⟩
    obtain ⟨hown, hbook, _⟩ := ((s.pieceOut c).dropAll c).offerDropped_frame c
    rw [State.discardPiece_of_piece hpiece]
    exact ((((hout.dropAll c).same hbook hown).dropCaptures c).modCh c _).event _ _ _ _

theorem transferItems (h : z.Unbooked s) (f : TurnFrame) (own : Bool) : z.Unbooked (s.transferItems f own) := by
  have hoffers := foldl (fun _ o hs => hs.judgeOffer f.sender o) f.offers h
  have hreplies := foldl (fun _ r hs => hs.handleReply f.sender r) f.replies hoffers
  have hcastends := foldl (f := fun t x => (if own then t.castRead x else t).handleCastend f.sender x)
    (fun _ x hs => (ite (hs.castRead x) hs).handleCastend f.sender x) f.castends hreplies
  exact foldl (fun _ e hs => hs.handleTurnend e) f.turnends hcastends

/-! ### The Line Controller -/

theorem losePeer (h : z.Unbooked s) (a : Nat) : z.Unbooked (s.losePeer a) := by
  have hpeers : z.Unbooked (s.modPeer a fun _ => lostPeer).followPeers := h.same (by simp) (by simp)
  unfold State.losePeer State.lose State.lossAll State.expireClaims
  exact foldl (fun _ c hs => hs.lossAt a c) channels (hpeers.setClaims _ _)

theorem charge (h : z.Unbooked s) (a : Nat) : z.Unbooked (s.charge a) := by
  have hcounted : z.Unbooked (s.modLine fun l => { l with missedTurns := raise counterTop l.missedTurns }) := h.same rfl rfl
  exact ite h (ite (hcounted.losePeer a) (hcounted.same rfl rfl))

theorem chargeAll (h : z.Unbooked s) (l : List Nat) : z.Unbooked (s.chargeAll l) := foldl (fun _ a hs => hs.charge a) l h

theorem hearHeader (h : z.Unbooked s) (f : TurnFrame) : z.Unbooked (s.hearHeader f) := by
  obtain ⟨_, _, _, _, hown, _, _, _, _, hbook, _⟩ := (s.hearHeader_noted f).fields
  exact h.same hbook hown

theorem captureRead (h : z.Unbooked s) (c : Fin 6) : z.Unbooked (s.captureRead c) := ite h (ite (h.finish c _) h)

end State.Unbooked

end Sys2Proof.Machine

/-! ## Proofs: the Gauge Book at a frame (R152 to R154, R156) -/

namespace Sys2Proof.Machine

/-! ### The log of the book -/

/-- Two books hold the same entries, numbers and missed span. -/
abbrev Book.SameLog (b k : Book) : Prop :=
  k.entries = b.entries ∧ k.count = b.count ∧ k.missed = b.missed ∧ k.numbered = b.numbered

theorem Book.SameLog.of_eq {b k : Book} (h : k = b) : b.SameLog k := by rw [h]; simp [Book.SameLog]

theorem Book.SameLog.trans {b k j : Book} (hk : b.SameLog k) (hj : k.SameLog j) : b.SameLog j := by
  simp only [Book.SameLog, hj, hk, and_self]

theorem Book.SameLog.append {b k : Book} (h : b.SameLog k) (item : EntryItem) (span : Nat) (round : Word16) (station : Nat) :
    (b.append item span round station).SameLog (k.append item span round station) := by
  obtain ⟨hentries, hcount, hmissed, hnumbered⟩ := h
  unfold Book.append
  rw [hentries, hcount, hmissed]
  split
  · exact ⟨rfl, rfl, rfl, hnumbered⟩
  · exact ⟨rfl, rfl, rfl, hnumbered⟩

/-- An unnumbered book takes the count it hears (R152). -/
def Book.number (b : Book) (count : Seq) : Book := if b.numbered then b else { b with count := count, numbered := true }

/-- A count that is ahead by up to 65535 leaves a GAP (R153). -/
def Book.gapTo (b : Book) (count : Seq) (round : Word16) (station : Nat) : Book :=
  if (count - b.count).toNat = 0 then b
  else if (count - b.count).toNat ≤ 65535 then b.append gapItem (count - b.count).toNat round station else b

/-- Entries appended one after the other (R154). -/
def Book.appendAll (b : Book) (l : List EntryItem) (round : Word16) (station : Nat) : Book :=
  l.foldl (fun b e => b.append e 1 round station) b

/-- The book after a frame with a count and entries: `own` is the station's address, `station` that of the entries. -/
def Book.heard (b : Book) (count : Seq) (l : List EntryItem) (round : Word16) (own station : Nat) : Book :=
  ((b.number count).gapTo count round own).appendAll l round station

theorem Book.SameLog.appendAll {b k : Book} (h : b.SameLog k) (l : List EntryItem) (round : Word16) (station : Nat) :
    (b.appendAll l round station).SameLog (k.appendAll l round station) := by
  induction l generalizing b k with
  | nil => exact h
  | cons e r ih => exact ih (h.append e 1 round station)

theorem Book.SameLog.heard {b k : Book} (h : b.SameLog k) (count : Seq) (l : List EntryItem) (round : Word16)
    (own station : Nat) : (b.heard count l round own station).SameLog (k.heard count l round own station) := by
  have hnumber : (b.number count).SameLog (k.number count) := by
    obtain ⟨hentries, hcount, hmissed, hnumbered⟩ := h
    unfold Book.number
    rw [hnumbered]
    split
    · next hyes => exact ⟨hentries, hcount, hmissed, hnumbered⟩
    · exact ⟨hentries, rfl, hmissed, rfl⟩
  have hgap : ((b.number count).gapTo count round own).SameLog ((k.number count).gapTo count round own) := by
    have hcount := hnumber.2.1
    unfold Book.gapTo
    rw [hcount]
    split
    · exact hnumber
    · split
      · exact hnumber.append _ _ _ _
      · exact hnumber
  exact hgap.appendAll l round station

/-! ### Operations and the log -/

theorem State.Unbooked.sameLog {z s : State} (h : z.Unbooked s) : z.book.SameLog s.book := by
  simp only [Book.SameLog, h.log, and_self]

theorem serveList_sameLog (l : List (Fin 6)) (s : State) : s.book.SameLog (serveList l s).book := by
  induction l generalizing s with
  | nil => exact ⟨rfl, rfl, rfl, rfl⟩
  | cons c r ih =>
    unfold serveList
    split
    · exact (Book.SameLog.trans ⟨rfl, rfl, rfl, rfl⟩ (ih ((s.takeCaptures (s.ch c).captures).modCh c fun h =>
        { h with captures := [], wait := { h.wait with gauge := false } })))
    · exact ⟨rfl, rfl, rfl, rfl⟩

theorem State.serve_sameLog (s : State) : s.book.SameLog s.serve.book := serveList_sameLog _ s

theorem foldl_append_book (l : List EntryItem) (s : State) (round : Word16) (station : Nat) :
    (l.foldl (fun t e => t.append e 1 round station) s).book = s.book.appendAll l round station := by
  induction l generalizing s with
  | nil => rfl
  | cons e r ih => exact ih (s.append e 1 round station)

theorem State.numberBook_book (s : State) (count : Seq) : (s.numberBook count).book = s.book.number count := by
  unfold State.numberBook Book.number
  split <;> rfl

theorem State.compareCount_book (s : State) (count : Seq) (some : Bool) (sender : Nat) (round : Word16) :
    (s.compareCount count some sender round).book = s.book.gapTo count round s.cfg.address := by
  unfold State.compareCount Book.gapTo
  dsimp only
  split
  · rfl
  · split
    · rfl
    · split <;> rfl

theorem State.hearEntries_book (s : State) (count : Seq) (l : List EntryItem) (sender : Nat) (round : Word16) :
    (s.hearEntries count l sender round).book = s.book.heard count l round s.cfg.address sender := by
  rw [State.hearEntries, foldl_append_book, State.compareCount_book, State.numberBook_book]
  simp [Book.heard]

/-! ### Own entries -/

/-- An own entry that is not START, when it is appended: the pending list without its first item. -/
def State.entryTaken (s : State) (round : Word16) (e : EntryItem) : State :=
  let s1 := s.append e 1 round s.cfg.address
  { s1 with book := { s1.book with pend := s1.book.pend.drop 1 } }

/-- What an appended entry does at the channel it names (R151, R147), before the channel is told of a capture. -/
def State.entryAt (s : State) (c : Fin 6) (e : EntryItem) (sequence : Seq) : State :=
  let told := (if s.holdsNamed c e then s.modPiece c (entryPiece e) else s).event .gaugeTaken (some c) e.piece
    (0 :: bytes3 sequence.toNat)
  if s.holdsNamed c e && e.kind = .discard then told.discardPiece c else told

/-- The first pending entry is a capture. -/
def Book.headCapture (b : Book) : Bool := (b.pend.head?.map (·.capture)).getD false

theorem State.ownEntry_of_start (s : State) (round : Word16) {e : EntryItem} (hstart : e.kind = .start) :
    s.ownEntry round e = { s.append e 1 round s.cfg.address with
      book := { (s.append e 1 round s.cfg.address).book with startDue := false } } := by
  rw [State.ownEntry]
  dsimp only
  rw [if_pos hstart]

theorem State.ownEntry_of_stray (s : State) (round : Word16) {e : EntryItem} (hstart : e.kind ≠ .start)
    (hnone : e.channel.bind chOf = none) : s.ownEntry round e = s.entryTaken round e := by
  rw [State.ownEntry]
  dsimp only
  rw [if_neg hstart, hnone]
  rfl

theorem State.ownEntry_of_channel (s : State) (round : Word16) {e : EntryItem} {c : Fin 6} (hstart : e.kind ≠ .start)
    (hch : e.channel.bind chOf = some c) : s.ownEntry round e =
      if s.book.headCapture then ((s.entryTaken round e).entryAt c e s.book.count).captureRead c
      else (s.entryTaken round e).entryAt c e s.book.count := by
  have hcapture : s.book.headCapture = match s.book.pend with
      | p :: _ => p.capture
      | [] => false := by
    unfold Book.headCapture
    cases s.book.pend <;> rfl
  rw [State.ownEntry]
  dsimp only
  rw [if_neg hstart, hch, hcapture]
  rfl

theorem State.entryAt_unbooked (s : State) (c : Fin 6) (e : EntryItem) (sequence : Seq) :
    s.Unbooked (s.entryAt c e sequence) := by
  have htold : s.Unbooked ((if s.holdsNamed c e then s.modPiece c (entryPiece e) else s).event .gaugeTaken (some c) e.piece
      (0 :: bytes3 sequence.toNat)) :=
    (State.Unbooked.ite ((State.Unbooked.refl s).modCh c _) (.refl s)).event _ _ _ _
  exact .ite (htold.discardPiece c) htold

theorem State.ownEntry_sameLog (s : State) (round : Word16) (e : EntryItem) :
    (s.book.append e 1 round s.cfg.address).SameLog (s.ownEntry round e).book := by
  by_cases hstart : e.kind = .start
  · rw [s.ownEntry_of_start round hstart]
    exact ⟨rfl, rfl, rfl, rfl⟩
  · have htaken : (s.book.append e 1 round s.cfg.address).SameLog (s.entryTaken round e).book := ⟨rfl, rfl, rfl, rfl⟩
    cases hch : e.channel.bind chOf with
    | none =>
      rw [s.ownEntry_of_stray round hstart hch]
      exact htaken
    | some c =>
      have hat := (s.entryTaken round e).entryAt_unbooked c e s.book.count
      rw [s.ownEntry_of_channel round hstart hch]
      split
      · exact htaken.trans (hat.captureRead c).sameLog
      · exact htaken.trans hat.sameLog

theorem State.foldl_ownEntry_sameLog (l : List EntryItem) (s : State) (round : Word16) :
    (s.book.appendAll l round s.cfg.address).SameLog (l.foldl (fun t e => t.ownEntry round e) s).book := by
  induction l generalizing s with
  | nil => exact ⟨rfl, rfl, rfl, rfl⟩
  | cons e r ih =>
    have hrest := ih (s.ownEntry round e)
    rw [show (s.ownEntry round e).cfg = s.cfg by simp] at hrest
    exact ((s.ownEntry_sameLog round e).appendAll r round s.cfg.address).trans hrest

theorem State.ownEntries_sameLog (s : State) (f : TurnFrame) :
    (s.book.heard f.count f.entries f.round s.cfg.address s.cfg.address).SameLog (s.ownEntries f).book := by
  have hfold := State.foldl_ownEntry_sameLog f.entries
    ((s.numberBook f.count).compareCount f.count (!f.entries.isEmpty) f.sender f.round) f.round
  rw [State.compareCount_book, State.numberBook_book] at hfold
  simpa [Book.heard, State.ownEntries] using hfold

/-! ### A round's opening -/

theorem State.foldl_offerRound_book (l : List (Fin 6)) (s : State) :
    (l.foldl (fun t c => t.offerRound c) s).book = s.book := foldl_book _ _ _ fun t c => by simp

theorem State.countRound_sameLog {z : Book} {s : State} (h : s.book = z) : z.SameLog s.countRound.book := by
  have hserve (t : State) (ht : t.book = z) : z.SameLog t.serve.book := ht ▸ t.serve_sameLog
  unfold State.countRound
  dsimp only
  exact hserve _ ((State.foldl_offerRound_book _ _).trans h)

theorem State.openRound_sameLog {z : Book} {s : State} (h : s.book = z) : z.SameLog s.openRound.book := by
  unfold State.openRound
  dsimp only
  refine State.countRound_sameLog ?_
  simpa using h

theorem State.heardOpening_sameLog (s : State) (f : TurnFrame) : s.book.SameLog (s.heardOpening f).book := by
  have hopens (t : State) (ht : t.book = s.book) : s.book.SameLog t.openRound.book := State.openRound_sameLog ht
  have hmark (t : State) (g : RoundRecord → RoundRecord) (ht : s.book.SameLog t.book) : s.book.SameLog (t.mark g).book := ht
  unfold State.heardOpening
  dsimp only
  split
  · exact hopens _ (by simp)
  · exact hmark _ _ (hopens _ (by simp))

theorem State.hearRound_sameLog (s : State) (f : TurnFrame) (late : Bool) : s.book.SameLog (s.hearRound f late).book := by
  unfold State.hearRound
  split
  · have hopened : s.book.SameLog (s.heardOpening f).openingTime.book := (s.heardOpening_sameLog f).trans (.of_eq (by simp))
    dsimp only
    split
    · exact hopened.trans (.of_eq (by simp))
    · exact hopened
  · exact .of_eq (by dsimp only; split <;> simp)

end Sys2Proof.Machine

/-! ## Proofs: entries, GAPs and the missed span of a frame (R153, R154, R156) -/

namespace Sys2Proof.Machine

/-! ### A book with room -/

theorem Book.appendAll_room {b : Book} {l : List EntryItem} (h : b.entries.length + l.length ≤ 128) (round : Word16)
    (station : Nat) : b.appendAll l round station = { b with
      entries := b.entries ++ entriesFrom b.count round station l
      count := b.count + BitVec.ofNat 24 l.length } := by
  have hfold := State.foldl_append_room l { State.reset with book := b } round station h
  rw [foldl_append_book] at hfold
  exact hfold

/-! ### A full book -/

/-- From `b` to `k` a full book has lost `n` numbers to its missed span. -/
def Book.LostBy (b k : Book) (n : Nat) : Prop :=
  k.entries = b.entries ∧ k.count = b.count + BitVec.ofNat 24 n ∧ (n = 0 → k.missed = b.missed)
    ∧ (1 ≤ n → ∀ m, b.missed = some m → k.missed = some { m with count := min 16777215 (m.count + n) })
    ∧ (1 ≤ n → n ≤ 16777215 → b.missed = none → k.missed = some ⟨b.count, n⟩)

theorem Book.LostBy.refl (b : Book) : b.LostBy b 0 :=
  ⟨rfl, by simp, fun _ => rfl, fun h => absurd h (by omega), fun h => absurd h (by omega)⟩

theorem Book.LostBy.trans {b k j : Book} {n m : Nat} (hk : b.LostBy k n) (hj : k.LostBy j m) : b.LostBy j (n + m) := by
  obtain ⟨hentries, hcount, hsame, hmore, hfirst⟩ := hk
  obtain ⟨hentries', hcount', hsame', hmore', hfirst'⟩ := hj
  refine ⟨hentries'.trans hentries, by rw [hcount', hcount, BitVec.add_assoc, ← BitVec.ofNat_add], fun hzero => ?_,
    fun hsome x hx => ?_, fun hsome hfit hnone => ?_⟩
  · rw [hsame' (by omega), hsame (by omega)]
  · rcases Nat.eq_zero_or_pos m with hm | hm
    · rw [hsame' hm, hm, Nat.add_zero, hmore (by omega) x hx]
    · rcases Nat.eq_zero_or_pos n with hn | hn
      · rw [hmore' hm x (by rw [hsame hn, hx]), hn, Nat.zero_add]
      · rw [hmore' hm _ (hmore hn x hx)]
        simp only [Option.some.injEq, Missed.mk.injEq, true_and]
        omega
  · rcases Nat.eq_zero_or_pos m with hm | hm
    · rw [hsame' hm, hm, Nat.add_zero, hfirst (by omega) (by omega) hnone]
    · rcases Nat.eq_zero_or_pos n with hn | hn
      · rw [hfirst' hm (by omega) (by rw [hsame hn, hnone]), hcount, hn]
        simp
      · rw [hmore' hm _ (hfirst hn (by omega) hnone)]
        simp only [Option.some.injEq, Missed.mk.injEq, true_and]
        omega

theorem Book.append_lost {b : Book} {span : Nat} (hfull : 128 ≤ b.entries.length) (hspan : 1 ≤ span) (item : EntryItem)
    (round : Word16) (station : Nat) : b.LostBy (b.append item span round station) span := by
  rw [Book.append_full hfull]
  refine ⟨rfl, rfl, fun h => absurd h (by omega), fun _ m hm => ?_, fun _ _ hnone => ?_⟩
  · simp only [hm]
  · simp only [hnone]

theorem Book.appendAll_lost {b : Book} (hfull : 128 ≤ b.entries.length) (l : List EntryItem) (round : Word16)
    (station : Nat) : b.LostBy (b.appendAll l round station) l.length := by
  induction l generalizing b with
  | nil => exact .refl b
  | cons e r ih =>
    have hone := Book.append_lost hfull (Nat.le_refl 1) e round station
    have hmore := ih (b := b.append e 1 round station) (by rw [hone.1]; exact hfull)
    rw [List.length_cons, Nat.add_comm]
    exact hone.trans hmore

/-! ### The book at a frame -/

theorem Book.append_numbered (b : Book) (item : EntryItem) (span : Nat) (round : Word16) (station : Nat) :
    (b.append item span round station).numbered = b.numbered := by
  unfold Book.append
  split <;> rfl

theorem Book.appendAll_numbered (b : Book) (l : List EntryItem) (round : Word16) (station : Nat) :
    (b.appendAll l round station).numbered = b.numbered := by
  induction l generalizing b with
  | nil => rfl
  | cons e r ih => exact (ih (b.append e 1 round station)).trans (b.append_numbered e 1 round station)

theorem Book.gapTo_numbered (b : Book) (count : Seq) (round : Word16) (station : Nat) :
    (b.gapTo count round station).numbered = b.numbered := by
  unfold Book.gapTo
  split
  · rfl
  · split
    · exact b.append_numbered _ _ _ _
    · rfl

/-- The book that has taken its number. -/
theorem Book.number_fields (b : Book) (count : Seq) : (b.number count).entries = b.entries
    ∧ (b.number count).count = (if b.numbered = true then b.count else count) ∧ (b.number count).missed = b.missed
    ∧ (b.number count).numbered = true := by
  unfold Book.number
  split
  · next hyes => exact ⟨rfl, rfl, rfl, hyes⟩
  · exact ⟨rfl, rfl, rfl, rfl⟩

/-- A frame's count that is ahead by more than a GAP can say leaves the book, as one that is equal does. -/
theorem Book.gapTo_of_none {b : Book} {count : Seq} (h : (count - b.count).toNat = 0 ∨ 65535 < (count - b.count).toNat)
    (round : Word16) (station : Nat) : b.gapTo count round station = b := by
  unfold Book.gapTo
  split
  · rfl
  · rw [if_neg (by omega)]

theorem Book.gapTo_of_ahead {b : Book} {count : Seq} (hone : 1 ≤ (count - b.count).toNat)
    (hfew : (count - b.count).toNat ≤ 65535) (round : Word16) (station : Nat) :
    b.gapTo count round station = b.append gapItem (count - b.count).toNat round station := by
  unfold Book.gapTo
  rw [if_neg (by omega), if_pos hfew]

theorem Seq.add_distance (count own : Seq) : own + BitVec.ofNat 24 (count - own).toNat = count := by
  rw [BitVec.ofNat_toNat, BitVec.setWidth_eq, BitVec.add_comm, BitVec.sub_add_cancel]

/-- What a frame with a count and `n` entries leaves of the book, by the distance `d` of its count (R152 to R156). -/
theorem Book.heard_spec (b : Book) (count : Seq) (l : List EntryItem) (round : Word16) (address station : Nat) :
    let own := if b.numbered = true then b.count else count
    let d := (count - own).toNat
    let n := l.length
    let gap : Entry := ⟨own, d, gapItem, round, address⟩
    let k := b.heard count l round address station
    k.numbered = true
    ∧ (d = 0 → b.entries.length + n ≤ 128 →
        k.entries = b.entries ++ entriesFrom own round station l ∧ k.count = own + BitVec.ofNat 24 n ∧ k.missed = b.missed)
    ∧ (1 ≤ d → d ≤ 65535 → b.entries.length + 1 + n ≤ 128 →
        k.entries = b.entries ++ gap :: entriesFrom count round station l
          ∧ k.count = count + BitVec.ofNat 24 n ∧ k.missed = b.missed)
    ∧ (65535 < d → b.entries.length + n ≤ 128 →
        k.entries = b.entries ++ entriesFrom own round station l ∧ k.count = own + BitVec.ofNat 24 n)
    ∧ (b.entries.length = 128 →
        k.entries = b.entries
        ∧ k.count = (if d ≤ 65535 then count else own) + BitVec.ofNat 24 n
        ∧ (let lost := (if d ≤ 65535 then d else 0) + n
           (lost = 0 → k.missed = b.missed)
           ∧ (1 ≤ lost → ∀ m, b.missed = some m →
               k.missed = some { m with count := min 16777215 (m.count + lost) })
           ∧ (1 ≤ lost → lost ≤ 16777215 → b.missed = none → k.missed = some ⟨own, lost⟩))) := by
  intro own d n gap k
  obtain ⟨hentries, hcount, hmissed, hnumbered⟩ := b.number_fields count
  have hd : (count - (b.number count).count).toNat = d := by rw [hcount]
  have hk : k = ((b.number count).gapTo count round address).appendAll l round station := rfl
  refine ⟨?_, fun hzero hroom => ?_, fun hone hfew hroom => ?_, fun hfar hroom => ?_, fun hfull => ?_⟩
  · rw [hk, Book.appendAll_numbered, Book.gapTo_numbered, hnumbered]
  · rw [hk, Book.gapTo_of_none (.inl (hd.trans hzero)), Book.appendAll_room (by rw [hentries]; exact hroom)]
    simp only [hentries, hcount, hmissed]
    exact ⟨rfl, rfl, trivial⟩
  · have hroom' : (b.number count).entries.length < 128 := by rw [hentries]; omega
    have hgap : (b.number count).gapTo count round address = { b.number count with
        entries := b.entries ++ [gap], count := count } := by
      rw [Book.gapTo_of_ahead (by rw [hd]; exact hone) (by rw [hd]; exact hfew), Book.append_room hroom',
        Seq.add_distance, hd, hcount, hentries]
    rw [hk, hgap, Book.appendAll_room (by simp; omega)]
    simp only [hmissed, List.append_assoc, List.cons_append, List.nil_append]
    exact ⟨trivial, rfl, trivial⟩
  · rw [hk, Book.gapTo_of_none (.inr (by rw [hd]; exact hfar)), Book.appendAll_room (by rw [hentries]; exact hroom)]
    simp only [hentries, hcount]
    exact ⟨rfl, rfl⟩
  · have hfull' : 128 ≤ (b.number count).entries.length := by rw [hentries, hfull]
    have hgap : (b.number count).LostBy ((b.number count).gapTo count round address) (if d ≤ 65535 then d else 0) := by
      by_cases hnone : (count - (b.number count).count).toNat = 0 ∨ 65535 < (count - (b.number count).count).toNat
      · rw [Book.gapTo_of_none hnone]
        have hzero : (if d ≤ 65535 then d else 0) = 0 := by
          rw [hd] at hnone
          split <;> omega
        rw [hzero]
        exact .refl _
      · rw [Book.gapTo_of_ahead (by omega) (by omega), hd, if_pos (by omega)]
        exact Book.append_lost hfull' (by omega) _ _ _
    have hall := hgap.trans (Book.appendAll_lost (by rw [hgap.1]; exact hfull') l round station)
    rw [← hk] at hall
    obtain ⟨hkentries, hkcount, hsame, hmore, hfirst⟩ := hall
    rw [hmissed] at hsame hmore hfirst
    have hown : (b.number count).count = own := hcount
    rw [hown] at hfirst hkcount
    refine ⟨hkentries.trans hentries, ?_, hsame, hmore, hfirst⟩
    rw [hkcount, BitVec.ofNat_add, ← BitVec.add_assoc]
    by_cases hfew : d ≤ 65535
    · rw [if_pos hfew, if_pos hfew, Seq.add_distance]
    · rw [if_neg hfew, if_neg hfew, BitVec.add_zero]

end Sys2Proof.Machine

/-! ## Proofs: a frame books its entries, and an opening frame judges dissent (R21, R152 to R156) -/

namespace Sys2Proof.Machine

/-! ### The content of a frame -/

/-- The state in which the transfer items of a frame that is heard have been taken, before its entries are. -/
def State.heardItems (s : State) (f : TurnFrame) : State :=
  ((s.otherHeader f).applyClaims f.sender f.claims (s.otherHeader f).turnerOk).transferItems f false

theorem State.hearContent_eq (s : State) (f : TurnFrame) :
    s.hearContent f = (s.heardItems f).hearEntries f.count f.entries f.sender f.round := rfl

theorem State.otherHeader_unbooked (s : State) (f : TurnFrame) : s.Unbooked (s.otherHeader f) :=
  State.Unbooked.chargeAll (((State.Unbooked.refl s).hearHeader f).same (by simp) (by simp)) _

theorem State.heardItems_unbooked (s : State) (f : TurnFrame) : s.Unbooked (s.heardItems f) :=
  ((s.otherHeader_unbooked f).applyClaims _ _ _).transferItems f false

/-- The state in which a TURN frame of another station has brought everything but its entries. -/
def State.heardTurn (s : State) (f : TurnFrame) : State :=
  (s.frameEnd.restartCold.hearRound f s.line.overridden).heardItems f

theorem State.hearTurn_eq {s : State} {f : TurnFrame} (hother : f.sender ≠ s.cfg.address) :
    s.hearTurn f = ((s.heardTurn f).hearEntries f.count f.entries f.sender f.round).takeSender (some f.sender) :=
  State.hearTurn_of_other hother

theorem State.heardTurn_sameLog (s : State) (f : TurnFrame) : s.book.SameLog (s.heardTurn f).book :=
  (s.frameEnd.restartCold.hearRound_sameLog f s.line.overridden).trans (State.heardItems_unbooked _ f).sameLog

theorem State.hearTurn_sameLog {s : State} {f : TurnFrame} (hother : f.sender ≠ s.cfg.address) :
    (s.book.heard f.count f.entries f.round s.cfg.address f.sender).SameLog (s.hearTurn f).book := by
  have hbook := (s.heardTurn_sameLog f).heard f.count f.entries f.round s.cfg.address f.sender
  rw [State.hearTurn_eq hother]
  refine hbook.trans (.of_eq ?_)
  simp only [State.takeSender_frame, State.hearEntries_book]
  congr 1
  simp [State.heardTurn, State.heardItems, State.otherHeader]

/-- The state in which an own TURN frame has been read back but for its entries. -/
def State.readTurn (s : State) (f : TurnFrame) (ok : Bool) : State := (s.ownUpdated f ok).transferItems f true

theorem State.readTurn_sameLog (s : State) (f : TurnFrame) (ok : Bool) : s.book.SameLog (s.readTurn f ok).book := by
  have hended : (s.ownEnded f).book = s.book := by rw [s.ownEnded_line]
  have hheader : (s.ownEnded f).Unbooked ((s.ownEnded f).ownHeader f) :=
    State.Unbooked.chargeAll ((State.Unbooked.refl _).hearHeader f) _
  have hlisted : (s.ownEnded f).Unbooked (s.ownListed f ok) := hheader.applyClaims _ _ _
  have hlog := hlisted.sameLog
  rw [hended] at hlog
  have hupdated : s.book.SameLog (s.ownUpdated f ok).book :=
    hlog.trans (.of_eq (by simp [State.ownUpdated, State.removeCarried]))
  exact hupdated.trans ((State.Unbooked.refl _).transferItems f true).sameLog

theorem State.readTurn_cfg (s : State) (f : TurnFrame) (ok : Bool) : (s.readTurn f ok).cfg = s.cfg := by
  have hcfg : (s.ownEnded f).cfg = s.cfg := by rw [s.ownEnded_line]
  simpa [State.readTurn, State.ownUpdated, State.ownListed, State.ownHeader] using hcfg

theorem State.turnRead_sameLog (s : State) (f : TurnFrame) (ok : Bool) :
    (s.book.heard f.count f.entries f.round s.cfg.address s.cfg.address).SameLog (s.turnRead f ok).book := by
  have hentries := (s.readTurn f ok).ownEntries_sameLog f
  rw [s.readTurn_cfg f ok] at hentries
  rw [State.turnRead_eq]
  refine (((s.readTurn_sameLog f ok).heard _ _ _ _ _).trans hentries).trans ((State.serve_sameLog _).trans (.of_eq ?_))
  simp [State.readTurn]

/-! ### BOOK_FULL (R156) -/

/-- A full book has its flag set. -/
def State.FullMarked (s : State) : Prop := s.book.entries.length = 128 → s.panel.bookFull = true

theorem State.FullMarked.append {s : State} (h : s.FullMarked) (item : EntryItem) (span : Nat) (round : Word16)
    (station : Nat) : (s.append item span round station).FullMarked := by
  intro hfull
  show (s.panel.bookFull || (s.book.entries.length < bookSize
    && (s.book.append item span round station).entries.length == bookSize)) = true
  rcases Nat.lt_or_ge s.book.entries.length 128 with hroom | hno
  · have hfull' : (s.book.append item span round station).entries.length = 128 := hfull
    simp [bookSize, hroom, hfull']
  · rw [h (by rw [← hfull, State.append_book, Book.append_full hno]), Bool.true_or]

theorem State.FullMarked.of_same {s t : State} (h : s.FullMarked) (hentries : t.book.entries = s.book.entries)
    (hflag : t.panel.bookFull = s.panel.bookFull) : t.FullMarked := by
  intro hfull
  rw [hflag]
  exact h (by rw [← hentries]; exact hfull)

theorem State.FullMarked.compareCount {s : State} (h : s.FullMarked) (count : Seq) (some : Bool) (sender : Nat)
    (round : Word16) : (s.compareCount count some sender round).FullMarked := by
  unfold State.compareCount
  dsimp only
  split
  · exact h
  · split
    · exact h.append _ _ _ _
    · split
      · exact h
      · exact h

theorem State.FullMarked.numberBook {s : State} (h : s.FullMarked) (count : Seq) : (s.numberBook count).FullMarked := by
  unfold State.numberBook
  split
  · exact h
  · exact h

theorem State.FullMarked.foldl {α : Type} {g : State → α → State} (hg : ∀ (t : State) a, t.FullMarked → (g t a).FullMarked)
    (l : List α) {s : State} (h : s.FullMarked) : (l.foldl g s).FullMarked := by
  induction l generalizing s with
  | nil => exact h
  | cons a r ih => exact ih (hg s a h)

theorem State.FullMarked.hearEntries {s : State} (h : s.FullMarked) (count : Seq) (l : List EntryItem) (sender : Nat)
    (round : Word16) : (s.hearEntries count l sender round).FullMarked :=
  .foldl (fun _ e ht => ht.append e 1 round sender) l ((h.numberBook count).compareCount _ _ _ _)

theorem State.entryAt_queued (s : State) (c : Fin 6) (e : EntryItem) (sequence : Seq) :
    s.panel.Queued (s.entryAt c e sequence).panel := by
  have hfield : s.panel.Queued (if s.holdsNamed c e then s.modPiece c (entryPiece e) else s).panel :=
    State.ite_queued (t := s.modPiece c (entryPiece e)) (.of_eq rfl) .refl
  have htold := State.event_queued hfield .gaugeTaken (some c) e.piece (0 :: bytes3 sequence.toNat)
  exact State.ite_queued (State.discardPiece_queued htold c) htold

theorem State.FullMarked.ownEntry {s : State} (h : s.FullMarked) (round : Word16) (e : EntryItem) :
    (s.ownEntry round e).FullMarked := by
  have happended := h.append e 1 round s.cfg.address
  by_cases hstart : e.kind = .start
  · rw [s.ownEntry_of_start round hstart]
    exact happended
  · have htaken : (s.entryTaken round e).FullMarked := happended
    cases hch : e.channel.bind chOf with
    | none =>
      rw [s.ownEntry_of_stray round hstart hch]
      exact htaken
    | some c =>
      have hat := (s.entryTaken round e).entryAt_unbooked c e s.book.count
      have hpanel := (s.entryTaken round e).entryAt_queued c e s.book.count
      rw [s.ownEntry_of_channel round hstart hch]
      split
      · exact htaken.of_same (hat.captureRead c).sameLog.1 (State.captureRead_queued hpanel c).bookFull
      · exact htaken.of_same hat.sameLog.1 hpanel.bookFull

theorem State.FullMarked.ownEntries {s : State} (h : s.FullMarked) (f : TurnFrame) : (s.ownEntries f).FullMarked :=
  .foldl (fun _ e ht => ht.ownEntry f.round e) f.entries ((h.numberBook f.count).compareCount _ _ _ _)

end Sys2Proof.Machine

/-! ## Proofs: dissent at an opening frame (R21), and the book at a frame (R152 to R156) -/

namespace Sys2Proof.Machine

/-! ### Faults that stay recorded -/

/-- The FAULT flag is set still. -/
def Panel.Faulted (p : Panel) : Prop := p.fault = true

theorem Panel.Faulted.queued {p q : Panel} (h : p.Faulted) (hq : p.Queued q) : q.Faulted := hq.fault.trans h

theorem State.listFaults_faulted {s : State} (h : s.panel.Faulted) (sender : Nat) (a : Applied) :
    (s.listFaults sender a).panel.Faulted := by
  have hconflicts (l : List Nat) (t : State) (ht : t.panel.Faulted) :
      (l.foldl (fun t c => t.recordFault .claimConflict (some sender) (some c)) t).panel.Faulted := by
    induction l generalizing t with
    | nil => exact ht
    | cons c r ih => exact ih _ rfl
  unfold State.listFaults
  dsimp only
  split
  · rfl
  · exact hconflicts a.conflicts s h

theorem State.hearHeader_faulted {s : State} (h : s.panel.Faulted) (f : TurnFrame) : (s.hearHeader f).panel.Faulted := by
  unfold State.hearHeader
  dsimp only
  split
  · simp [Panel.Faulted, State.recordFault, State.faultAt]
  · simpa [Panel.Faulted] using h

theorem State.charge_queued {p : Panel} {s : State} (h : p.Queued s.panel) (a : Nat) : p.Queued (s.charge a).panel := by
  have hlost : p.Queued ((s.modLine fun l => { l with missedTurns := raise counterTop l.missedTurns }).losePeer a).panel := by
    unfold State.losePeer State.lose
    exact State.lossAll_queued (State.expireClaims_queued (by simpa using h) a) a
  unfold State.charge
  exact State.ite_queued h (State.ite_queued hlost h)

theorem State.chargeAll_queued {p : Panel} {s : State} (h : p.Queued s.panel) (l : List Nat) :
    p.Queued (s.chargeAll l).panel := State.foldl_queued (fun _ a ht => State.charge_queued ht a) l h

theorem State.transferItems_queued {p : Panel} {s : State} (h : p.Queued s.panel) (f : TurnFrame) :
    p.Queued (s.transferItems f false).panel := by
  have hoffers := State.foldl_queued (f := fun t o => t.judgeOffer f.sender o) (fun _ o ht => by simpa using ht) f.offers h
  have hreplies := State.foldl_queued (fun _ r ht => State.handleReply_queued ht f.sender r) f.replies hoffers
  have hcastends := State.foldl_queued (fun _ x ht => State.handleCastend_queued ht f.sender x) f.castends hreplies
  exact State.foldl_queued (fun _ e ht => State.handleTurnend_queued ht e) f.turnends hcastends

theorem State.otherHeader_faulted {s : State} (h : s.panel.Faulted) (f : TurnFrame) : (s.otherHeader f).panel.Faulted := by
  have hheard : ((s.hearHeader f).heardOther).panel.Faulted := by
    simpa using State.hearHeader_faulted h f
  exact hheard.queued (State.chargeAll_queued .refl _)

theorem State.heardItems_faulted {s : State} (h : s.panel.Faulted) (f : TurnFrame) : (s.heardItems f).panel.Faulted :=
  (State.listFaults_faulted (s.otherHeader_faulted h f) f.sender _).queued
    (State.transferItems_queued (State.setClaims_queued .refl _ _) f)

theorem State.hearEntries_faulted {s : State} (h : s.panel.Faulted) (count : Seq) (l : List EntryItem) (sender : Nat)
    (round : Word16) : (s.hearEntries count l sender round).panel.Faulted := by
  have hfold (l : List EntryItem) (t : State) (ht : t.panel.Faulted) :
      (l.foldl (fun t e => t.append e 1 round sender) t).panel.Faulted := by
    induction l generalizing t with
    | nil => exact ht
    | cons e r ih => exact ih (t.append e 1 round sender) ht
  have hnumbered : (s.numberBook count).panel.Faulted := by
    unfold State.numberBook
    split <;> exact h
  refine hfold l _ ?_
  unfold State.compareCount
  dsimp only
  split
  · exact hnumbered
  · split
    · exact hnumbered
    · split
      · rfl
      · exact hnumbered

/-- The record of faults does not change with entries. -/
theorem foldl_append_record (l : List EntryItem) (s : State) (round : Word16) (station : Nat) :
    (l.foldl (fun t e => t.append e 1 round station) s).panel.record = s.panel.record := by
  induction l generalizing s with
  | nil => rfl
  | cons e r ih => exact ih (s.append e 1 round station)

/-- A count too far ahead of the book, in a frame with entries, is a BOOK_SKEW (R153). -/
theorem State.hearEntries_skew {s : State} {count : Seq} {l : List EntryItem}
    (hfar : 65535 < (count - if s.book.numbered = true then s.book.count else count).toNat) (hsome : 1 ≤ l.length)
    (sender : Nat) (round : Word16) :
    (s.hearEntries count l sender round).panel.record.map (fun r => (r.kind, r.station, r.round))
      = some (.bookSkew, some sender, round) := by
  obtain ⟨_, hcount, _⟩ := s.book.number_fields count
  have hown : (count - (s.numberBook count).book.count).toNat
      = (count - if s.book.numbered = true then s.book.count else count).toNat := by
    rw [State.numberBook_book, hcount]
  have hentries : (!l.isEmpty) = true := by
    cases l with
    | nil => exact absurd hsome (by simp)
    | cons e r => rfl
  have hskew : (s.numberBook count).compareCount count (!l.isEmpty) sender round =
      (s.numberBook count).faultAt .bookSkew (some sender) none round := by
    unfold State.compareCount
    dsimp only
    rw [hown, if_neg (by omega), if_neg (by omega), if_pos hentries]
  rw [State.hearEntries, foldl_append_record, hskew]
  rfl

/-- A frame that carries the book's count and no entries changes nothing there. -/
theorem State.hearEntries_of_none {s : State} {count : Seq} (hnumbered : s.book.numbered = true)
    (hcount : count = s.book.count) (sender : Nat) (round : Word16) : s.hearEntries count [] sender round = s := by
  have hnumber : s.numberBook count = s := if_pos hnumbered
  rw [State.hearEntries, hnumber]
  unfold State.compareCount
  simp [hcount]

/-! ### The round that an opening frame opens -/

/-- Dissent is judged by an opener's digest (R21), with the number it carries taken. -/
def State.dissentJudged (s : State) (f : TurnFrame) : State :=
  (s.modLine fun l => { l with round := f.round }).judgeDissent f.sender f.digest

/-- What an opening frame of another station leaves of the claims, the dissent and the faults. -/
theorem State.heardOpening_kept (s : State) (f : TurnFrame) :
    (s.heardOpening f).line.dissenting = (s.dissentJudged f).line.dissenting
      ∧ ((s.dissentJudged f).NoneHeld → (s.heardOpening f).NoneHeld)
      ∧ ((s.dissentJudged f).line.state = .member → (s.dissentJudged f).panel.Queued (s.heardOpening f).panel) := by
  have hown : (s.heardOpening f).own = (s.dissentJudged f).openRound.own := by
    unfold State.heardOpening
    dsimp only
    split <;> simp [State.dissentJudged]
  have hline : (s.heardOpening f).line.dissenting = (s.dissentJudged f).openRound.line.dissenting := by
    unfold State.heardOpening
    dsimp only
    split <;> simp [State.dissentJudged]
  have hpanel : (s.heardOpening f).panel = (s.dissentJudged f).openRound.panel := by
    unfold State.heardOpening
    dsimp only
    split <;> simp [State.dissentJudged]
  refine ⟨hline.trans (by simp [State.openRound]), fun h o ho => ?_, fun hmember => ?_⟩
  · rw [hown, State.openRound_own] at ho
    obtain ⟨x, hx, rfl⟩ := List.mem_map.mp ho
    exact h x hx
  · have hopened (t : State) (ht : t.line.state = .member) : t.panel.Queued t.openRound.panel := by
      have hview : (t.judgeView.modLine fun l =>
          { l with roundPart := .turns, turnTaken := false, newcomers := [], joinBlocked := false }).muteDown =
          t.judgeView.modLine fun l =>
            { l with roundPart := .turns, turnTaken := false, newcomers := [], joinBlocked := false } :=
        if_neg (by simp [State.judgeView, State.modLine, ht])
      unfold State.openRound
      dsimp only
      rw [hview]
      exact State.countRound_queued (.of_eq (by simp [State.judgeView]))
    rw [hpanel]
    exact hopened _ hmember

/-- The station with the number of the round that a frame opens. -/
def State.renumbered (s : State) (f : TurnFrame) : State := s.modLine fun l => { l with round := f.round }

theorem State.dissentJudged_of_other {s : State} {f : TurnFrame}
    (h : s.line.state ≠ .member ∨ f.digest ≠ s.cfg.settingsDigest ∧ s.line.dissenting = true) :
    s.dissentJudged f = s.renumbered f := by
  unfold State.dissentJudged State.judgeDissent
  rcases h with hother | ⟨hdiffers, hdissents⟩
  · exact if_neg hother
  · split
    · exact (if_neg hdiffers).trans (if_pos hdissents)
    · rfl

theorem State.dissentJudged_of_same {s : State} {f : TurnFrame} (hmember : s.line.state = .member)
    (hsame : f.digest = s.cfg.settingsDigest) :
    s.dissentJudged f = (s.renumbered f).modLine fun l => { l with dissenting := false } := by
  unfold State.dissentJudged State.judgeDissent
  exact (if_pos hmember).trans (if_pos hsame)

/-- A MEMBER whose settings differ from the opener's voids its holdings, dissents, and records the fault. -/
theorem State.dissentJudged_of_differs {s : State} {f : TurnFrame} (hmember : s.line.state = .member)
    (hdiffers : f.digest ≠ s.cfg.settingsDigest) (hagreed : s.line.dissenting = false) :
    (s.dissentJudged f).line.dissenting = true ∧ (s.dissentJudged f).NoneHeld ∧ (s.dissentJudged f).panel.Faulted
      ∧ (s.dissentJudged f).panel.record = some {
          kind := .configDissent, station := some f.sender, channel := none, round := f.round
          more := s.panel.record.isSome } := by
  have hjudged : s.dissentJudged f = ((s.renumbered f).voidHoldings.modLine fun l =>
      { l with dissenting := true }).recordFault .configDissent (some f.sender) none := by
    unfold State.dissentJudged State.judgeDissent
    refine ((if_pos hmember).trans (if_neg hdiffers)).trans (if_neg ?_)
    simp [State.modLine, hagreed]
  rw [hjudged]
  refine ⟨rfl, fun o ho => ?_, rfl, ?_⟩
  · have hown : o ∈ (s.renumbered f).own.map voidClaim := by
      rw [← State.voidHoldings_own]
      exact ho
    obtain ⟨x, _, rfl⟩ := List.mem_map.mp hown
    exact voidClaim_not_held x
  · simp [State.recordFault, State.faultAt, State.renumbered, State.modLine]

/-! ### The frame -/

/-- The state in which an opening frame of another station has opened its round. -/
def State.openingHeard (s : State) (f : TurnFrame) : State := s.frameEnd.restartCold.hearRound f false

theorem State.openingHeard_kept {f : TurnFrame} (hopening : f.opening = true) (s : State) :
    (s.openingHeard f).line.dissenting = (s.frameEnd.restartCold.heardOpening f).line.dissenting
      ∧ (s.openingHeard f).own = (s.frameEnd.restartCold.heardOpening f).own
      ∧ (s.line.state = .member → (s.openingHeard f).panel = (s.frameEnd.restartCold.heardOpening f).panel) := by
  have hround : s.openingHeard f = if s.frameEnd.restartCold.line.state = .listening then
      (s.frameEnd.restartCold.heardOpening f).openingTime.countComplete
      else (s.frameEnd.restartCold.heardOpening f).openingTime := by
    rw [State.openingHeard, State.hearRound, hopening]
    rfl
  rw [hround]
  split
  · next hlistening =>
    refine ⟨by simp, by simp, fun hmember => absurd hlistening ?_⟩
    simp [State.frameEnd, State.restartCold, State.modLine, hmember]
  · exact ⟨by simp, by simp, fun _ => by simp⟩

end Sys2Proof.Machine

/-! ## Proofs: the book and the dissent at a frame (R21, R152 to R156) -/

namespace Sys2Proof.Machine

/-! ### The book -/

theorem State.hearTurn_fullMarked {s : State} {f : TurnFrame} (hother : f.sender ≠ s.cfg.address)
    (hroom : s.book.entries.length < 128) : (s.hearTurn f).FullMarked := by
  have hbefore : (s.heardTurn f).FullMarked := fun hfull =>
    absurd ((congrArg List.length (s.heardTurn_sameLog f).1).symm.trans hfull) (by omega)
  rw [State.hearTurn_eq hother]
  exact (hbefore.hearEntries f.count f.entries f.sender f.round).of_same (by simp) (by simp)

theorem State.turnRead_fullMarked {s : State} (f : TurnFrame) (ok : Bool) (hroom : s.book.entries.length < 128) :
    (s.turnRead f ok).FullMarked := by
  have hbefore : (s.readTurn f ok).FullMarked := fun hfull =>
    absurd ((congrArg List.length (s.readTurn_sameLog f ok).1).symm.trans hfull) (by omega)
  have hserved : ((s.readTurn f ok).ownEntries f).serve.FullMarked :=
    (hbefore.ownEntries f).of_same (State.serve_sameLog _).1 (by simp)
  rw [State.turnRead_eq]
  exact hserved.of_same (by simp [State.readTurn]) (by simp [State.readTurn])

/-- A count too far ahead, in a frame of another station with entries, is its BOOK_SKEW (R153). -/
theorem State.hearTurn_skew {s : State} {f : TurnFrame} (hother : f.sender ≠ s.cfg.address)
    (hfar : 65535 < (f.count - if s.book.numbered = true then s.book.count else f.count).toNat) (hsome : 1 ≤ f.entries.length) :
    (s.hearTurn f).panel.record.map (fun r => (r.kind, r.station, r.round)) = some (.bookSkew, some f.sender, f.round) := by
  obtain ⟨_, hcount, _, hnumbered⟩ := s.heardTurn_sameLog f
  rw [← hcount, ← hnumbered] at hfar
  rw [State.hearTurn_eq hother]
  simpa using State.hearEntries_skew hfar hsome f.sender f.round

/-! ### An opening frame -/

section opening
variable {s : State} {f : TurnFrame}

/-- The state in which an opening frame in time has opened its round and brought the rest of its content. -/
theorem State.hearTurn_of_opening (hother : f.sender ≠ s.cfg.address) (hintime : s.line.overridden = false) :
    s.hearTurn f = ((s.openingHeard f).hearContent f).takeSender (some f.sender) := by
  rw [State.hearTurn_of_other hother, hintime]
  rfl

theorem State.hearTurn_dissenting (hother : f.sender ≠ s.cfg.address) (hopening : f.opening = true)
    (hintime : s.line.overridden = false) :
    (s.hearTurn f).line.dissenting = (s.frameEnd.restartCold.dissentJudged f).line.dissenting := by
  obtain ⟨hopened, _, _⟩ := State.openingHeard_kept hopening s
  obtain ⟨hjudged, _, _⟩ := s.frameEnd.restartCold.heardOpening_kept f
  rw [State.hearTurn_of_opening hother hintime]
  refine Eq.trans ?_ (hopened.trans hjudged)
  simp [State.hearContent]

theorem State.hearTurn_unheld (hother : f.sender ≠ s.cfg.address) (hopening : f.opening = true)
    (hintime : s.line.overridden = false) (hunheld : (s.frameEnd.restartCold.dissentJudged f).NoneHeld) :
    (s.hearTurn f).NoneHeld := by
  obtain ⟨_, hopened, _⟩ := State.openingHeard_kept hopening s
  obtain ⟨_, hjudged, _⟩ := s.frameEnd.restartCold.heardOpening_kept f
  have hround : (s.openingHeard f).NoneHeld := fun o ho => hjudged hunheld o (hopened ▸ ho)
  have hitems := ((s.openingHeard f).heardItems_unbooked f).unheld hround
  rw [State.hearTurn_of_opening hother hintime, State.hearContent_eq]
  intro o ho
  exact hitems o (by simpa using ho)

/-- The judgement of dissent leaves the state on the line. -/
theorem State.dissentJudged_state (s : State) (f : TurnFrame) : (s.dissentJudged f).line.state = s.line.state := by
  unfold State.dissentJudged State.judgeDissent
  split
  · split
    · rfl
    · split <;> simp [State.modLine]
  · rfl

theorem State.restarted_line (s : State) : s.frameEnd.restartCold.line.dissenting = s.line.dissenting
    ∧ (s.line.state = .member → s.frameEnd.restartCold.line.state = .member)
    ∧ (s.line.state ≠ .member → s.frameEnd.restartCold.line.state ≠ .member) := by
  simp [State.frameEnd, State.restartCold, State.modLine]

theorem State.openingHeard_queued (hopening : f.opening = true) (hmember : s.line.state = .member) :
    (s.frameEnd.restartCold.dissentJudged f).panel.Queued (s.openingHeard f).panel := by
  obtain ⟨_, _, hpanel⟩ := State.openingHeard_kept hopening s
  obtain ⟨_, _, hqueued⟩ := s.frameEnd.restartCold.heardOpening_kept f
  rw [hpanel hmember]
  refine hqueued ((State.dissentJudged_state _ f).trans ?_)
  obtain ⟨_, hstays, _⟩ := s.restarted_line
  exact hstays hmember

theorem State.hearTurn_faulted (hother : f.sender ≠ s.cfg.address) (hintime : s.line.overridden = false)
    (hround : (s.openingHeard f).panel.Faulted) : (s.hearTurn f).panel.Faulted := by
  have hcontent := State.hearEntries_faulted (State.heardItems_faulted hround f) f.count f.entries f.sender f.round
  rw [State.hearTurn_of_opening hother hintime, State.hearContent_eq]
  simpa using hcontent

/-- An empty standing list records no fault. -/
theorem State.applyClaims_nil_queued {p : Panel} (h : p.Queued s.panel) (sender : Nat) (ok : Bool) :
    p.Queued (s.applyClaims sender [] ok).panel := by
  have hfaults : s.listFaults sender (applyList s.cfg ok sender [] s.claims) = s := rfl
  rw [State.applyClaims, hfaults]
  exact State.setClaims_queued h _ _

/-- A frame that carries nothing records no fault. -/
theorem State.heardItems_queued (s : State) (haway : f.home = false) (hclaims : f.claims = [])
    (hcarries : CarriesJust f [] [] [] []) : s.panel.Queued (s.heardItems f).panel := by
  have hheader : (s.hearHeader f).panel = s.panel := by
    unfold State.hearHeader
    simp [haway]
  have hother : s.panel.Queued (s.otherHeader f).panel :=
    State.chargeAll_queued (.of_eq (by simp [hheader])) _
  rw [State.heardItems, State.transferItems_of_none hcarries, hclaims]
  exact State.applyClaims_nil_queued hother _ _

/-- With nothing to book and nothing carried, an opening frame records no fault but of its digest. -/
theorem State.hearTurn_record (hother : f.sender ≠ s.cfg.address) (hintime : s.line.overridden = false)
    (haway : f.home = false) (hclaims : f.claims = []) (hentries : f.entries = []) (hcount : f.count = s.book.count)
    (hnumbered : s.book.numbered = true) (hcarries : CarriesJust f [] [] [] []) :
    (s.hearTurn f).panel.record = (s.openingHeard f).panel.record := by
  have hlog := s.heardTurn_sameLog f
  rw [State.heardTurn, hintime] at hlog
  obtain ⟨_, hsame, _, hstays⟩ := hlog
  have hnothing : ((s.openingHeard f).heardItems f).hearEntries f.count [] f.sender f.round
      = (s.openingHeard f).heardItems f :=
    State.hearEntries_of_none (hstays.trans hnumbered) (hcount.trans hsame.symm) f.sender f.round
  have hqueued := (s.openingHeard f).heardItems_queued haway hclaims hcarries
  rw [State.hearTurn_of_opening hother hintime, State.hearContent_eq, hentries, hnothing]
  simpa using hqueued.record

end opening

/-! ### The obligation -/

/-- Settles O50, by the rules of the book and by the judgement of the opener's digest. -/
theorem heardFrameBooksAndJudges : Obligations.HeardFrameBooksAndJudges := by
  refine ⟨fun s f i station hframe => ?booked, fun s bytes f hhearing hdecode hother hopening hintime => ?judged⟩
  case booked =>
    rcases hframe with ⟨bytes, rfl, hhearing, hdecode, hother, rfl⟩ | ⟨ok, rfl, hsending, hcount, hnumbered, rfl⟩
    · obtain ⟨hstays, hlevel, hahead, hfar, hfull⟩ :=
        s.book.heard_spec f.count f.entries f.round s.cfg.address f.sender
      obtain ⟨hentries, hcount, hmissed, hnumbered⟩ := State.hearTurn_sameLog hother
      rw [← hentries, ← hcount, ← hmissed] at hlevel hahead hfull
      rw [← hentries, ← hcount] at hfar
      refine ⟨_, exec_validTurnFrameHeard hhearing hdecode, hnumbered.trans hstays, hlevel, hahead, fun hd hroom => ?_, hfull,
        fun hroom => State.hearTurn_fullMarked hother hroom⟩
      obtain ⟨hbooked, hcounted⟩ := hfar hd hroom
      exact ⟨hbooked, hcounted, State.hearTurn_skew hother hd⟩
    · obtain ⟨hstays, hlevel, hahead, _, hfull⟩ :=
        s.book.heard_spec f.count f.entries f.round s.cfg.address s.cfg.address
      obtain ⟨hentries, hcount', hmissed, hnumbered'⟩ := s.turnRead_sameLog f ok
      rw [← hentries, ← hcount', ← hmissed] at hlevel hahead hfull
      refine ⟨_, exec_ownTurnReadBack hsending, hnumbered'.trans hstays, hlevel, hahead, fun hd => absurd hd ?_, hfull,
        fun hroom => State.turnRead_fullMarked f ok hroom⟩
      rw [if_pos hnumbered, hcount]
      simp
  case judged =>
    obtain ⟨hdissenting, hmember, hother'⟩ := s.restarted_line
    refine ⟨_, exec_validTurnFrameHeard hhearing hdecode, fun haway => ?_, fun hin => ?_, fun hin hdiffers hagreed => ?_,
      fun hin hdiffers hagreed haway hclaims hentries hcount hnumbered _ hcarries _ => ?_,
      fun hin hdiffers hdissents haway hclaims hentries hcount hnumbered _ hcarries _ => ?_⟩
    · rw [State.hearTurn_dissenting hother hopening hintime, State.dissentJudged_of_other (.inl (hother' haway))]
      exact hdissenting
    · rw [State.hearTurn_dissenting hother hopening hintime]
      by_cases hsame : f.digest = s.cfg.settingsDigest
      · rw [State.dissentJudged_of_same (hmember hin) hsame]
        simp [hsame, State.modLine]
      · cases hdissents : s.line.dissenting with
        | true =>
          rw [State.dissentJudged_of_other (s := s.frameEnd.restartCold) (.inr ⟨hsame, hdissenting.trans hdissents⟩)]
          exact (hdissenting.trans hdissents).trans (decide_eq_true hsame).symm
        | false =>
          obtain ⟨hjudged, _⟩ := State.dissentJudged_of_differs (hmember hin) hsame (hdissenting.trans hdissents)
          rw [hjudged]
          simp [hsame]
    · obtain ⟨_, hunheld, hfault, _⟩ := State.dissentJudged_of_differs (hmember hin) hdiffers (hdissenting.trans hagreed)
      have hqueued := State.openingHeard_queued (f := f) hopening hin
      exact ⟨State.hearTurn_faulted hother hintime (hfault.queued hqueued), State.hearTurn_unheld hother hopening hintime hunheld⟩
    · obtain ⟨_, _, _, hrecord⟩ := State.dissentJudged_of_differs (hmember hin) hdiffers (hdissenting.trans hagreed)
      have hqueued := State.openingHeard_queued (f := f) hopening hin
      rw [State.hearTurn_record hother hintime haway hclaims hentries hcount hnumbered hcarries, hqueued.record]
      exact hrecord
    · have hjudged := State.dissentJudged_of_other (s := s.frameEnd.restartCold) (.inr ⟨hdiffers, hdissenting.trans hdissents⟩)
      have hqueued := State.openingHeard_queued (f := f) hopening hin
      rw [State.hearTurn_record hother hintime haway hclaims hentries hcount hnumbered hcarries, hqueued.record, hjudged]
      rfl

end Sys2Proof.Machine

/-! ## Proofs: the channels at a read-back, before the items are taken (R4, R32, R99) -/

namespace Sys2Proof.Machine

/-- The claims of a frame read back leave the channel but for what follows from claims, and the step of a TURN. -/
structure Channel.ReadKept (h k : Channel) : Prop where
  fields : k.kind = h.kind ∧ k.state = h.state ∧ k.pause = h.pause ∧ k.current = h.current ∧ k.started = h.started
    ∧ k.next = h.next ∧ k.due = h.due ∧ k.records = h.records ∧ k.piece = h.piece ∧ k.xfer.state = h.xfer.state
    ∧ k.xfer.partner = h.xfer.partner ∧ k.xfer.piece = h.xfer.piece
  step : k.step = h.step ∨ h.inPhase .turn = true ∧ k.step = some .held

namespace Channel.ReadKept

variable {h k j : Channel}

theorem refl (h : Channel) : h.ReadKept h := ⟨by simp, .inl rfl⟩

theorem inPhase (hk : h.ReadKept k) (kind : PhaseKind) : k.inPhase kind = h.inPhase kind := by
  simp only [Channel.inPhase, Channel.phase, hk.fields]

theorem trans (hk : h.ReadKept k) (hj : k.ReadKept j) : h.ReadKept j := by
  refine ⟨by simp only [hj.fields, hk.fields, and_self], ?_⟩
  rcases hj.step with hsame | ⟨hturn, hheld⟩
  · exact hk.step.imp hsame.trans fun ⟨hturn, hheld⟩ => ⟨hturn, hsame.trans hheld⟩
  · exact .inr ⟨(hk.inPhase .turn).symm.trans hturn, hheld⟩

theorem of_run (hkind : k.kind = h.kind) (hrun : h.RunKept k) : h.ReadKept k :=
  ⟨by simp only [hkind, hrun, and_self], .inl (by simp only [hrun])⟩

end Channel.ReadKept

theorem foldl_readKept {α : Type} {f : State → α → State} {d : Fin 6}
    (hf : ∀ (t : State) a, (t.ch d).ReadKept ((f t a).ch d)) (l : List α) (s : State) :
    (s.ch d).ReadKept ((l.foldl f s).ch d) := by
  induction l generalizing s with
  | nil => exact .refl _
  | cons a r ih => exact (hf s a).trans (ih (f s a))

theorem State.follow_readKept (s : State) (c d : Fin 6) : (s.ch d).ReadKept ((s.follow c).ch d) :=
  .of_run (by simp) (s.follow_runKept c d)

/-- The channel of a taken claim on TURNER, in its TURN (R99). -/
def State.turnHeld (s : State) (o : OwnClaim) : State :=
  if o.resource = .turner && (s.ch o.channel).inPhase .turn then
    s.modCh o.channel fun h => { h with step := some .held, turnRound := some s.line.round }
  else s

theorem State.turnHeld_readKept (s : State) (o : OwnClaim) (d : Fin 6) : (s.ch d).ReadKept ((s.turnHeld o).ch d) := by
  unfold State.turnHeld
  split
  · next hturn =>
    obtain ⟨_, hin⟩ := Bool.and_eq_true_iff.mp hturn
    rw [State.ch_modCh]
    split
    · next hd => exact ⟨by simp [hd], .inr ⟨by rw [hd]; exact hin, rfl⟩⟩
    · exact .refl _
  · exact .refl _

theorem State.granted_readKept (s : State) (o : OwnClaim) (d : Fin 6) : (s.ch d).ReadKept ((s.granted o).ch d) := by
  have hgranted : s.granted o = (if ((s.turnHeld o).ch o.channel).kind = .turner then (s.turnHeld o).turnerGranted
      else s.turnHeld o).follow o.channel := rfl
  rw [hgranted]
  refine (s.turnHeld_readKept o d).trans (.trans ?_ (State.follow_readKept _ o.channel d))
  split
  · rw [State.ch_of_chans (s := s.turnHeld o) (t := (s.turnHeld o).turnerGranted) (by simp) d]
    exact .refl _
  · exact .refl _

theorem State.updateOwn_readKept (s : State) (items : List ClaimItem) (d : Fin 6) :
    (s.ch d).ReadKept ((s.updateOwn items).ch d) := by
  have htold (t : State) (taken : List OwnClaim) (ht : t.chans = s.chans) :
      (s.ch d).ReadKept ((channels.foldl (fun t c => t.follow c) (taken.foldl (fun t o => t.granted o) t)).ch d) := by
    rw [← State.ch_of_chans ht d]
    exact (foldl_readKept (fun t o => t.granted_readKept o d) taken t).trans
      (foldl_readKept (fun t c => t.follow_readKept c d) channels _)
  unfold State.updateOwn
  dsimp only
  refine htold _ _ ?_
  exact foldl_chans _ _ _ fun t c => by simp

/-- The frame's claims are read back: what its items find. -/
structure State.ReadKept (s t : State) : Prop where
  chans : ∀ d, (s.ch d).ReadKept (t.ch d)
  rest : t.book = s.book ∧ t.cfg = s.cfg ∧ t.castends = unsent s.castends
  quiet : s.cfg.homeTurner = false → t.panel.events = s.panel.events ∧ t.panel.overflow = s.panel.overflow

theorem State.ownUpdated_readKept {s : State} (hfew : ∀ p ∈ s.peers, p.missed ≤ 1) (f : TurnFrame) (ok : Bool) :
    s.ReadKept (s.ownUpdated f ok) := by
  have hlisted : s.Reported (s.ownListed f ok) :=
    (State.Reported.of_noted (State.ownHeader_ended_noted hfew f)).trans (State.applyClaims_reported _ _ _ _)
  obtain ⟨_, _, hcfg, _, hcastends, hbook⟩ := hlisted.rest
  refine ⟨fun d => ?_, ?_, fun haway => ?_⟩
  · have hch : (s.ownUpdated f ok).ch d = ((s.ownListed f ok).updateOwn f.claims).ch d := by simp [State.ownUpdated]
    rw [hch]
    exact (Channel.ReadKept.of_run (hlisted.kinds d) (hlisted.runs d)).trans
      ((s.ownListed f ok).updateOwn_readKept f.claims d)
  · simp [State.ownUpdated, State.removeCarried, hbook, hcfg, hcastends]
  · obtain ⟨_, _, hevents, hoverflow⟩ := hlisted.quiet haway
    simp [State.ownUpdated, hevents, hoverflow]

end Sys2Proof.Machine

/-! ## Proofs: the piece at a channel through completions, halts and starts (R53, R55, R60, R139) -/

namespace Sys2Proof.Machine

/-! ### The piece stays -/

theorem State.halt_piece (s : State) (c : Fin 6) (r : HaltReason) : ((s.halt c r).ch c).piece = (s.ch c).piece := by
  by_cases hstate : (s.ch c).state.haltable = true
  · have hhalted := State.halt_haltedFrom hstate r
    simp only [hhalted]
  · rw [State.halt, if_neg hstate]

theorem State.halt_lastEnd (s : State) (c : Fin 6) (r : HaltReason) :
    ((s.halt c r).ch c).lastEnd = (s.ch c).lastEnd := by
  by_cases hstate : (s.ch c).state.haltable = true
  · have hhalted := State.halt_haltedFrom hstate r
    simp only [hhalted]
  · rw [State.halt, if_neg hstate]

/-- A piece that the channel holds stays at a start, and at a start check that fails. -/
theorem State.begin_keeps_piece {s : State} {c : Fin 6} {p : Piece} (hpiece : (s.ch c).piece = some p)
    (afterFinal orphan : Bool) : ((s.begin c afterFinal orphan).ch c).piece = some p := by
  cases hcurrent : (s.ch c).current with
  | none => simpa only [State.begin, hcurrent] using hpiece
  | some r =>
    cases hcheck : startCheck (s.ch c) r afterFinal with
    | none =>
      obtain ⟨hkept, _⟩ := State.begin_piece hcurrent hcheck hpiece orphan
      exact hkept
    | some reason =>
      rw [State.begin_of_failed hcurrent hcheck, State.halt_piece]
      exact hpiece

/-- A completion counts the phase in the piece (R55). -/
theorem State.complete_piece {s : State} {c : Fin 6} {r : PhaseRecord} {p : Piece} (hcurrent : (s.ch c).current = some r)
    (hgoesOn : isFinal r.kind = false) (hpiece : (s.ch c).piece = some p) (reason : EndReason) :
    ((s.complete c reason).ch c).piece = some { p with phases := raise 255 p.phases } := by
  have hmoved : ((s.movedOnAt c r reason).ch c).piece = some { p with phases := raise 255 p.phases } := by
    rw [State.movedOnAt_ch_self]
    simp [movedOn, recordedChannel, hpiece]
  rw [State.complete_of_current hcurrent, if_neg (by simp [hgoesOn])]
  split
  · rw [State.starve_ch_self]
    exact hmoved
  · split
    · rw [State.pause_ch_self]
      exact hmoved
    · exact State.begin_keeps_piece hmoved false false

/-! ### The Transfer Unit stays NONE -/

/-- No transfer has been counted or answered. -/
abbrev State.SameTransfers (s t : State) : Prop :=
  t.castends = s.castends ∧ t.book.received = s.book.received ∧ t.book.handed = s.book.handed

/-- From `z` on, the Transfer Unit of the channel is NONE, and no transfer has been counted or answered. -/
structure State.UnitIdle (z s : State) (c : Fin 6) : Prop where
  unit : (s.ch c).xfer = {}
  rest : z.SameTransfers s

namespace State.UnitIdle

variable {z s : State} {c : Fin 6}

theorem start (h : (s.ch c).xfer = {}) : s.UnitIdle s c := ⟨h, rfl, rfl, rfl⟩

theorem same {t : State} (h : z.UnitIdle s c) (hch : (t.ch c).xfer = (s.ch c).xfer)
    (hrest : s.SameTransfers t) : z.UnitIdle t c := by
  refine ⟨hch.trans h.unit, ?_⟩
  simp only [State.SameTransfers, hrest, h.rest, and_self]

theorem modCh (h : z.UnitIdle s c) {f : Channel → Channel} (hf : (f (s.ch c)).xfer = (s.ch c).xfer) :
    z.UnitIdle (s.modCh c f) c := h.same (by rw [State.ch_modCh_self, hf]) ⟨rfl, rfl, rfl⟩

theorem foldl {α : Type} {f : State → α → State} (hf : ∀ (t : State) a, z.UnitIdle t c → z.UnitIdle (f t a) c) (l : List α)
    (h : z.UnitIdle s c) : z.UnitIdle (l.foldl f s) c := by
  induction l generalizing s with
  | nil => exact h
  | cons a r ih => exact ih (hf s a h)

theorem follow (h : z.UnitIdle s c) : z.UnitIdle (s.follow c) c :=
  h.same (State.follow_xfer (by rw [h.unit]; exact fun heq => nomatch heq)) (by simp [State.SameTransfers])

theorem ask (h : z.UnitIdle s c) (a : Ask) : z.UnitIdle (s.ask c a) c := by
  unfold State.ask
  split
  · exact h.same rfl ⟨rfl, rfl, rfl⟩
  · exact h.modCh rfl

theorem withOwn (h : z.UnitIdle s c) (own : List OwnClaim) : z.UnitIdle { s with own := own } c :=
  h.same rfl ⟨rfl, rfl, rfl⟩

theorem dropOn (h : z.UnitIdle s c) (r : Resource) : z.UnitIdle (s.dropOn c r) c := ((h.withOwn _).modCh rfl).follow

theorem dropAll (h : z.UnitIdle s c) : z.UnitIdle (s.dropAll c) c := ((h.withOwn _).modCh rfl).follow

theorem lowerBy (h : z.UnitIdle s c) (e : Nat) (l : List OwnClaim) : z.UnitIdle (s.lowerBy c e l) c := by
  induction l generalizing s e with
  | nil => exact h
  | cons o r ih =>
    unfold State.lowerBy
    split
    · exact h
    · split
      · exact (h.withOwn _).follow
      · exact ih (h.withOwn _).follow _

theorem carry (h : z.UnitIdle s c) (r : PhaseRecord) (res : Resource) : z.UnitIdle (s.carry c r res) c := by
  have hretag : z.UnitIdle (s.retag c res r) c := h.withOwn _
  unfold State.carry
  split
  · exact h
  · split
    · exact h.ask _
    · dsimp only
      split
      · exact hretag.lowerBy _ _
      · split
        · exact hretag.ask _
        · exact hretag

theorem carryClaims (h : z.UnitIdle s c) (r : PhaseRecord) : z.UnitIdle (s.carryClaims c r) c :=
  ((foldl (f := fun t res => t.dropOn c res) (fun _ res ht => ht.dropOn res) (droppedAtStart r)
    (h.modCh (f := fun k => { k with asksDue := [] }) rfl)).carry r .power).carry r .water

theorem startAsks (h : z.UnitIdle s c) {r : PhaseRecord} (hkind : offersPiece r.kind = false) :
    z.UnitIdle (s.startAsks c r) c := by
  have hcarried := h.carryClaims r
  unfold State.startAsks
  dsimp only
  split
  · exact hcarried.ask _
  · next hcast => simp [hcast, offersPiece] at hkind
  · next hloadout => simp [hloadout, offersPiece] at hkind
  · exact hcarried

theorem halt (h : z.UnitIdle s c) (r : HaltReason) : z.UnitIdle (s.halt c r) c := by
  have hquiet (t : State) (ht : z.UnitIdle t c) : t.xferHalted c = t := by
    rw [State.xferHalted, ht.unit]
  by_cases hstate : (s.ch c).state.haltable = true
  · have htold : z.UnitIdle (((s.modCh c fun h => haltedChannel h r).dropAll c).chEvent c .halted
        [r.code, r.detail, 0, 0]) c := (h.modCh (f := fun h => haltedChannel h r) rfl).dropAll.same (by simp)
        (by simp [State.SameTransfers])
    rw [State.halt_of_haltable hstate, hquiet _ htold]
    exact htold.same (by simp) ⟨rfl, rfl, rfl⟩
  · rw [State.halt, if_neg hstate]
    exact h

end State.UnitIdle

theorem startedChannel_xfer (h : Channel) (r : PhaseRecord) (orphan : Bool) : (startedChannel h r orphan).xfer = h.xfer := by
  unfold startedChannel startSetpoint
  split
  · rfl
  · dsimp only
    split <;> rfl

theorem kindStart_xfer (h : Channel) (r : PhaseRecord) : (kindStart h r).xfer = h.xfer := by
  unfold kindStart
  split <;> rfl

namespace State.UnitIdle

variable {z s : State} {c : Fin 6}

theorem startedAt (h : z.UnitIdle s c) (r : PhaseRecord) (orphan : Bool) : z.UnitIdle (s.startedAt c r orphan) c := by
  have hstarted : z.UnitIdle (s.modCh c fun k => startedChannel k r orphan) c := h.modCh (startedChannel_xfer _ r orphan)
  have hcreated (t : State) (lot : Nat) (ht : z.UnitIdle t c) : z.UnitIdle (t.createPiece c lot) c :=
    ht.same (by rw [State.createPiece_ch_self]) ⟨rfl, rfl, rfl⟩
  unfold State.startedAt
  dsimp only
  split
  · exact (hcreated _ _ hstarted).modCh (kindStart_xfer _ r)
  · exact hstarted.modCh (kindStart_xfer _ r)

/-- A start of a phase that offers no piece, and a start check that fails, leave the unit NONE. -/
theorem begin (h : z.UnitIdle s c) {afterFinal : Bool}
    (hkind : ∀ r, (s.ch c).current = some r → startCheck (s.ch c) r afterFinal = none → offersPiece r.kind = false)
    (orphan : Bool) : z.UnitIdle (s.begin c afterFinal orphan) c := by
  cases hcurrent : (s.ch c).current with
  | none => simpa only [State.begin, hcurrent] using h
  | some r =>
    cases hcheck : startCheck (s.ch c) r afterFinal with
    | none =>
      have hasks := (h.startedAt r orphan).startAsks (hkind r hcurrent hcheck)
      rw [State.begin_of_check hcurrent hcheck]
      exact State.UnitIdle.follow (s := ((s.startedAt c r orphan).startAsks c r).startWaits c) (hasks.modCh rfl)
    | some reason =>
      rw [State.begin_of_failed hcurrent hcheck]
      exact h.halt _

theorem movedOnAt (h : z.UnitIdle s c) (r : PhaseRecord) (reason : EndReason) : z.UnitIdle (s.movedOnAt c r reason) c :=
  h.same (by rw [State.movedOnAt_ch_self]; rfl) ⟨rfl, rfl, rfl⟩

/-- The end of a cast or load-out leaves the unit NONE. -/
theorem complete_cast (h : z.UnitIdle s c) {r : PhaseRecord} (hcurrent : (s.ch c).current = some r)
    (hkind : r.kind = .cast ∨ r.kind = .loadout) (reason : EndReason) : z.UnitIdle (s.complete c reason) c := by
  have hfinal : isFinal r.kind = true ∧ r.kind ≠ .strip := by rcases hkind with h | h <;> simp [h, isFinal]
  obtain ⟨hfinal, hstrip⟩ := hfinal
  have hended : z.UnitIdle ((s.movedOnAt c r reason).endedAt c r.kind) c := by
    rw [State.endedAt, if_neg hstrip]
    exact (h.movedOnAt r reason).dropAll
  rw [State.complete_of_current hcurrent, if_pos hfinal]
  cases hnext : ((s.movedOnAt c r reason).ch c).current with
  | none =>
    rw [State.afterFinal_idle hnext]
    exact hended.modCh rfl
  | some n =>
    rw [State.afterFinal_halted hnext]
    exact hended.halt _

end State.UnitIdle

/-! ### A piece that has come to a box or a kiln (R66, R120, R139) -/

theorem kindFits_of_check {h : Channel} {r : PhaseRecord} (hcheck : startCheck h r false = none) :
    kindFits h r.kind = true := by
  by_contra hunfit
  rw [startCheck, if_neg Bool.false_ne_true, if_pos (by simpa using hunfit)] at hcheck
  cases hcheck

/-- With its piece just come, a box starts a COUCH alone. -/
theorem couch_of_fits {h : Channel} {k : PhaseKind} (hkind : h.kind = .box) (hpiece : h.piece.isSome = true)
    (hhere : h.completedHere = false) (hfits : kindFits h k = true) : k = .couch := by
  simpa [kindFits, hkind, hpiece, hhere] using hfits

theorem kindAllowed_of_kiln {h : Channel} {k : PhaseKind} (hkind : h.kind = .kiln) (hfits : kindFits h k = true) :
    kindAllowed .kiln k = true := by
  cases hpiece : h.piece.isSome with
  | false => simp [kindFits, hkind, hpiece] at hfits
  | true =>
    cases hhere : h.completedHere with
    | false =>
      have hload : k = .load := by simpa [kindFits, hkind, hpiece, hhere] using hfits
      rw [hload]
      rfl
    | true =>
      simp only [kindFits, hkind, hpiece, hhere, Bool.and_eq_true] at hfits
      exact hfits.1

/-- A LOAD is a kiln's. -/
theorem kiln_of_load {h : Channel} (hfits : kindFits h .load = true) : h.kind = .kiln := by
  cases hkind : h.kind with
  | kiln => rfl
  | steep => cases hpiece : h.piece.isSome <;> simp [kindFits, hkind, hpiece, kindAllowed] at hfits
  | box => cases hpiece : h.piece.isSome <;> cases hhere : h.completedHere <;>
      simp [kindFits, hkind, hpiece, hhere, kindAllowed] at hfits
  | turner => simp [kindFits, hkind] at hfits
  | unused => simp [kindFits, hkind] at hfits

/-- No phase of a kiln offers its piece. -/
theorem offersPiece_of_kiln {h : Channel} {k : PhaseKind} (hkind : h.kind = .kiln) (hfits : kindFits h k = true) :
    offersPiece k = false := by
  have hallowed := kindAllowed_of_kiln hkind hfits
  cases k with
  | cast => cases hallowed
  | loadout => cases hallowed
  | _ => rfl

/-- The LOAD that ends at a kiln's start leaves its unit NONE. -/
theorem State.UnitIdle.complete_load {z s : State} {c : Fin 6} {r : PhaseRecord} (h : z.UnitIdle s c)
    (hkiln : (s.ch c).kind = .kiln) (hcurrent : (s.ch c).current = some r) (hload : r.kind = .load) (reason : EndReason) :
    z.UnitIdle (s.complete c reason) c := by
  have hmoved := h.movedOnAt r reason
  rw [State.complete_of_current hcurrent, if_neg (by simp [hload, isFinal])]
  split
  · exact hmoved.same (by simp) (by simp [State.SameTransfers])
  · split
    · exact hmoved.same (by simp [pausedChannel]) (by simp [State.SameTransfers])
    · refine hmoved.begin (fun n _ hcheck => offersPiece_of_kiln ?_ (kindFits_of_check hcheck)) false
      rw [State.movedOnAt_ch_self]
      exact hkiln

/-- The start at an arrival leaves the piece in its channel and the unit NONE. -/
theorem State.UnitIdle.startPhase {z s : State} {c : Fin 6} {p : Piece} (h : z.UnitIdle s c)
    (hkind : (s.ch c).kind = .box ∨ (s.ch c).kind = .kiln) (hready : (s.ch c).state = .ready)
    (hpiece : (s.ch c).piece = some p) (hhere : (s.ch c).completedHere = false) :
    z.UnitIdle (s.startPhase c false) c ∧ ((s.startPhase c false).ch c).piece.map (·.id) = some p.id := by
  have hbegun := State.begin_keeps_piece hpiece false false
  cases hcurrent : (s.ch c).current with
  | none =>
    have hnothing : s.startPhase c false = s := by
      simp [State.startPhase, State.begin, hcurrent, hready]
    rw [hnothing, hpiece]
    exact ⟨h, rfl⟩
  | some r =>
    cases hcheck : startCheck (s.ch c) r false with
    | some reason =>
      rw [State.startPhase_of_failed hcurrent hcheck (by rw [hready]; rfl), State.halt_piece, hpiece]
      exact ⟨h.halt _, rfl⟩
    | none =>
      have hfits := kindFits_of_check hcheck
      have hoffers : offersPiece r.kind = false := by
        rcases hkind with hbox | hkiln
        · rw [couch_of_fits hbox (by rw [hpiece]; rfl) hhere hfits]
          rfl
        · exact offersPiece_of_kiln hkiln hfits
      have hunit : z.UnitIdle (s.begin c false false) c := h.begin (fun n hn _ => by
        rw [hcurrent] at hn
        cases hn
        exact hoffers) false
      by_cases hload : r.kind = .load
      · have hkiln : (s.ch c).kind = .kiln := hkind.resolve_left fun hbox => by
          have hcouch := couch_of_fits hbox (by rw [hpiece]; rfl) hhere hfits
          rw [hload] at hcouch
          cases hcouch
        obtain ⟨hrun, _⟩ := State.begin_begunFrom hcurrent hcheck false
        have hcurrent' : ((s.begin c false false).ch c).current = some r := by simp only [hrun, hcurrent]
        rw [State.startPhase_of_load hcurrent hcheck hload,
          State.complete_piece hcurrent' (by rw [hload]; rfl) hbegun]
        exact ⟨hunit.complete_load (by simpa using hkiln) hcurrent' hload _, rfl⟩
      · rw [State.startPhase_of_check hcurrent hcheck hload, hbegun]
        exact ⟨hunit, rfl⟩

/-- A start at an arrival answers no transfer, whatever the kind of the channel. -/
theorem State.UnitIdle.startPhase_rest {z s : State} {c : Fin 6} (h : z.UnitIdle s c) (hready : (s.ch c).state = .ready) :
    z.SameTransfers (s.startPhase c false) := by
  cases hcurrent : (s.ch c).current with
  | none =>
    have hnothing : s.startPhase c false = s := by
      simp [State.startPhase, State.begin, hcurrent, hready]
    rw [hnothing]
    exact h.rest
  | some r =>
    cases hcheck : startCheck (s.ch c) r false with
    | some reason =>
      rw [State.startPhase_of_failed hcurrent hcheck (by rw [hready]; rfl)]
      exact (h.halt _).rest
    | none =>
      by_cases hload : r.kind = .load
      · have hkiln := kiln_of_load (hload ▸ kindFits_of_check hcheck)
        obtain ⟨hrun, _⟩ := State.begin_begunFrom hcurrent hcheck false
        have hcurrent' : ((s.begin c false false).ch c).current = some r := by simp only [hrun, hcurrent]
        have hbegun := h.begin (fun n _ hn => offersPiece_of_kiln hkiln (kindFits_of_check hn)) false
        rw [State.startPhase_of_load hcurrent hcheck hload]
        exact (hbegun.complete_load (by simpa using hkiln) hcurrent' hload _).rest
      · have hasks := (h.startedAt r false).rest
        rw [State.startPhase_of_check hcurrent hcheck hload, State.begin_of_check hcurrent hcheck]
        simpa [State.SameTransfers] using hasks

/-- The state in which a piece has come to its channel, before the channel goes on (R139 steps 1 to 5). -/
def State.pieceCame (s : State) (c : Fin 6) (source : Pair) (content : Piece) : State :=
  (s.placePiece c content false).chEvent c .pieceIn [2, pairByte source, 0, 0]

theorem State.pieceCame_ch_self (s : State) (c : Fin 6) (source : Pair) (content : Piece) :
    (s.pieceCame c source content).ch c = placedChannel (s.ch c) content false := by
  rw [State.pieceCame, State.chEvent_ch, State.placePiece_ch_self]

/-- An arrival at a box or a kiln: the piece stands in the channel, counted once, and the unit is NONE. -/
theorem State.arrive_spec {s : State} {c : Fin 6} (hkind : (s.ch c).kind = .box ∨ (s.ch c).kind = .kiln) (source : Pair)
    (content : Piece) : (s.pieceCame c source content).UnitIdle (s.arrive c source content) c
      ∧ ((s.arrive c source content).ch c).piece.map (·.id) = some content.id := by
  have hch := s.pieceCame_ch_self c source content
  have harrive : s.arrive c source content = if ((s.pieceCame c source content).ch c).state = .ready then
      (s.pieceCame c source content).startPhase c false else (s.pieceCame c source content).settlePiece c := rfl
  have hpiece : ((s.pieceCame c source content).ch c).piece = some (arrivedPiece content (s.ch c).xfer.loadout false) := by
    rw [hch]
    rfl
  have hunit : (s.pieceCame c source content).UnitIdle (s.pieceCame c source content) c := .start (by rw [hch]; rfl)
  rw [harrive]
  split
  · next hready =>
    obtain ⟨hidle, hid⟩ := hunit.startPhase (by rw [hch]; exact hkind) hready hpiece (by rw [hch]; rfl)
    exact ⟨hidle, hid⟩
  · unfold State.settlePiece
    split
    · refine ⟨hunit.same (by simp) (by simp [State.SameTransfers]), ?_⟩
      rw [State.starve_ch_self, hpiece]
      rfl
    all_goals exact ⟨hunit, by rw [hpiece]; rfl⟩

theorem State.arrive_rest (s : State) (c : Fin 6) (source : Pair) (content : Piece) :
    (s.pieceCame c source content).SameTransfers (s.arrive c source content) := by
  have harrive : s.arrive c source content = if ((s.pieceCame c source content).ch c).state = .ready then
      (s.pieceCame c source content).startPhase c false else (s.pieceCame c source content).settlePiece c := rfl
  have hunit : (s.pieceCame c source content).UnitIdle (s.pieceCame c source content) c :=
    .start (by rw [s.pieceCame_ch_self]; rfl)
  rw [harrive]
  split
  · next hready => exact hunit.startPhase_rest hready
  · unfold State.settlePiece
    split <;> simp [State.SameTransfers]

end Sys2Proof.Machine

/-! ## Proofs: the piece that leaves at the read-back of its CASTEND (R138) -/

namespace Sys2Proof.Machine

/-! ### What the end of a read-back leaves of the channels -/

/-- The channel is as it was but for the captures that the Gauge Book has taken of it. -/
def Channel.Served (h k : Channel) : Prop := ∃ l b, k = { h with captures := l, wait := { h.wait with gauge := b } }

theorem Channel.Served.refl (h : Channel) : h.Served h := ⟨h.captures, h.wait.gauge, rfl⟩

theorem Channel.Served.trans {h k j : Channel} (hk : h.Served k) (hj : k.Served j) : h.Served j := by
  obtain ⟨l, b, rfl⟩ := hk
  obtain ⟨l', b', rfl⟩ := hj
  exact ⟨l', b', rfl⟩

theorem serveList_served (l : List (Fin 6)) (s : State) (d : Fin 6) : (s.ch d).Served ((serveList l s).ch d) := by
  induction l generalizing s with
  | nil => exact .refl _
  | cons c r ih =>
    unfold serveList
    split
    · refine Channel.Served.trans ?_ (ih _)
      rw [State.ch_modCh]
      split
      · next hd => exact hd ▸ ⟨_, _, rfl⟩
      · exact .refl _
    · exact .refl _

theorem serveList_counters (l : List (Fin 6)) (s : State) : s.SameTransfers (serveList l s)
    ∧ (serveList l s).book.discarded = s.book.discarded ∧ (serveList l s).book.startDue = s.book.startDue := by
  induction l generalizing s with
  | nil => exact ⟨⟨rfl, rfl, rfl⟩, rfl, rfl⟩
  | cons c r ih =>
    unfold serveList
    split
    · exact ih _
    · exact ⟨⟨rfl, rfl, rfl⟩, rfl, rfl⟩

/-- The book's count is compared: the channels and the lists stay, and no event is queued. -/
theorem State.compared_rest (s : State) (f : TurnFrame) :
    ((s.numberBook f.count).compareCount f.count false f.sender f.round).chans = s.chans
      ∧ s.SameTransfers ((s.numberBook f.count).compareCount f.count false f.sender f.round)
      ∧ ((s.numberBook f.count).compareCount f.count false f.sender f.round).panel.events = s.panel.events := by
  have hbook (b : Book) (item : EntryItem) (span : Nat) (round : Word16) (station : Nat) :
      (b.append item span round station).received = b.received ∧ (b.append item span round station).handed = b.handed := by
    unfold Book.append
    split <;> exact ⟨rfl, rfl⟩
  have hnumber : (s.numberBook f.count).book.received = s.book.received
      ∧ (s.numberBook f.count).book.handed = s.book.handed := by
    unfold State.numberBook
    split <;> exact ⟨rfl, rfl⟩
  have hgap (t : State) (span station : Nat) : (t.append gapItem span f.round station).panel.events = t.panel.events := rfl
  unfold State.compareCount
  dsimp only
  split
  · simp [State.SameTransfers, hnumber]
  · split
    · simp [State.SameTransfers, hnumber, hbook, hgap]
    · simp [State.SameTransfers, hnumber]

/-- The end of a read-back that carries no entry. -/
def State.readEnd (s : State) (f : TurnFrame) : State :=
  (((s.numberBook f.count).compareCount f.count false f.sender f.round).serve).takeSender (some f.sender)

theorem State.readEnd_rest (s : State) (f : TurnFrame) : (∀ d, (s.ch d).Served ((s.readEnd f).ch d))
    ∧ s.SameTransfers (s.readEnd f) ∧ (s.readEnd f).panel.events = s.panel.events
    ∧ (s.readEnd f).line.round = s.line.round := by
  obtain ⟨hchans, hsame, hevents⟩ := s.compared_rest f
  set u := (s.numberBook f.count).compareCount f.count false f.sender f.round with hu
  obtain ⟨hserved, _⟩ := serveList_counters u.book.waiting u
  have hround : u.line.round = s.line.round := by rw [hu]; simp
  have hend : s.readEnd f = u.serve.takeSender (some f.sender) := rfl
  refine ⟨fun d => ?_, ?_, ?_, ?_⟩
  · rw [← State.ch_of_chans hchans d, hend, State.takeSender_ch]
    exact serveList_served _ u d
  · have hserved' : u.SameTransfers u.serve := hserved
    rw [hend]
    simp only [State.SameTransfers, State.takeSender_frame, hserved', hsame, and_self]
  · rw [hend]
    simpa using hevents
  · rw [hend]
    simpa using hround

/-! ### The piece goes out -/

/-- The event of a piece that leaves for `d`. -/
def outEvent (c : Fin 6) (d : Pair) (q : Piece) (round : Word16) : Event :=
  ⟨if q.unconfirmedOut = true then .unconfirmedOut else .pieceOut, some c, some q.id, round,
    [if q.unconfirmedOut = true then 0 else 3, pairByte d, 0, 0]⟩

/-- The state in which the piece is out and its unit is NONE, before the phase is told (R138). -/
def State.handedOut (s : State) (c : Fin 6) (d : Pair) (q : Piece) : State :=
  ((((s.modCh c fun h => { h with piece := none, leftPiece := some q.id, lastEnd := none }).countHanded).event
    (if q.unconfirmedOut = true then .unconfirmedOut else .pieceOut) (some c) (some q.id)
    [if q.unconfirmedOut = true then 0 else 3, pairByte d, 0, 0]).endXfer c).offerWait c false

/-- The channel that its piece has left. -/
def emptied (h : Channel) (id : Word16) : Channel :=
  { h with piece := none, leftPiece := some id, lastEnd := none, xfer := {}, wait := { h.wait with offer := false } }

theorem State.handedOut_ch_self (s : State) (c : Fin 6) (d : Pair) (q : Piece) :
    (s.handedOut c d q).ch c = emptied (s.ch c) q.id := by
  simp [State.handedOut, emptied, State.countHanded]

theorem State.handedOut_rest (s : State) (c : Fin 6) (d : Pair) (q : Piece) :
    (∀ e, e ≠ c → (s.handedOut c d q).ch e = s.ch e) ∧ (s.handedOut c d q).castends = s.castends
      ∧ (s.handedOut c d q).book.received = s.book.received ∧ (s.handedOut c d q).book.handed = raise 65535 s.book.handed
      ∧ (s.handedOut c d q).panel = s.panel.queue s.line.round (outEvent c d q s.line.round) := by
  refine ⟨fun e he => ?_, rfl, rfl, rfl, rfl⟩
  simp [State.handedOut, he]

theorem State.castRead_of_holds {s : State} {c : Fin 6} {q p : Piece} (hpiece : (s.ch c).piece = some q)
    (hid : q.id = p.id) (d : Pair) : s.castRead ⟨c.val, d, .complete p⟩ =
      if (s.ch c).inPhase .cast || (s.ch c).inPhase .loadout then (s.handedOut c d q).finish c .cast
      else s.handedOut c d q := by
  have hholds : (s.ch c).holds q.id = true := by simp [Channel.holds, hpiece]
  have hphase (k : PhaseKind) : ((s.handedOut c d q).ch c).inPhase k = (s.ch c).inPhase k := by
    rw [State.handedOut_ch_self]
    rfl
  have hlead : (if (if q.unconfirmedOut = true then EventKind.unconfirmedOut else .pieceOut) = .pieceOut then 3 else 0)
      = if q.unconfirmedOut = true then 0 else 3 := by
    cases q.unconfirmedOut <;> rfl
  rw [← hphase, ← hphase]
  unfold State.castRead
  simp only [chOf_val, ← hid, hholds, hpiece, if_true, hlead]
  rfl

/-- A cast or load-out that completes without its piece leaves the channel so. -/
theorem State.complete_emptied {s : State} {c : Fin 6} {r : PhaseRecord} (hcurrent : (s.ch c).current = some r)
    (hkind : r.kind = .cast ∨ r.kind = .loadout) (hpiece : (s.ch c).piece = none) (reason : EndReason) :
    ((s.complete c reason).ch c).piece = none ∧ ((s.complete c reason).ch c).lastEnd = none := by
  obtain ⟨hfinal, hstrip, htarget⟩ : isFinal r.kind = true ∧ r.kind ≠ .strip ∧ usesTarget r.kind = false := by
    rcases hkind with h | h <;> simp [h, isFinal, usesTarget]
  have hmoved : ((s.movedOnAt c r reason).ch c).piece = none ∧ ((s.movedOnAt c r reason).ch c).lastEnd = none := by
    rw [State.movedOnAt_ch_self]
    simp [movedOn, recordedChannel, hpiece, htarget]
  have hdropped := (s.movedOnAt c r reason).dropAll_runKept c c
  have hended : (((s.movedOnAt c r reason).endedAt c r.kind).ch c).piece = none
      ∧ (((s.movedOnAt c r reason).endedAt c r.kind).ch c).lastEnd = none := by
    rw [State.endedAt, if_neg hstrip]
    simpa only [hdropped] using hmoved
  rw [State.complete_of_current hcurrent, if_pos hfinal]
  cases hnext : ((s.movedOnAt c r reason).ch c).current with
  | none =>
    rw [State.afterFinal_idle hnext, State.ch_modCh_self]
    exact hended
  | some n =>
    rw [State.afterFinal_halted hnext, State.halt_piece, State.halt_lastEnd]
    exact hended

/-- The record in CURRENT of a cast or load-out in progress. -/
theorem Channel.current_of_cast {h : Channel} (hcast : h.inPhase .cast = true ∨ h.inPhase .loadout = true) :
    h.started = true ∧ ∃ r, h.current = some r ∧ (r.kind = .cast ∨ r.kind = .loadout) := by
  rcases hcast with hin | hin
  · obtain ⟨hstarted, r, hcurrent, hkind⟩ := Channel.inPhase_iff.mp hin
    exact ⟨hstarted, r, hcurrent, .inl hkind⟩
  · obtain ⟨hstarted, r, hcurrent, hkind⟩ := Channel.inPhase_iff.mp hin
    exact ⟨hstarted, r, hcurrent, .inr hkind⟩

theorem State.finish_of_still {s : State} {c : Fin 6} (hrun : (s.ch c).state ≠ .running) (hpaused : (s.ch c).state ≠ .paused)
    (reason : EndReason) : s.finish c reason = s := by
  unfold State.finish
  split
  · next h => exact absurd h hrun
  · next h => exact absurd h hpaused
  all_goals rfl

/-- A phase that is told of its piece's leaving leaves the channel without it. -/
theorem State.finish_emptied {s : State} {c : Fin 6} (hpiece : (s.ch c).piece = none) (hend : (s.ch c).lastEnd = none)
    (hunit : (s.ch c).xfer = {}) (hcast : (s.ch c).inPhase .cast = true ∨ (s.ch c).inPhase .loadout = true) :
    ((s.finish c .cast).ch c).piece = none ∧ ((s.finish c .cast).ch c).lastEnd = none
      ∧ s.UnitIdle (s.finish c .cast) c := by
  have hidle : s.UnitIdle s c := .start hunit
  obtain ⟨hstarted, r, hcurrent, hkind⟩ := Channel.current_of_cast hcast
  by_cases hrun : (s.ch c).state = .running
  · obtain ⟨hout, hended⟩ := State.complete_emptied hcurrent hkind hpiece .cast
    rw [State.finish_of_running hrun]
    exact ⟨hout, hended, hidle.complete_cast hcurrent hkind .cast⟩
  · by_cases hpaused : (s.ch c).state = .paused
    · cases hdue : (s.ch c).due with
      | none =>
        rw [State.finish_of_paused hpaused hstarted hdue, State.ch_modCh_self]
        exact ⟨hpiece, hend, hidle.modCh rfl⟩
      | some reason =>
        have hsame : s.finish c .cast = s := by simp [State.finish, hpaused, hdue]
        rw [hsame]
        exact ⟨hpiece, hend, hidle⟩
    · rw [State.finish_of_still hrun hpaused]
      exact ⟨hpiece, hend, hidle⟩

theorem State.castRead_emptied {s : State} {c : Fin 6} {q p : Piece} (hpiece : (s.ch c).piece = some q)
    (hid : q.id = p.id) (d : Pair) :
    ((s.castRead ⟨c.val, d, .complete p⟩).ch c).piece = none ∧ ((s.castRead ⟨c.val, d, .complete p⟩).ch c).lastEnd = none
      ∧ (s.handedOut c d q).UnitIdle (s.castRead ⟨c.val, d, .complete p⟩) c := by
  have hch := s.handedOut_ch_self c d q
  have hout : ((s.handedOut c d q).ch c).piece = none ∧ ((s.handedOut c d q).ch c).lastEnd = none
      ∧ ((s.handedOut c d q).ch c).xfer = {} := by
    rw [hch]
    exact ⟨rfl, rfl, rfl⟩
  obtain ⟨hnone, hend, hunit⟩ := hout
  rw [State.castRead_of_holds hpiece hid]
  split
  · next hcast =>
    refine State.finish_emptied hnone hend hunit ?_
    rw [hch]
    exact (Bool.or_eq_true _ _).mp hcast
  · exact ⟨hnone, hend, .start hunit⟩

/-! ### The destination -/

/-- A channel without a piece whose unit is NONE is no destination of a CASTEND. -/
theorem State.handleCastend_of_emptied {s : State} {c : Fin 6} (hpiece : (s.ch c).piece = none) (hunit : (s.ch c).xfer = {})
    (sender : Nat) (x : CastendItem) : (s.handleCastend sender x).ch c = s.ch c := by
  have hawaits (source : Pair) (id : Word16) : (s.ch c).awaits source id = false := by
    rw [Channel.awaits, hunit]
    rfl
  have horphan (id : Word16) : (s.ch c).orphanOf id = false := by
    rw [Channel.orphanOf, hpiece]
  unfold State.handleCastend
  split
  · rfl
  · next e _ =>
    by_cases he : c = e
    · subst he
      dsimp only
      split <;> simp [hawaits, horphan]
    · dsimp only
      split
      · split
        · simp [he]
        · split <;> simp [State.modPiece, he]
      · split
        · simp [he]
        · split <;> simp

/-- A CASTEND COMPLETE answers no transfer and hands nothing out at its destination. -/
theorem State.handleCastend_complete_rest (s : State) (sender source : Nat) (d : Pair) (p : Piece) :
    (s.handleCastend sender ⟨source, d, .complete p⟩).castends = s.castends
      ∧ (s.handleCastend sender ⟨source, d, .complete p⟩).book.handed = s.book.handed := by
  unfold State.handleCastend
  split
  · exact ⟨rfl, rfl⟩
  · next e _ =>
    dsimp only
    split
    · obtain ⟨hcastends, _, hhanded⟩ := s.arrive_rest e ⟨sender, source⟩ p
      exact ⟨hcastends, hhanded⟩
    · split
      · exact ⟨rfl, rfl⟩
      · exact ⟨rfl, rfl⟩

theorem State.handleCastend_of_awaits {s : State} {e : Fin 6} {sender source : Nat} {p : Piece} {d : Pair}
    (hd : d = ⟨s.cfg.address, e.val⟩) (hawaits : (s.ch e).awaits ⟨sender, source⟩ p.id = true) :
    s.handleCastend sender ⟨source, d, .complete p⟩ = s.arrive e ⟨sender, source⟩ p := by
  have hlocal : s.localCh d = some e := by simp [State.localCh, hd]
  unfold State.handleCastend
  dsimp only
  rw [hlocal]
  exact if_pos hawaits

end Sys2Proof.Machine

/-! ## Proofs: the read-back of a CASTEND COMPLETE (R138, R139) -/

namespace Sys2Proof.Machine

/-! ### The phase at the source -/

section source
variable {s : State} {c : Fin 6} {q p : Piece}

theorem State.castRead_running (hpiece : (s.ch c).piece = some q) (hid : q.id = p.id) (d : Pair) {r : PhaseRecord}
    (hcurrent : (s.ch c).current = some r) (hcast : (s.ch c).inPhase .cast = true ∨ (s.ch c).inPhase .loadout = true)
    (hrun : (s.ch c).state = .running) :
    (∃ rec, ((s.castRead ⟨c.val, d, .complete p⟩).ch c).records.head? = some rec ∧ rec.kind = r.kind ∧ rec.reason = .cast
        ∧ rec.piece = some p.id)
      ∧ ((s.ch c).next = none → ((s.castRead ⟨c.val, d, .complete p⟩).ch c).state = .idle)
      ∧ ((s.ch c).next.isSome = true → ((s.castRead ⟨c.val, d, .complete p⟩).ch c).state = .halted
        ∧ ((s.castRead ⟨c.val, d, .complete p⟩).ch c).halt = some (.inconsistent .afterFinal)) := by
  obtain ⟨_, r', hcurrent', hkind⟩ := Channel.current_of_cast hcast
  have hsame : r' = r := Option.some.inj (hcurrent'.symm.trans hcurrent)
  rw [hsame] at hkind
  have hfinal : isFinal r.kind = true := by rcases hkind with h | h <;> simp [h, isFinal]
  have hch := s.handedOut_ch_self c d q
  have hcurrent'' : ((s.handedOut c d q).ch c).current = some r := by rw [hch]; exact hcurrent
  have hrun' : ((s.handedOut c d q).ch c).state = .running := by rw [hch]; exact hrun
  have hhaltable : ((s.handedOut c d q).ch c).state.haltable = true := by rw [hrun']; rfl
  have hread : s.castRead ⟨c.val, d, .complete p⟩ = (s.handedOut c d q).complete c .cast := by
    rw [State.castRead_of_holds hpiece hid, if_pos ((Bool.or_eq_true _ _).mpr hcast), State.finish_of_running hrun']
  obtain ⟨_, hidle, hhalted, _⟩ := State.complete_final hcurrent'' hhaltable hfinal .cast
  rw [hch] at hidle hhalted
  rw [hread]
  refine ⟨⟨_, State.complete_head hcurrent'' hhaltable .cast, rfl, rfl, ?_⟩, hidle, fun hsome => hhalted fun hnone => ?_⟩
  · rw [hch, ← hid]
    rfl
  · have hnone' : (s.ch c).next = none := hnone
    rw [hnone'] at hsome
    cases hsome

theorem State.castRead_paused (hpiece : (s.ch c).piece = some q) (hid : q.id = p.id) (d : Pair)
    (hcast : (s.ch c).inPhase .cast = true ∨ (s.ch c).inPhase .loadout = true) (hpaused : (s.ch c).state = .paused)
    (hdue : (s.ch c).due = none) :
    ((s.castRead ⟨c.val, d, .complete p⟩).ch c).due = some .cast
      ∧ ((s.castRead ⟨c.val, d, .complete p⟩).ch c).state = .paused
      ∧ ((s.castRead ⟨c.val, d, .complete p⟩).ch c).records = (s.ch c).records := by
  obtain ⟨hstarted, _⟩ := Channel.current_of_cast hcast
  have hch := s.handedOut_ch_self c d q
  rw [State.castRead_of_holds hpiece hid, if_pos ((Bool.or_eq_true _ _).mpr hcast),
    State.finish_of_paused (by rw [hch]; exact hpaused) (by rw [hch]; exact hstarted) (by rw [hch]; exact hdue),
    State.ch_modCh_self, hch]
  exact ⟨rfl, hpaused, rfl⟩

/-- A channel that is HALTED, or PAUSED without a started phase, keeps its state. -/
theorem State.castRead_still (hpiece : (s.ch c).piece = some q) (hid : q.id = p.id) (d : Pair)
    (hstill : (s.ch c).state = .halted ∨ (s.ch c).started = false) :
    (s.castRead ⟨c.val, d, .complete p⟩).ch c = emptied (s.ch c) q.id := by
  have hch := s.handedOut_ch_self c d q
  rw [State.castRead_of_holds hpiece hid]
  split
  · next hcast =>
    obtain ⟨hstarted, _⟩ := Channel.current_of_cast ((Bool.or_eq_true _ _).mp hcast)
    have hhalted : (s.ch c).state = .halted := hstill.resolve_right (by simp [hstarted])
    have hhalted' : ((s.handedOut c d q).ch c).state = .halted := by rw [hch]; exact hhalted
    rw [State.finish_of_still (by rw [hhalted']; exact fun h => nomatch h) (by rw [hhalted']; exact fun h => nomatch h), hch]
  · exact hch

/-- The other channels are as they were. -/
theorem State.castRead_others (s : State) (c e : Fin 6) (he : e ≠ c) (d : Pair) (p : Piece) :
    (s.castRead ⟨c.val, d, .complete p⟩).ch e = s.ch e := by
  cases hpiece : (s.ch c).piece with
  | none =>
    have hholds : (s.ch c).holds p.id = false := by simp [Channel.holds, hpiece]
    simp [State.castRead, hholds]
  | some q =>
    by_cases hid : q.id = p.id
    · obtain ⟨hothers, _⟩ := s.handedOut_rest c d q
      rw [State.castRead_of_holds hpiece hid]
      split
      · rw [← hothers e he]
        simp [he]
      · exact hothers e he
    · have hholds : (s.ch c).holds p.id = false := by simp [Channel.holds, hpiece, hid]
      simp [State.castRead, hholds]

end source

/-! ### The read-back -/

section readback
variable {s u : State} {f : TurnFrame} {c : Fin 6} {d : Pair} {p q : Piece}

/-- The state in which a frame with a CASTEND COMPLETE alone has been read back. -/
def State.castendRead (u : State) (f : TurnFrame) (c : Fin 6) (d : Pair) (p : Piece) : State :=
  ((u.castRead ⟨c.val, d, .complete p⟩).handleCastend f.sender ⟨c.val, d, .complete p⟩).readEnd f

theorem State.turnRead_of_castend (hcarries : CarriesJust f [] [] [⟨c.val, d, .complete p⟩] []) (hentries : f.entries = [])
    (s : State) (ok : Bool) : s.turnRead f ok = (s.ownUpdated f ok).castendRead f c d p := by
  obtain ⟨hoffers, hreplies, hcastends, hturnends⟩ := hcarries
  have hitems (t : State) : t.transferItems f true
      = (t.castRead ⟨c.val, d, .complete p⟩).handleCastend f.sender ⟨c.val, d, .complete p⟩ := by
    simp [State.transferItems, hoffers, hreplies, hcastends, hturnends]
  rw [State.turnRead_eq, hitems, State.ownEntries_of_none hentries]
  rfl

/-- At its source the read-back leaves what the CASTEND did, but for captures taken. -/
theorem State.castendRead_source (hpiece : (u.ch c).piece = some q) (hid : q.id = p.id) (f : TurnFrame) (d : Pair) :
    ((u.castRead ⟨c.val, d, .complete p⟩).ch c).Served ((u.castendRead f c d p).ch c) := by
  obtain ⟨hout, _, hidle⟩ := State.castRead_emptied hpiece hid d
  obtain ⟨hserved, _⟩ :=
    ((u.castRead ⟨c.val, d, .complete p⟩).handleCastend f.sender ⟨c.val, d, .complete p⟩).readEnd_rest f
  have hsame := State.handleCastend_of_emptied hout hidle.unit f.sender ⟨c.val, d, .complete p⟩
  have hend := hserved c
  rw [hsame] at hend
  exact hend

theorem State.castendRead_rest (hpiece : (u.ch c).piece = some q) (hid : q.id = p.id) (f : TurnFrame) (d : Pair) :
    (u.castendRead f c d p).castends = u.castends
      ∧ (u.castendRead f c d p).book.handed = raise 65535 u.book.handed
      ∧ (u.castendRead f c d p).line.round = u.line.round := by
  obtain ⟨_, _, hidle⟩ := State.castRead_emptied hpiece hid d
  obtain ⟨hcastends, _, hhanded⟩ := hidle.rest
  obtain ⟨_, hcastends', _, hhanded', _⟩ := u.handedOut_rest c d q
  obtain ⟨hcastends'', hhanded''⟩ :=
    (u.castRead ⟨c.val, d, .complete p⟩).handleCastend_complete_rest f.sender c.val d p
  obtain ⟨_, ⟨hcastends3, _, hhanded3⟩, _, hround⟩ :=
    ((u.castRead ⟨c.val, d, .complete p⟩).handleCastend f.sender ⟨c.val, d, .complete p⟩).readEnd_rest f
  refine ⟨hcastends3.trans (hcastends''.trans (hcastends.trans hcastends')),
    hhanded3.trans (hhanded''.trans (hhanded.trans hhanded')), hround.trans (by simp)⟩

/-- The first event of the read-back is the piece's leaving. -/
theorem State.castendRead_event (hpiece : (u.ch c).piece = some q) (hid : q.id = p.id) (hevents : u.panel.events = [])
    (hoverflow : u.panel.overflow = 0) (f : TurnFrame) (d : Pair) :
    (u.castendRead f c d p).panel.events.head? = some (outEvent c d q u.line.round) := by
  obtain ⟨_, _, _, _, hpanel⟩ := u.handedOut_rest c d q
  have hhead : (u.handedOut c d q).panel.events.head? = some (outEvent c d q u.line.round) := by
    rw [hpanel]
    exact Panel.queue_head hevents hoverflow _ _
  have hread : (u.handedOut c d q).panel.Queued (u.castRead ⟨c.val, d, .complete p⟩).panel := by
    rw [State.castRead_of_holds hpiece hid]
    split
    · exact State.finish_queued .refl c .cast
    · exact .refl
  have hqueued := State.handleCastend_queued hread f.sender ⟨c.val, d, .complete p⟩
  obtain ⟨_, _, hsame, _⟩ :=
    ((u.castRead ⟨c.val, d, .complete p⟩).handleCastend f.sender ⟨c.val, d, .complete p⟩).readEnd_rest f
  exact (congrArg List.head? hsame).trans (hqueued.head hhead)

/-- A destination on the station receives the piece. -/
theorem State.castendRead_arrives {e : Fin 6} (hpiece : (u.ch c).piece = some q) (hid : q.id = p.id) (he : e ≠ c)
    (hd : d = ⟨u.cfg.address, e.val⟩) (hkind : (u.ch e).kind = .box ∨ (u.ch e).kind = .kiln)
    (hawaits : (u.ch e).awaits ⟨f.sender, c.val⟩ p.id = true) :
    ((u.castendRead f c d p).ch e).piece.map (·.id) = some p.id ∧ ((u.castendRead f c d p).ch e).xfer = {}
      ∧ (u.castendRead f c d p).book.received = raise 65535 u.book.received := by
  obtain ⟨_, _, hidle⟩ := State.castRead_emptied hpiece hid d
  obtain ⟨_, hreceived, _⟩ := hidle.rest
  obtain ⟨_, _, hreceived', _⟩ := u.handedOut_rest c d q
  have hother := u.castRead_others c e he d p
  have harrive : (u.castRead ⟨c.val, d, .complete p⟩).handleCastend f.sender ⟨c.val, d, .complete p⟩
      = (u.castRead ⟨c.val, d, .complete p⟩).arrive e ⟨f.sender, c.val⟩ p :=
    State.handleCastend_of_awaits (by simpa using hd) (by rw [hother]; exact hawaits)
  obtain ⟨hcame, hplaced⟩ := (u.castRead ⟨c.val, d, .complete p⟩).arrive_spec (c := e) (by rw [hother]; exact hkind)
    ⟨f.sender, c.val⟩ p
  obtain ⟨_, hcounted, _⟩ := hcame.rest
  have hraised : ((u.castRead ⟨c.val, d, .complete p⟩).pieceCame e ⟨f.sender, c.val⟩ p).book.received
      = raise 65535 u.book.received := congrArg (raise 65535) (hreceived.trans hreceived')
  obtain ⟨hserved, ⟨_, hkept, _⟩, _⟩ := ((u.castRead ⟨c.val, d, .complete p⟩).arrive e ⟨f.sender, c.val⟩ p).readEnd_rest f
  obtain ⟨l, b, hch⟩ := hserved e
  rw [State.castendRead, harrive]
  refine ⟨?_, ?_, hkept.trans (hcounted.trans hraised)⟩
  · rw [hch]
    exact hplaced
  · rw [hch]
    exact hcame.unit

end readback

end Sys2Proof.Machine

/-! ## Proofs: an own entry read back (R85, R94, R127, R147, R151) -/

namespace Sys2Proof.Machine

/-! ### The channel of the entry -/

theorem State.holdsNamed_iff {s : State} {c : Fin 6} {e : EntryItem} :
    s.holdsNamed c e = true ↔ ∃ p, (s.ch c).piece = some p ∧ e.piece = some p.id := by
  unfold State.holdsNamed
  cases hpiece : (s.ch c).piece with
  | none => simp
  | some p =>
    cases hnamed : e.piece with
    | none => simp
    | some id =>
      refine ⟨fun h => ⟨p, rfl, congrArg some (eq_of_beq h).symm⟩, fun ⟨q, hq, hid⟩ => ?_⟩
      cases hq
      cases hid
      exact beq_self_eq_true p.id

/-- The channel in which the piece an entry names is brought up to date. -/
def entryNoted (h : Channel) (e : EntryItem) : Channel := { h with piece := h.piece.map (entryPiece e) }

/-- The state in which an entry's piece is up to date and GAUGE_TAKEN is queued. -/
def State.entryTold (s : State) (c : Fin 6) (e : EntryItem) (sequence : Seq) : State :=
  (if s.holdsNamed c e then s.modPiece c (entryPiece e) else s).event .gaugeTaken (some c) e.piece
    (0 :: bytes3 sequence.toNat)

theorem State.entryTold_ch_self (s : State) (c : Fin 6) (e : EntryItem) (sequence : Seq) :
    (s.entryTold c e sequence).ch c = if s.holdsNamed c e then entryNoted (s.ch c) e else s.ch c := by
  unfold State.entryTold
  split
  · simp [State.modPiece, entryNoted]
  · simp

theorem State.entryTold_rest (s : State) (c : Fin 6) (e : EntryItem) (sequence : Seq) :
    (s.entryTold c e sequence).book = s.book ∧ (s.entryTold c e sequence).line = s.line
      ∧ (s.entryTold c e sequence).panel
        = s.panel.queue s.line.round ⟨.gaugeTaken, some c, e.piece, s.line.round, 0 :: bytes3 sequence.toNat⟩ := by
  unfold State.entryTold
  split
  · exact ⟨rfl, rfl, rfl⟩
  · exact ⟨rfl, rfl, rfl⟩

theorem State.entryAt_eq (s : State) (c : Fin 6) (e : EntryItem) (sequence : Seq) : s.entryAt c e sequence =
    if s.holdsNamed c e && e.kind = .discard then (s.entryTold c e sequence).discardPiece c
    else s.entryTold c e sequence := rfl

/-- An entry that makes no discard changes no more of the channel than its piece. -/
theorem State.entryAt_kept {s : State} {c : Fin 6} {e : EntryItem} (hkept : s.holdsNamed c e = false ∨ e.kind ≠ .discard)
    (sequence : Seq) : s.entryAt c e sequence = s.entryTold c e sequence := by
  rw [State.entryAt_eq, if_neg]
  rcases hkept with h | h <;> simp [h]

/-- The discard that an entry makes (R147). -/
theorem State.entryAt_discard {s : State} {c : Fin 6} {e : EntryItem} (hnamed : s.holdsNamed c e = true)
    (hdiscard : e.kind = .discard) (sequence : Seq) : ((s.entryAt c e sequence).ch c).piece = none
      ∧ ((s.entryAt c e sequence).ch c).state = .idle ∧ ((s.entryAt c e sequence).ch c).step = none
      ∧ (s.entryAt c e sequence).NoClaims c
      ∧ (s.entryAt c e sequence).book.discarded = raise 65535 s.book.discarded := by
  obtain ⟨p, hpiece, _⟩ := State.holdsNamed_iff.mp hnamed
  have hpiece' : ((s.entryTold c e sequence).ch c).piece = some (entryPiece e p) := by
    rw [State.entryTold_ch_self, if_pos hnamed]
    simp [entryNoted, hpiece]
  obtain ⟨hout, hidle, hclaims, hcounted, _⟩ := State.discardPiece_spec hpiece'
  have hstep : (((s.entryTold c e sequence).discardPiece c).ch c).step = none := by
    rw [State.discardPiece_of_piece hpiece']
    simp [idleChannel]
  obtain ⟨hbook, _⟩ := s.entryTold_rest c e sequence
  rw [hbook] at hcounted
  rw [State.entryAt_eq, if_pos (by simp [hnamed, hdiscard])]
  exact ⟨hout, hidle, hstep, hclaims, hcounted⟩

/-! ### The channel's capture -/

/-- No capture of the channel is pending any more. -/
def Book.CapturesOut (b : Book) (c : Fin 6) : Prop := ∀ x ∈ b.pend, x.capture = true → x.item.channel ≠ some c.val

theorem Book.capturesOut_iff {b : Book} {c : Fin 6} :
    b.CapturesOut c ↔ (b.pend.any fun p => p.capture && p.item.channel == some c.val) = false := by
  simp [Book.CapturesOut]

theorem State.captureRead_last {s : State} {c : Fin 6} (hout : s.book.CapturesOut c) (hstep : (s.ch c).step = some .captured)
    (hstarted : (s.ch c).started = true) : s.captureRead c = s.finish c (captureReason (s.ch c)) := by
  rw [State.captureRead, if_neg (by simp [Book.capturesOut_iff.mp hout]), if_pos (by simp [hstep, hstarted])]

theorem State.captureRead_unless {s : State} {c : Fin 6}
    (h : ¬ (s.book.CapturesOut c ∧ (s.ch c).step = some .captured ∧ (s.ch c).started = true)) : s.captureRead c = s := by
  rw [State.captureRead]
  split
  · rfl
  · next hnone =>
    have hout : s.book.CapturesOut c := Book.capturesOut_iff.mpr (by simpa using hnone)
    refine if_neg fun hlast => h ⟨hout, ?_⟩
    simpa using hlast

/-- A GAUGE, COUCH or SAMPLE in progress. -/
def Channel.inCapture (h : Channel) : Prop :=
  h.inPhase .gauge = true ∨ h.inPhase .couch = true ∨ h.inPhase .sample = true

theorem Channel.inCapture.record {h : Channel} (hin : h.inCapture) : h.started = true
    ∧ ∃ r, h.current = some r ∧ isFinal r.kind = false ∧ r.kind ≠ .turn := by
  rcases hin with hin | hin | hin
  all_goals
    obtain ⟨hstarted, r, hcurrent, hkind⟩ := Channel.inPhase_iff.mp hin
    exact ⟨hstarted, r, hcurrent, by rw [hkind]; rfl, by rw [hkind]; exact fun h => nomatch h⟩

/-! ### The entry in the book -/

/-- An append leaves the lists of captures and the counters. -/
theorem Book.append_kept (b : Book) (item : EntryItem) (span : Nat) (round : Word16) (station : Nat) :
    (b.append item span round station).pend = b.pend ∧ (b.append item span round station).waiting = b.waiting
      ∧ (b.append item span round station).discarded = b.discarded := by
  unfold Book.append
  split <;> exact ⟨rfl, rfl, rfl⟩

theorem State.entryTaken_rest (s : State) (round : Word16) (e : EntryItem) :
    (s.entryTaken round e).chans = s.chans ∧ (s.entryTaken round e).line = s.line
      ∧ (s.entryTaken round e).book.pend = s.book.pend.drop 1 ∧ (s.entryTaken round e).book.waiting = s.book.waiting
      ∧ (s.entryTaken round e).book.discarded = s.book.discarded
      ∧ (s.entryTaken round e).panel.events = s.panel.events
      ∧ (s.entryTaken round e).panel.overflow = s.panel.overflow := by
  obtain ⟨hpend, hwaiting, hdiscarded⟩ := s.book.append_kept e 1 round s.cfg.address
  exact ⟨rfl, rfl, congrArg (List.drop 1) hpend, hwaiting, hdiscarded, rfl, rfl⟩

/-- The state in which an own entry stands in the book and its channel knows. -/
def State.entryWritten (s : State) (round : Word16) (c : Fin 6) (e : EntryItem) : State :=
  (s.entryTaken round e).entryAt c e s.book.count

/-- The state in which an own entry has been read back. -/
def State.entryRead (s : State) (round : Word16) (c : Fin 6) (e : EntryItem) : State :=
  if s.book.headCapture then (s.entryWritten round c e).captureRead c else s.entryWritten round c e

theorem State.entryTaken_ch (s : State) (round : Word16) (e : EntryItem) (d : Fin 6) :
    (s.entryTaken round e).ch d = s.ch d := State.ch_of_chans (s.entryTaken_rest round e).1 d

theorem State.entryTaken_holdsNamed (s : State) (round : Word16) (c : Fin 6) (e : EntryItem) :
    (s.entryTaken round e).holdsNamed c e = s.holdsNamed c e := by
  rw [State.holdsNamed, s.entryTaken_ch round e, ← State.holdsNamed]

section entry
variable {s : State} {c : Fin 6} {e : EntryItem} {round : Word16}

theorem State.entryRead_unbooked (s : State) (round : Word16) (c : Fin 6) (e : EntryItem) :
    (s.entryTaken round e).Unbooked (s.entryRead round c e) := by
  have hwritten := (s.entryTaken round e).entryAt_unbooked c e s.book.count
  unfold State.entryRead
  split
  · exact hwritten.captureRead c
  · exact hwritten

theorem State.entryRead_queued (s : State) (round : Word16) (c : Fin 6) (e : EntryItem) :
    ((s.entryTaken round e).entryTold c e s.book.count).panel.Queued (s.entryRead round c e).panel := by
  have hwritten : ((s.entryTaken round e).entryTold c e s.book.count).panel.Queued (s.entryWritten round c e).panel := by
    rw [State.entryWritten, State.entryAt_eq]
    exact State.ite_queued (State.discardPiece_queued .refl c) .refl
  unfold State.entryRead
  exact State.ite_queued (State.captureRead_queued hwritten c) hwritten

theorem State.entryRead_line (s : State) (round : Word16) (c : Fin 6) (e : EntryItem) :
    (s.entryRead round c e).line = s.line := by
  obtain ⟨_, hline, _⟩ := s.entryTaken_rest round e
  obtain ⟨_, htold, _⟩ := (s.entryTaken round e).entryTold_rest c e s.book.count
  have hwritten : (s.entryWritten round c e).line = s.line := by
    rw [State.entryWritten, State.entryAt_eq]
    split
    · simpa using htold.trans hline
    · exact htold.trans hline
  unfold State.entryRead
  split
  · simpa using hwritten
  · exact hwritten

/-- The first event of an entry's read-back is its GAUGE_TAKEN. -/
theorem State.entryRead_event (hevents : s.panel.events = []) (hoverflow : s.panel.overflow = 0) (round : Word16) (c : Fin 6)
    (e : EntryItem) : (s.entryRead round c e).panel.events.head?
      = some ⟨.gaugeTaken, some c, e.piece, s.line.round, 0 :: bytes3 s.book.count.toNat⟩ := by
  obtain ⟨_, hline, _, _, _, hevents', hoverflow'⟩ := s.entryTaken_rest round e
  obtain ⟨_, _, hpanel⟩ := (s.entryTaken round e).entryTold_rest c e s.book.count
  refine (s.entryRead_queued round c e).head ?_
  rw [hpanel, Panel.queue_head (hevents'.trans hevents) (hoverflow'.trans hoverflow), hline]

/-- An entry that makes no discard changes no more of its channel than the piece it names. -/
theorem State.entryWritten_ch (hkept : s.holdsNamed c e = false ∨ e.kind ≠ .discard) (round : Word16) :
    (s.entryWritten round c e).ch c = if s.holdsNamed c e then entryNoted (s.ch c) e else s.ch c := by
  have hnamed := s.entryTaken_holdsNamed round c e
  rw [State.entryWritten, State.entryAt_kept (by rw [hnamed]; exact hkept), State.entryTold_ch_self, hnamed,
    s.entryTaken_ch round e]

theorem State.entryWritten_pend (hkept : s.holdsNamed c e = false ∨ e.kind ≠ .discard) (round : Word16) :
    (s.entryWritten round c e).book.pend = s.book.pend.drop 1 := by
  obtain ⟨_, _, hpend, _⟩ := s.entryTaken_rest round e
  obtain ⟨hbook, _⟩ := (s.entryTaken round e).entryTold_rest c e s.book.count
  rw [State.entryWritten, State.entryAt_kept (by rw [s.entryTaken_holdsNamed]; exact hkept), hbook, hpend]

/-- A discard's read-back tells its channel no more. -/
theorem State.entryRead_discard (hnamed : s.holdsNamed c e = true) (hdiscard : e.kind = .discard) (round : Word16) :
    ((s.entryRead round c e).ch c).piece = none ∧ ((s.entryRead round c e).ch c).state = .idle
      ∧ (s.entryRead round c e).NoClaims c
      ∧ (s.entryRead round c e).book.discarded = raise 65535 s.book.discarded := by
  obtain ⟨hout, hidle, hstep, hclaims, hcounted⟩ := State.entryAt_discard
    ((s.entryTaken_holdsNamed round c e).trans hnamed) hdiscard s.book.count
  obtain ⟨_, _, _, _, hdiscarded, _⟩ := s.entryTaken_rest round e
  have hread : s.entryRead round c e = s.entryWritten round c e := by
    have hnothing : (s.entryWritten round c e).captureRead c = s.entryWritten round c e := by
      refine State.captureRead_unless fun ⟨_, hcaptured, _⟩ => ?_
      rw [State.entryWritten, hstep] at hcaptured
      cases hcaptured
    rw [State.entryRead, hnothing, ite_self]
  rw [hread]
  exact ⟨hout, hidle, hclaims, hcounted.trans (congrArg _ hdiscarded)⟩

/-- The entry read back is the channel's last capture. -/
def State.lastCapture (s : State) (c : Fin 6) : Prop :=
  s.book.headCapture = true ∧ (s.ch c).step = some .captured
    ∧ ∀ x ∈ s.book.pend.drop 1, x.capture = true → x.item.channel ≠ some c.val

theorem State.entryRead_unless (hkept : s.holdsNamed c e = false ∨ e.kind ≠ .discard)
    (hnot : ¬ (s.lastCapture c ∧ (s.ch c).started = true)) (round : Word16) :
    s.entryRead round c e = s.entryWritten round c e := by
  have hch := State.entryWritten_ch hkept round
  have hsame : ((s.entryWritten round c e).ch c).step = (s.ch c).step
      ∧ ((s.entryWritten round c e).ch c).started = (s.ch c).started := by
    rw [hch]
    split <;> exact ⟨rfl, rfl⟩
  obtain ⟨hstep, hstarted⟩ := hsame
  unfold State.entryRead
  split
  · next hcapture =>
    refine State.captureRead_unless fun ⟨hout, hcaptured, hbegun⟩ => hnot ⟨⟨hcapture, hstep ▸ hcaptured, ?_⟩, hstarted ▸ hbegun⟩
    rw [← State.entryWritten_pend hkept round]
    exact hout
  · rfl

/-- The last capture of a GAUGE, COUCH or SAMPLE tells its phase. -/
theorem State.entryRead_last (hkept : s.holdsNamed c e = false ∨ e.kind ≠ .discard) (hlast : s.lastCapture c)
    (hstarted : (s.ch c).started = true) (round : Word16) :
    s.entryRead round c e = (s.entryWritten round c e).finish c (captureReason (s.ch c)) := by
  obtain ⟨hcapture, hstep, hout⟩ := hlast
  have hch := State.entryWritten_ch hkept round
  have hsame : ((s.entryWritten round c e).ch c).step = (s.ch c).step
      ∧ ((s.entryWritten round c e).ch c).started = (s.ch c).started
      ∧ ((s.entryWritten round c e).ch c).kind = (s.ch c).kind := by
    rw [hch]
    split <;> exact ⟨rfl, rfl, rfl⟩
  obtain ⟨hstep', hstarted', hkind⟩ := hsame
  have hnone : (s.entryWritten round c e).book.CapturesOut c := by
    rw [Book.CapturesOut, State.entryWritten_pend hkept round]
    exact hout
  rw [State.entryRead, if_pos hcapture, State.captureRead_last hnone (hstep'.trans hstep) (hstarted'.trans hstarted),
    captureReason, captureReason, hkind]

end entry

end Sys2Proof.Machine

/-! ## Proofs: an own read-back hands over and books (R85, R94, R127, R138, R139, R147, R151) -/

namespace Sys2Proof.Machine

/-! ### The entry of a frame that is read back -/

theorem entryPiece_phases (e : EntryItem) (p : Piece) : (entryPiece e p).phases = p.phases := by
  unfold entryPiece
  split
  case h_4 => split <;> rfl
  all_goals rfl

/-- The end of a read-back after its entry. -/
def State.entryEnd (s : State) (f : TurnFrame) : State := (s.serve).takeSender (some f.sender)

theorem State.entryEnd_rest (s : State) (f : TurnFrame) : (∀ d, (s.ch d).Served ((s.entryEnd f).ch d))
    ∧ (s.entryEnd f).own = s.own ∧ (s.entryEnd f).panel = s.panel ∧ (s.entryEnd f).line.round = s.line.round
    ∧ (s.entryEnd f).book.discarded = s.book.discarded ∧ (s.entryEnd f).book.startDue = s.book.startDue
    ∧ (s.book.waiting = [] → (s.entryEnd f).book.pend = s.book.pend) := by
  obtain ⟨_, hdiscarded, hstart⟩ := serveList_counters s.book.waiting s
  refine ⟨fun d => ?_, by simp [State.entryEnd], by simp [State.entryEnd], by simp [State.entryEnd], ?_, ?_, fun hnone => ?_⟩
  · rw [State.entryEnd, State.takeSender_ch]
    exact serveList_served _ s d
  · simpa [State.entryEnd, State.serve] using hdiscarded
  · simpa [State.entryEnd, State.serve] using hstart
  · simp [State.entryEnd, State.serve, hnone, serveList]

theorem State.turnRead_of_entries {f : TurnFrame} (hcarries : CarriesJust f [] [] [] []) (s : State) (ok : Bool) :
    s.turnRead f ok = ((s.ownUpdated f ok).ownEntries f).entryEnd f := by
  rw [State.turnRead_eq, State.transferItems_of_none hcarries]
  rfl

/-- An entry of a frame that carries the book's count is read back alone. -/
theorem State.ownEntries_of_one {s : State} {f : TurnFrame} {e : EntryItem} {c : Fin 6} (hentries : f.entries = [e])
    (hnumbered : s.book.numbered = true) (hcount : f.count = s.book.count) (hstart : e.kind ≠ .start)
    (hchannel : e.channel = some c.val) : s.ownEntries f = s.entryRead f.round c e := by
  have hnumber : s.numberBook f.count = s := if_pos hnumbered
  have hcompared : s.compareCount f.count true f.sender f.round = s := by
    rw [State.compareCount, hcount]
    simp
  have hone : s.ownEntries f = s.ownEntry f.round e := by
    rw [State.ownEntries, hnumber, hentries]
    exact congrArg (fun t : State => t.ownEntry f.round e) hcompared
  rw [hone, State.ownEntry_of_channel s f.round hstart (by rw [hchannel]; exact chOf_val c)]
  rfl

/-- The comparison of a frame's count leaves the captures pending and the wait list. -/
theorem State.compared_lists (s : State) (f : TurnFrame) (some : Bool) :
    ((s.numberBook f.count).compareCount f.count some f.sender f.round).book.pend = s.book.pend
      ∧ ((s.numberBook f.count).compareCount f.count some f.sender f.round).book.waiting = s.book.waiting := by
  have hnumber : (s.book.number f.count).pend = s.book.pend ∧ (s.book.number f.count).waiting = s.book.waiting := by
    unfold Book.number
    split <;> exact ⟨rfl, rfl⟩
  rw [State.compareCount_book, State.numberBook_book]
  unfold Book.gapTo
  split
  · exact hnumber
  · split
    · obtain ⟨hpend, hwaiting, _⟩ := (s.book.number f.count).append_kept gapItem
        (f.count - (s.book.number f.count).count).toNat f.round (s.numberBook f.count).cfg.address
      exact ⟨hpend.trans hnumber.1, hwaiting.trans hnumber.2⟩
    · exact hnumber

/-- The START entry of a frame ends the mark that it is due (R151). -/
theorem State.ownEntries_of_start {s : State} {f : TurnFrame} {e : EntryItem} (hentries : f.entries = [e])
    (hstart : e.kind = .start) : (s.ownEntries f).book.startDue = false
      ∧ (s.ownEntries f).book.pend = s.book.pend ∧ (s.ownEntries f).book.waiting = s.book.waiting := by
  obtain ⟨hpend, hwaiting⟩ := s.compared_lists f (!f.entries.isEmpty)
  set v := (s.numberBook f.count).compareCount f.count (!f.entries.isEmpty) f.sender f.round with hv
  obtain ⟨hpend', hwaiting', _⟩ := v.book.append_kept e 1 f.round v.cfg.address
  have hone : s.ownEntries f = v.ownEntry f.round e := by
    have hfold : s.ownEntries f = f.entries.foldl (fun t x => t.ownEntry f.round x) v := rfl
    rw [hfold, hentries]
    rfl
  rw [hone, State.ownEntry_of_start v f.round hstart]
  exact ⟨rfl, hpend'.trans hpend, hwaiting'.trans hwaiting⟩

/-! ### What the entry finds -/

section entry
variable {s u : State} {c : Fin 6} {e : EntryItem} {pe : PendingEntry} {rest : List PendingEntry}

theorem State.lastCapture_iff (hpend : s.book.pend = pe :: rest) : s.lastCapture c ↔
    pe.capture = true ∧ (s.ch c).step = some .captured ∧ ∀ x ∈ rest, x.capture = true → x.item.channel ≠ some c.val := by
  simp [State.lastCapture, Book.headCapture, hpend]

/-- What is a last capture after the claims were read back was one before. -/
theorem State.ReadKept.lastCapture (h : s.ReadKept u) (hlast : u.lastCapture c) : s.lastCapture c := by
  obtain ⟨hcapture, hstep, hout⟩ := hlast
  obtain ⟨hbook, _⟩ := h.rest
  rw [hbook] at hcapture hout
  refine ⟨hcapture, ?_, hout⟩
  rcases (h.chans c).step with hsame | ⟨_, hheld⟩
  · exact hsame.symm.trans hstep
  · rw [hheld] at hstep
    cases hstep

theorem State.ReadKept.lastCapture_of (h : s.ReadKept u) (hin : (s.ch c).inCapture) (hlast : s.lastCapture c) :
    u.lastCapture c := by
  obtain ⟨hcapture, hstep, hout⟩ := hlast
  obtain ⟨hbook, _⟩ := h.rest
  rw [← hbook] at hcapture hout
  refine ⟨hcapture, ?_, hout⟩
  rcases (h.chans c).step with hsame | ⟨hturn, _⟩
  · exact hsame.trans hstep
  · obtain ⟨_, r, hcurrent, _, hnot⟩ := hin.record
    obtain ⟨_, r', hcurrent', hkind⟩ := Channel.inPhase_iff.mp hturn
    have hsame : r = r' := Option.some.inj (hcurrent.symm.trans hcurrent')
    exact absurd (hsame ▸ hkind) hnot

theorem State.ReadKept.holdsNamed (h : s.ReadKept u) (e : EntryItem) : u.holdsNamed c e = s.holdsNamed c e := by
  unfold State.holdsNamed
  simp only [(h.chans c).fields]

/-- An entry that makes no discard leaves its channel's run. -/
theorem State.ReadKept.written (h : s.ReadKept u) (hkept : s.holdsNamed c e = false ∨ e.kind ≠ .discard) (round : Word16) :
    ((u.entryWritten round c e).ch c).state = (s.ch c).state ∧ ((u.entryWritten round c e).ch c).due = (s.ch c).due
      ∧ ((u.entryWritten round c e).ch c).records = (s.ch c).records
      ∧ ((u.entryWritten round c e).ch c).current = (s.ch c).current
      ∧ ((u.entryWritten round c e).ch c).started = (s.ch c).started
      ∧ ((u.entryWritten round c e).ch c).piece
        = if s.holdsNamed c e then (s.ch c).piece.map (entryPiece e) else (s.ch c).piece := by
  have hch := State.entryWritten_ch (s := u) (by rw [h.holdsNamed]; exact hkept) round
  rw [h.holdsNamed] at hch
  rw [hch]
  split <;> simp only [entryNoted, (h.chans c).fields, and_self]

/-- Where the entry is no last capture, its channel is not told. -/
theorem State.ReadKept.read_unless (h : s.ReadKept u) (hkept : s.holdsNamed c e = false ∨ e.kind ≠ .discard)
    (hnot : ¬ s.lastCapture c) (round : Word16) : u.entryRead round c e = u.entryWritten round c e :=
  State.entryRead_unless (by rw [h.holdsNamed]; exact hkept) (fun ⟨hlast, _⟩ => hnot (h.lastCapture hlast)) round

/-- Where it is the last capture of a GAUGE, COUCH or SAMPLE, the phase is told. -/
theorem State.ReadKept.read_last (h : s.ReadKept u) (hkept : s.holdsNamed c e = false ∨ e.kind ≠ .discard)
    (hin : (s.ch c).inCapture) (hlast : s.lastCapture c) (round : Word16) : u.entryRead round c e =
      (u.entryWritten round c e).finish c (if (s.ch c).kind = .kiln then .sampled else .gauged) := by
  obtain ⟨hstarted, _⟩ := hin.record
  rw [State.entryRead_last (by rw [h.holdsNamed]; exact hkept) (h.lastCapture_of hin hlast)
    (by simp only [(h.chans c).fields, hstarted]), captureReason]
  simp only [(h.chans c).fields]

/-- The phase that completes, in RUNNING. -/
theorem State.ReadKept.read_completes (h : s.ReadKept u) (hkept : s.holdsNamed c e = false ∨ e.kind ≠ .discard)
    (hin : (s.ch c).inCapture) (hlast : s.lastCapture c) (hrun : (s.ch c).state = .running) (round : Word16) :
    (∀ r, (s.ch c).current = some r →
      ((u.entryRead round c e).ch c).EndedBy r.kind (if (s.ch c).kind = .kiln then .sampled else .gauged))
    ∧ ∀ p, ((u.entryWritten round c e).ch c).piece = some p →
      ((u.entryRead round c e).ch c).piece = some { p with phases := raise 255 p.phases } := by
  obtain ⟨hstate, _, _, hcurrent, _⟩ := h.written hkept round
  obtain ⟨_, r, hr, hgoesOn, _⟩ := hin.record
  have hrun' := hstate.trans hrun
  rw [h.read_last hkept hin hlast, State.finish_of_running hrun']
  refine ⟨fun r' hr' => ?_, fun p hp => State.complete_piece (hcurrent.trans hr) hgoesOn hp _⟩
  exact State.complete_endedBy (hcurrent.trans hr') (by rw [hrun']; rfl) _

/-- The completion that is due, in PAUSED. -/
theorem State.ReadKept.read_due (h : s.ReadKept u) (hkept : s.holdsNamed c e = false ∨ e.kind ≠ .discard)
    (hin : (s.ch c).inCapture) (hlast : s.lastCapture c) (hpaused : (s.ch c).state = .paused) (hdue : (s.ch c).due = none)
    (round : Word16) :
    ((u.entryRead round c e).ch c).due = some (if (s.ch c).kind = .kiln then .sampled else .gauged)
      ∧ ((u.entryRead round c e).ch c).state = .paused
      ∧ ((u.entryRead round c e).ch c).records = (s.ch c).records := by
  obtain ⟨hstate, hdue', hrecords, _, hstarted', _⟩ := h.written hkept round
  obtain ⟨hstarted, _⟩ := hin.record
  rw [h.read_last hkept hin hlast, State.finish_of_paused (hstate.trans hpaused) (hstarted'.trans hstarted)
    (hdue'.trans hdue), State.ch_modCh_self]
  exact ⟨rfl, hstate.trans hpaused, hrecords⟩

/-- The last capture completes nothing in a state that is not RUNNING, and leaves the piece. -/
theorem State.ReadKept.read_piece_still (h : s.ReadKept u) (hkept : s.holdsNamed c e = false ∨ e.kind ≠ .discard)
    (hin : (s.ch c).inCapture) (hlast : s.lastCapture c) (hnot : (s.ch c).state ≠ .running) (round : Word16) :
    ((u.entryRead round c e).ch c).piece = ((u.entryWritten round c e).ch c).piece := by
  obtain ⟨hstate, _⟩ := h.written hkept round
  rw [h.read_last hkept hin hlast]
  by_cases hpaused : (s.ch c).state = .paused
  · unfold State.finish
    simp only [hstate.trans hpaused]
    split
    · rw [State.ch_modCh_self]
    · rfl
  · rw [State.finish_of_still (by rw [hstate]; exact hnot) (by rw [hstate]; exact hpaused)]

/-- The piece that an entry names, and the count of its phases. -/
theorem State.ReadKept.read_piece (h : s.ReadKept u) {p : Piece} (hpiece : (s.ch c).piece = some p)
    (hnamed : e.piece = some p.id) (hcase : s.lastCapture c → (s.ch c).inCapture) (round : Word16) :
    ∃ n, ((s.ch c).inCapture ∧ s.lastCapture c ∧ (s.ch c).state = .running → n = raise 255 p.phases)
      ∧ (¬ ((s.ch c).inCapture ∧ s.lastCapture c ∧ (s.ch c).state = .running) → n = p.phases)
      ∧ (e.kind ≠ .discard → ((u.entryRead round c e).ch c).piece = some { entryPiece e p with phases := n }) := by
  have hwritten (hdiscard : e.kind ≠ .discard) :
      ((u.entryWritten round c e).ch c).piece = some { entryPiece e p with phases := p.phases } := by
    obtain ⟨_, _, _, _, _, hnoted⟩ := h.written (.inr hdiscard) round
    rw [hnoted, if_pos (State.holdsNamed_iff.mpr ⟨p, hpiece, hnamed⟩), hpiece, ← entryPiece_phases e p]
    rfl
  by_cases hcompletes : (s.ch c).inCapture ∧ s.lastCapture c ∧ (s.ch c).state = .running
  · refine ⟨raise 255 p.phases, fun _ => rfl, fun hnot => absurd hcompletes hnot, fun hdiscard => ?_⟩
    obtain ⟨hin, hlast, hrun⟩ := hcompletes
    obtain ⟨_, hcounted⟩ := h.read_completes (.inr hdiscard) hin hlast hrun round
    rw [hcounted _ (hwritten hdiscard)]
  · refine ⟨p.phases, fun hyes => absurd hyes hcompletes, fun _ => rfl, fun hdiscard => ?_⟩
    rw [← hwritten hdiscard]
    by_cases hlast : s.lastCapture c
    · exact h.read_piece_still (.inr hdiscard) (hcase hlast) hlast (fun hrun => hcompletes ⟨hcase hlast, hlast, hrun⟩) round
    · rw [h.read_unless (.inr hdiscard) hlast round]

end entry

end Sys2Proof.Machine

/-! ## Proofs: the obligation on own read-backs (R85, R94, R127, R138, R139, R147, R151) -/

namespace Sys2Proof.Machine

/-- An entry of a kind and a value that set no field leaves the piece; the others set theirs (R151, R127). -/
theorem entryPiece_fields {e : EntryItem} {p : Piece} {n : Nat} {o : Option Piece}
    (h : e.kind ≠ .discard → o = some { entryPiece e p with phases := n }) :
    (∀ g, e.kind = .steepGauge → e.value = .gauge g → o = some { p with
        steepGauge := some g, handGauged := p.handGauged || e.hand, phases := n })
    ∧ (∀ g, e.kind = .couchGauge → e.value = .gauge g → o = some { p with
        couchGauge := some g, handGauged := p.handGauged || e.hand, phases := n })
    ∧ (∀ number m, e.kind = .kilnSample → e.value = .sample number m →
        o = some { p with sample := some number, moisture := some m, phases := n })
    ∧ (∀ g, e.kind = .duty → e.value = .gauge g → p.duty = none → o = some { p with
        duty := some g, deficient := p.deficient || e.deficient, phases := n })
    ∧ (∀ g, e.kind = .duty → e.value = .gauge g → p.duty.isSome = true → o = some { p with phases := n }) := by
  refine ⟨fun g hkind hvalue => ?_, fun g hkind hvalue => ?_, fun number m hkind hvalue => ?_,
    fun g hkind hvalue hduty => ?_, fun g hkind hvalue hduty => ?_⟩
  · simpa [entryPiece, hkind, hvalue] using h
  · simpa [entryPiece, hkind, hvalue] using h
  · simpa [entryPiece, hkind, hvalue] using h
  · simpa [entryPiece, hkind, hvalue, hduty] using h
  · simpa [entryPiece, hkind, hvalue, hduty] using h

/-- Settles O51, by what leaves the source and comes to the destination, and by what the entry tells its channel. -/
theorem ownReadBackHandsOverAndBooks : Obligations.OwnReadBackHandsOverAndBooks := by
  refine ⟨fun s f ok c d p q hreads hcarries hentries _ hpiece hid => ?castend,
    fun s f ok c e pe rest hreads hcarries hentries hpend hitem hstart hchannel hnumbered hcount _ => ?entry,
    fun s f ok e hreads hcarries hentries hstart => ?start⟩
  case castend =>
    obtain ⟨hsending, hfew⟩ := hreads
    have hkept := State.ownUpdated_readKept hfew f ok
    have hfields := (hkept.chans c).fields
    obtain ⟨hbook, hcfg, hcastends⟩ := hkept.rest
    have hpiece' : ((s.ownUpdated f ok).ch c).piece = some q := by simp only [hfields, hpiece]
    have hphase (k : PhaseKind) := (hkept.chans c).inPhase k
    obtain ⟨hout, hend, hidle⟩ := State.castRead_emptied hpiece' hid d
    obtain ⟨l, b, hch⟩ := State.castendRead_source hpiece' hid f d
    obtain ⟨hlist, hhanded, hround⟩ := State.castendRead_rest hpiece' hid f d
    refine ⟨_, exec_ownTurnReadBack hsending, ?_⟩
    rw [State.turnRead_of_castend hcarries hentries]
    refine ⟨?_, ?_, ?_, ?_, ?_, fun r hcurrent hcast hrun => ?_, fun hcast hpaused hdue => ?_, fun hstill => ?_,
      fun haway hevents hoverflow => ?_, fun e he hd hkind hawaiting hpartner hid' => ?_⟩
    · rw [hch]
      exact hout
    · rw [hch]
      exact hend
    · rw [hch]
      exact hidle.unit
    · rw [hhanded, hbook]
      rfl
    · rw [hlist, hcastends]
      rfl
    · rw [hch]
      have hread := State.castRead_running (r := r) hpiece' hid d (by simp only [hfields, hcurrent]) (by rw [hphase, hphase]; exact hcast)
        (by simp only [hfields, hrun])
      simpa only [hfields] using hread
    · rw [hch]
      have hread := State.castRead_paused hpiece' hid d (by rw [hphase, hphase]; exact hcast) (by simp only [hfields, hpaused])
        (by simp only [hfields, hdue])
      simpa only [hfields] using hread
    · have hread := State.castRead_still hpiece' hid d (by
        simp only [hfields]
        exact hstill.imp_right fun ⟨_, _, hstarted⟩ => hstarted)
      rw [hch, hread]
      simp only [emptied, hfields, and_self]
    · obtain ⟨hevents', hoverflow'⟩ := hkept.quiet haway
      rw [hround, ← hid]
      exact State.castendRead_event hpiece' hid (hevents'.trans hevents) (hoverflow'.trans hoverflow) f d
    · have hfields' := (hkept.chans e).fields
      have hawaits : ((s.ownUpdated f ok).ch e).awaits ⟨f.sender, c.val⟩ p.id = true := by
        simp only [Channel.awaits, hfields', hawaiting, hpartner, hid', beq_self_eq_true, Bool.and_self]
      obtain ⟨hplaced, hunit, hreceived⟩ := State.castendRead_arrives (d := d) hpiece' hid he (by rw [hcfg]; exact hd)
        (by simpa only [hfields'] using hkind) hawaits
      rw [hbook] at hreceived
      exact ⟨hplaced, hunit, hreceived⟩
  case entry =>
    obtain ⟨hsending, hfew⟩ := hreads
    have hkept := State.ownUpdated_readKept hfew f ok
    obtain ⟨hbook, _⟩ := hkept.rest
    have hread : s.turnRead f ok = ((s.ownUpdated f ok).entryRead f.round c e).entryEnd f := by
      rw [State.turnRead_of_entries hcarries, State.ownEntries_of_one hentries (by rw [hbook]; exact hnumbered)
        (by rw [hbook]; exact hcount) hstart hchannel]
    set u := s.ownUpdated f ok with hu
    obtain ⟨hserved, hown, hpanel, hround, hdiscarded, _, hpends⟩ := (u.entryRead f.round c e).entryEnd_rest f
    obtain ⟨l, b, hch⟩ := hserved c
    have hlast := State.lastCapture_iff (c := c) hpend
    refine ⟨_, exec_ownTurnReadBack hsending, ?_⟩
    rw [hread]
    refine ⟨fun hwaiting => ?_, fun haway hevents hoverflow => ?_, fun p hpiece hnamed => ⟨fun hdiscard => ?_, fun hcase => ?_⟩,
      fun hother hcapture => ?_, fun hdiscard => ⟨fun r hcurrent hcompletes => ?_, fun hin hlast' hpaused hdue => ?_,
        fun hnot => ?_⟩⟩
    · obtain ⟨_, _, htaken, hwaits, _⟩ := u.entryTaken_rest f.round e
      obtain ⟨hnone, hitems⟩ := (u.entryRead_unbooked f.round c e).pend (by rw [hwaits, hbook]; exact hwaiting)
      rw [hpends hnone, hitems, htaken, hbook, hpend]
      rfl
    · obtain ⟨hevents', hoverflow'⟩ := hkept.quiet haway
      have hhead := State.entryRead_event (hevents'.trans hevents) (hoverflow'.trans hoverflow) f.round c e
      rw [hpanel, hround, State.entryRead_line, hhead, hbook]
    · have hnamed' : u.holdsNamed c e = true :=
        (hkept.holdsNamed e).trans (State.holdsNamed_iff.mpr ⟨p, hpiece, hnamed⟩)
      obtain ⟨hout, hidle, hclaims, hcounted⟩ := State.entryRead_discard hnamed' hdiscard f.round
      rw [hbook] at hcounted
      rw [hch]
      exact ⟨hout, hidle, hclaims.of_own hown, hdiscarded.trans hcounted⟩
    · obtain ⟨n, hcounted, hstays, hread'⟩ := hkept.read_piece hpiece hnamed (fun hl => hcase.resolve_left fun hnot => by
        rw [(hlast.mp hl).1] at hnot
        cases hnot) f.round
      refine ⟨n, fun ⟨hin, hl, hrun⟩ => hcounted ⟨hin, hlast.mpr hl, hrun⟩,
        fun hnot => hstays fun ⟨hin, hl, hrun⟩ => hnot ⟨hin, hlast.mp hl, hrun⟩, entryPiece_fields fun hdiscard => ?_⟩
      rw [hch]
      exact hread' hdiscard
    · have hnamed : s.holdsNamed c e = false := by
        refine Bool.eq_false_iff.mpr fun hnamed => ?_
        obtain ⟨p, hpiece, hp⟩ := State.holdsNamed_iff.mp hnamed
        rcases hother with hother | hnone
        · exact hother (by rw [hpiece, hp]; rfl)
        · rw [hpiece] at hnone
          cases hnone
      have hnot : ¬ s.lastCapture c := fun hl => by
        rw [(hlast.mp hl).1] at hcapture
        cases hcapture
      obtain ⟨_, _, _, _, _, hpiece⟩ := hkept.written (.inl hnamed) f.round
      rw [hch, hkept.read_unless (.inl hnamed) hnot f.round]
      exact hpiece.trans (by rw [hnamed]; rfl)
    · obtain ⟨hin, hl, hrun⟩ := hcompletes
      obtain ⟨hended, _⟩ := hkept.read_completes (.inr hdiscard) hin (hlast.mpr hl) hrun f.round
      rw [hch]
      exact hended r hcurrent
    · rw [hch]
      exact hkept.read_due (.inr hdiscard) hin (hlast.mpr hlast') hpaused hdue f.round
    · obtain ⟨hstate, hdue, hrecords, _⟩ := hkept.written (.inr hdiscard) f.round
      rw [hch, hkept.read_unless (.inr hdiscard) (fun hl => hnot (hlast.mp hl)) f.round]
      exact ⟨hrecords, hstate, hdue⟩
  case start =>
    obtain ⟨hsending, hfew⟩ := hreads
    have hkept := State.ownUpdated_readKept hfew f ok
    obtain ⟨hbook, _⟩ := hkept.rest
    obtain ⟨hdue, hpend, hwaiting⟩ := State.ownEntries_of_start (s := s.ownUpdated f ok) hentries hstart
    obtain ⟨_, _, _, _, _, hended, hpends⟩ := ((s.ownUpdated f ok).ownEntries f).entryEnd_rest f
    refine ⟨_, exec_ownTurnReadBack hsending, ?_⟩
    rw [State.turnRead_of_entries hcarries]
    refine ⟨hended.trans hdue, fun hnone => ?_⟩
    rw [hpends (by rw [hwaiting, hbook]; exact hnone), hpend, hbook]

end Sys2Proof.Machine
